-- ==== Sys2Proof/Word.lean ====
section
/-! DEFINITION. The word types of the block and the names of its numbered units (rules R3, R9, R10, R374, R388). -/

namespace Sys2Proof

/-- One byte (R9). -/
abbrev Byte := BitVec 8
/-- One 32-bit register word (R10), drover register or FP32 bit pattern. -/
abbrev Word := BitVec 32
/-- A fabric ID, 14 bits (R349). -/
abbrev Fid := BitVec 14
/-- A submission queue, 0 to 255 (R13). -/
abbrev QueueId := Fin 256
/-- A hardware context, 0 to 63 (R374). -/
abbrev CtxId := Fin 64
/-- A partition, 0 to 7 (R435). -/
abbrev PartId := Fin 8
/-- A logical engine, 0 to 1,279 (R3). -/
abbrev EngineId := Fin 1280
/-- A logical cluster, 0 to 79 (R3). -/
abbrev ClusterId := Fin 80
/-- A drover: 64 × logical engine + index within the engine (R164). -/
abbrev DroverId := Fin 81920
/-- A transfer channel: 64 × logical cluster + channel (R388). -/
abbrev XferId := Fin 5120
/-- A PCIe port (R372). -/
abbrev HostPort := Fin 2
/-- A Rolre port (R339). -/
abbrev RolrePort := Fin 16
/-- A caravan stream (R321). -/
abbrev StreamId := Fin 1024
/-- A convoy channel (R269). -/
abbrev ChanId := Fin 32
/-- A group table index (R184). -/
abbrev GroupId := Fin 256
/-- A compute die (R23). -/
abbrev DieId := Fin 2
/-- An HBM4 stack (R23). -/
abbrev StackId := Fin 12
/-- A function index, 32 × port + function (R374). -/
abbrev FnId := Fin 64
/-- A BAR0 offset of the 64 MiB register space (R13). -/
abbrev RegOff := BitVec 26
/-- A signature-free time in stages (R20). -/
abbrev Stage := BitVec 64

end Sys2Proof
end

