-- ==== Sys2Proof/Syntax.lean ====
section
/-! DEFINITION. The commands of the block: one constructor of `Instr` for each row of spec/opcode_table.json, with the
operand records its commands carry. What comes from outside the device (ring slots as the host wrote them, the fields of
an arriving message, a sensor reading, the verdict of a signature check, a hardware fault in a tile) is an operand. -/

namespace Sys2Proof

/-- Who makes a register access: a function of a PCIe port, the dragoman, or a fabric source (R12, R376, R378). -/
inductive Requester where
  | fn (f : FnId)
  | dragoman
  | fabric (fid : Fid)
  deriving DecidableEq, Repr

/-- Format R of a drover word (R154). -/
structure RArgs where
  rd : BitVec 5
  rs1 : BitVec 5
  rs2 : BitVec 5
  deriving DecidableEq, Repr

/-- Format I of a drover word (R154). -/
structure IArgs where
  rd : BitVec 5
  rs1 : BitVec 5
  imm : BitVec 16
  deriving DecidableEq, Repr

/-- The shift-immediate words of format I (R156): imm[4:0] is the amount. -/
structure ShArgs where
  rd : BitVec 5
  rs1 : BitVec 5
  amt : BitVec 5
  deriving DecidableEq, Repr

/-- Format B of a drover word (R154); the offset counts instructions. -/
structure BArgs where
  rs1 : BitVec 5
  rs2 : BitVec 5
  off : BitVec 16
  deriving DecidableEq, Repr

/-- Format R of the system opcode with a scope code in func bits 10:8 (R154). -/
structure SArgs where
  rd : BitVec 5
  rs1 : BitVec 5
  rs2 : BitVec 5
  scope : BitVec 3
  deriving DecidableEq, Repr

/-- Format V of a drover word (R154). -/
structure VArgs where
  vd : BitVec 4
  va : BitVec 4
  vb : BitVec 4
  vc : BitVec 4
  ty : BitVec 2
  deriving DecidableEq, Repr

/-- Format X of a drover word (R154). -/
structure XArgs where
  vd : BitVec 4
  va : BitVec 4
  x : BitVec 5
  lane : BitVec 5
  ty : BitVec 2
  deriving DecidableEq, Repr

/-- Format C of a drover word (R154). -/
structure CArgs where
  vd : BitVec 4
  va : BitVec 4
  src : BitVec 4
  dst : BitVec 4
  part : BitVec 2
  deriving DecidableEq, Repr

/-- Format P of a drover word (R154). -/
structure PArgs where
  vd : BitVec 4
  va : BitVec 4
  x : BitVec 5
  kind : BitVec 4
  part : BitVec 1
  deriving DecidableEq, Repr

/-- Format VM of a drover word (R154); the offset is in units of 32 B. -/
structure MArgs where
  vd : BitVec 4
  rs1 : BitVec 5
  va : BitVec 4
  off : BitVec 10
  deriving DecidableEq, Repr

/-- What the hardware did while one tile was formed (R64): faults are nature's, not the data's. -/
structure TileHw where
  /-- the first check fails whatever the data -/
  faulty : Bool
  /-- failing columns of that first failure, for R67 -/
  columns : BitVec 16
  /-- the recomputation on the same engine fails too -/
  again : Bool
  /-- engine of the serai on which the block is executed again (any free one, R64) -/
  other : EngineId
  /-- the other engine's tile: 0 passes, 1 fails with the first engine's bits, 2 fails with other bits -/
  outcome : BitVec 2
  deriving DecidableEq, Repr

/-- The 64-byte control part of a convoy message on the small path (R287). -/
structure ConvoyCtl where
  seq : Word
  group : Byte
  cop : Byte
  ctype : Byte
  chunkLog2 : Byte
  elemBytes : BitVec 16
  cflags : Byte
  mkind : Byte
  count : Word
  listCrc : Word
  root : BitVec 16
  fromPos : BitVec 16
  dataBytes : BitVec 16
  abortCause : Byte
  deriving DecidableEq, Repr

/-- What every chunk of a collective carries (R293), and whether it is a contribution to a reduction or a result. -/
structure ChunkHead where
  group : Byte
  seq : Word
  chunk : Word
  fromPos : BitVec 16
  result : Bool
  deriving DecidableEq, Repr

/-- An ACK, NACK or MANIFEST_ACK header (R326, R327). -/
structure CaravanReply where
  version : Byte
  stream : BitVec 16
  /-- bytes 16 to 31: the page key, or the handle in bytes 16 to 21 -/
  key : BitVec 128
  /-- bytes 32 to 35: `page_crc` or `list_crc` echoed -/
  echo : Word
  /-- byte 36: ACK kind, NACK reason or manifest status -/
  code : Byte
  /-- bytes 40 to 43: `retry_after`, or the number of keys missing -/
  extra : Word
  /-- `msg_crc` holds over the message -/
  crcOk : Bool
  deriving DecidableEq, Repr

/-- The header of a Rolre message (R344), its message kind apart: each kind has its own command. -/
structure RolreHead where
  destFid : Fid
  srcFid : Fid
  vlane : Byte
  flow : BitVec 16
  flowSeq : Word
  rstatus : Byte
  offset : BitVec 40
  /-- the generation the message bears (R469) -/
  generation : BitVec 16
  /-- `msg_crc` holds over the message (R345) -/
  crcOk : Bool
  deriving DecidableEq, Repr

/-- The signal record that a message with `carries_signal` ends in, or the body of a tally operation (R344, R249). -/
structure RemoteSignal where
  vid : BitVec 16
  group : GroupId
  scope : BitVec 3
  amount : Word
  deriving DecidableEq, Repr

/-- A flit as the receiver of a Rolre port sees it (R341, R342). -/
structure FlitIn where
  kind : BitVec 4
  fseq : BitVec 12
  fack : BitVec 12
  words : List (BitVec 72)
  /-- the codeword is correctable by the FEC -/
  fecOk : Bool
  /-- the FEC corrected it -/
  corrected : Bool
  deriving DecidableEq, Repr

/-- What one control interval brings to the power controller (R406, R419, R424): the weighhouse feed in units of
2⁻¹⁰ µJ, absent when it has not arrived, and the raw activity estimate in µJ. -/
structure PowerReading where
  feed : Option Nat
  feedFault : Bool
  raw : Nat
  deriving DecidableEq, Repr

/-- One reading of the sensors, hottest of each part in 1/8 °C (R410). -/
structure SensorReading where
  die0 : BitVec 16
  die1 : BitVec 16
  io : BitVec 16
  hbm : List (BitVec 16)
  deriving DecidableEq, Repr

/-- The header and components of a firmware image (R449, R451). -/
structure Firmware where
  svn : Word
  raiseSvn : Bool
  versions : List Word
  digest : List Byte
  deriving DecidableEq, Repr

/-- What a boot finds: the firmware and the Ecloth image in flash verify, the clusters and stacks that fail (R445). -/
structure BootFacts where
  firmwareOk : Bool
  ecloth : List Byte
  eclothOk : Bool
  failedClusters : List ClusterId
  failedStacks : List StackId
  nonce : BitVec 256
  deriving DecidableEq, Repr

/-- A transport of an SPDM or PLDM request (R454, R457). -/
inductive Transport where
  | doe (p : HostPort)
  | mctpI3c
  | mctpPcie (p : HostPort)
  deriving DecidableEq, Repr

/-- A unit that returns to service (R469, R470). -/
inductive RejoinUnit where
  | spare (c : ClusterId)
  | retested (c : ClusterId) (slot : Fin 17)
  | givenCluster (c : ClusterId)
  | bank (b : Fin 9)
  | lane (p : RolrePort) (l : Fin 8)
  deriving DecidableEq, Repr

/-- A unit that a self-check finds beyond its internal spares (R458). -/
inductive CheckedUnit where
  | dispatcher (c : ClusterId)
  | transferEngine (c : ClusterId)
  | seraiMemory (c : ClusterId)
  | tallyNode (c : ClusterId)
  | ioDie
  deriving DecidableEq, Repr

/-- A reference clock of the carrier (R489). -/
inductive RefClock where
  | rolre (pair : Fin 2)
  | pcie (p : HostPort)
  deriving DecidableEq, Repr

/-- The commands: one constructor for each row of spec/opcode_table.json. -/
inductive Instr where
  /-- MATMUL (R74): A MATMUL packet issues: its checks run, then its blocks are dealt to the clusters of its placement range. -/
  | matmul (q : QueueId)
  /-- MATMUL_BATCHED (R85): A MATMUL_BATCHED packet issues and runs P problems in strided or table mode. -/
  | matmulBatched (q : QueueId)
  /-- ATTEND (R111): An ATTEND packet issues: it checks and reads its descriptors, runs its append phase, then deals its attention blocks. -/
  | attend (q : QueueId)
  /-- MATVEC (R86): A MATVEC packet issues and runs its blocks on the side path. -/
  | matvec (q : QueueId)
  /-- CONV (R106): A CONV packet issues and deals its convolution blocks, or its patches when halos are declared. -/
  | conv (q : QueueId)
  /-- TRANSFER (R215): A TRANSFER packet issues and starts its manifest on a channel 48-63, or waits for a free one. -/
  | transfer (q : QueueId)
  /-- RING_CONFIG (R224): A RING_CONFIG packet issues and waits for the named ring to be idle on each selected engine. -/
  | ringConfig (q : QueueId)
  /-- SIGNAL_ADD (R244): A SIGNAL packet with op ADD releases at its scope and sends an ADD to the tally, locally or to a remote device. -/
  | signalAdd (q : QueueId)
  /-- SIGNAL_SUB (R244): A SIGNAL packet with op SUB sends a SUB to the tally. -/
  | signalSub (q : QueueId)
  /-- WAIT_AT_LEAST (R245): A WAIT packet with op AT_LEAST holds its queue until the tally reaches the threshold. -/
  | waitAtLeast (q : QueueId)
  /-- WAIT_TAKE (R245): A WAIT packet with op TAKE holds its queue until the threshold can be subtracted, in arrival order. -/
  | waitTake (q : QueueId)
  /-- BARRIER (R246): A BARRIER packet makes one arrival on a barrier tally and holds its queue until the phase completes. -/
  | barrier (q : QueueId)
  /-- SYNC_DUMP (R261): A SYNC_DUMP packet issues; it takes a consistent cut of the tallies at the next stage boundary and writes the dump. -/
  | syncDump (q : QueueId)
  /-- ALL_REDUCE (R282): A collective ALL_REDUCE starts on its group's channel, takes the group sequence number and opens. -/
  | allReduce (q : QueueId)
  /-- REDUCE_SCATTER (R282): A collective REDUCE_SCATTER starts and opens. -/
  | reduceScatter (q : QueueId)
  /-- ALL_GATHER (R282): A collective ALL_GATHER starts and opens. -/
  | allGather (q : QueueId)
  /-- ALL_GATHER_V (R282): A collective ALL_GATHER_V starts and exchanges its counts in the openings. -/
  | allGatherV (q : QueueId)
  /-- ALL_TO_ALL_V (R282): A collective ALL_TO_ALL_V starts and exchanges per-destination counts. -/
  | allToAllV (q : QueueId)
  /-- BROADCAST (R282): A collective BROADCAST starts from its root position. -/
  | broadcast (q : QueueId)
  /-- SEND (R282): A collective SEND takes the pair send sequence number and sends bytes or pages to its peer. -/
  | send (q : QueueId)
  /-- RECV (R282): A collective RECV takes the pair receive sequence number and receives from its peer up to its capacity. -/
  | recv (q : QueueId)
  /-- SENDRECV (R282): A collective SENDRECV sends to one peer and receives from another. -/
  | sendrecv (q : QueueId)
  /-- COLLECTIVE_BARRIER (R282): A collective BARRIER starts and completes when every member has started it. -/
  | collectiveBarrier (q : QueueId)
  /-- DROVER_LAUNCH (R171): A DROVER_LAUNCH packet issues and waits for all its drover groups to be free. -/
  | droverLaunch (q : QueueId)
  /-- KV_SHIP (R322): A KV_SHIP packet issues, binds or checks its stream and records its selection of pages. -/
  | kvShip (q : QueueId)
  /-- KV_IMPORT (R337): A KV_IMPORT packet issues and processes its import records in order. -/
  | kvImport (q : QueueId)
  /-- SEAL (R313): KV_SEAL op 0 moves each selected FILLING page to SEALED with its CRC. -/
  | seal (q : QueueId)
  /-- RELEASE (R313): KV_SEAL op 1 frees each selected page once its readers and shipments have ended. -/
  | release (q : QueueId)
  /-- RENEW (R313): KV_SEAL op 2 renews each selected page below the target generation to an empty FILLING page. -/
  | renew (q : QueueId)
  /-- OPEN_SEQUENCE (R312): KV_SEAL op 3 opens a sequence with its dimensions, entry range and a sequence slot. -/
  | openSequence (q : QueueId)
  /-- CLOSE_SEQUENCE (R313): KV_SEAL op 4 releases every page of the sequence and frees its slot and range. -/
  | closeSequence (q : QueueId)
  /-- HINT (R409): A HINT packet tells the power controller about a phase and completes at issue. -/
  | hint (q : QueueId)
  /-- SNAPSHOT (R368): A SNAPSHOT packet schedules a counter latch at a stage and optionally an image write. -/
  | snapshot (q : QueueId)
  /-- FREEZE_AT (R477): A FREEZE_AT packet arms a device freeze at a stage and completes. -/
  | freezeAt (q : QueueId)
  /-- FENCE (R208): A FENCE packet completes when earlier writes of its queue are performed at its scope. -/
  | fence (q : QueueId)
  /-- NOP (R382): A NOP packet completes at issue. -/
  | nop (q : QueueId)
  /-- PACKET_FETCH (R383): A queue fetches a packet from its ring, journals and accepts it, or discards it as a duplicate. -/
  | packetFetch (q : QueueId) (slots : List Byte)
  /-- PACKET_COMPLETE (R27): A packet whose blocks, collective and sealing have all ended completes, performs its signals and writes its record. -/
  | packetComplete (q : QueueId)
  /-- BLOCK_PLACE (R70): A cluster dispatcher places the next block of a packet on a logical engine that has become free. -/
  | blockPlace (e : EngineId)
  /-- TILE_CHECK (R64): A tile finishes its drain and is checked; it is released, recomputed, or its block re-executed. -/
  | tileCheck (e : EngineId) (hw : TileHw)
  /-- APPEND_UNIT (R125): An append unit of an ATTEND obtains its page, rotates and converts K and V, and writes the tokens. -/
  | appendUnit (q : QueueId)
  /-- DROVER_LAUNCH_START (R172): Once all its groups are free, a launch loads its code and arguments and starts every drover. -/
  | droverLaunchStart (q : QueueId)
  /-- DROVER_LAUNCH_COMPLETE (R173): A launch completes when every drover halted, its macros are done and its stores are performed. -/
  | droverLaunchComplete (q : QueueId)
  /-- LAUNCH_SLOT_TAKE (R170): The sequencer takes a queued launch slot at a block end or when idle and runs the launched macro. -/
  | launchSlotTake (e : EngineId)
  /-- ADD (R156): Drover ADD. -/
  | addR (d : DroverId) (a : RArgs)
  /-- SUB (R156): Drover SUB. -/
  | subR (d : DroverId) (a : RArgs)
  /-- AND (R156): Drover AND. -/
  | andR (d : DroverId) (a : RArgs)
  /-- OR (R156): Drover OR. -/
  | orR (d : DroverId) (a : RArgs)
  /-- XOR (R156): Drover XOR. -/
  | xorR (d : DroverId) (a : RArgs)
  /-- SLL (R156): Drover shift left logical. -/
  | sll (d : DroverId) (a : RArgs)
  /-- SRL (R156): Drover shift right logical. -/
  | srl (d : DroverId) (a : RArgs)
  /-- SRA (R156): Drover shift right arithmetic. -/
  | sra (d : DroverId) (a : RArgs)
  /-- SLT (R156): Drover signed set-less-than. -/
  | slt (d : DroverId) (a : RArgs)
  /-- SLTU (R156): Drover unsigned set-less-than. -/
  | sltu (d : DroverId) (a : RArgs)
  /-- MIN (R156): Drover signed minimum. -/
  | minR (d : DroverId) (a : RArgs)
  /-- MAX (R156): Drover signed maximum. -/
  | maxR (d : DroverId) (a : RArgs)
  /-- MINU (R156): Drover unsigned minimum. -/
  | minu (d : DroverId) (a : RArgs)
  /-- MAXU (R156): Drover unsigned maximum. -/
  | maxu (d : DroverId) (a : RArgs)
  /-- MUL (R156): Drover multiply, low 32 bits. -/
  | mulR (d : DroverId) (a : RArgs)
  /-- MULH (R156): Drover multiply, high 32 bits signed. -/
  | mulh (d : DroverId) (a : RArgs)
  /-- MULHU (R156): Drover multiply, high 32 bits unsigned. -/
  | mulhu (d : DroverId) (a : RArgs)
  /-- DIV (R157): Drover signed division that never traps. -/
  | divR (d : DroverId) (a : RArgs)
  /-- DIVU (R157): Drover unsigned division. -/
  | divu (d : DroverId) (a : RArgs)
  /-- REM (R157): Drover signed remainder. -/
  | remR (d : DroverId) (a : RArgs)
  /-- REMU (R157): Drover unsigned remainder. -/
  | remu (d : DroverId) (a : RArgs)
  /-- CLZ (R156): Drover count leading zeros. -/
  | clz (d : DroverId) (a : RArgs)
  /-- POPC (R156): Drover count of ones. -/
  | popc (d : DroverId) (a : RArgs)
  /-- ADDI (R156): Drover add immediate. -/
  | addi (d : DroverId) (a : IArgs)
  /-- SLTI (R156): Drover set-less-than immediate. -/
  | slti (d : DroverId) (a : IArgs)
  /-- ANDI (R156): Drover AND with zero-extended immediate. -/
  | andi (d : DroverId) (a : IArgs)
  /-- ORI (R156): Drover OR with zero-extended immediate. -/
  | ori (d : DroverId) (a : IArgs)
  /-- XORI (R156): Drover XOR with zero-extended immediate. -/
  | xori (d : DroverId) (a : IArgs)
  /-- SLLI (R156): Drover shift left by immediate. -/
  | slli (d : DroverId) (a : ShArgs)
  /-- SRLI (R156): Drover logical shift right by immediate. -/
  | srli (d : DroverId) (a : ShArgs)
  /-- SRAI (R156): Drover arithmetic shift right by immediate. -/
  | srai (d : DroverId) (a : ShArgs)
  /-- LUI (R156): Drover load upper immediate. -/
  | lui (d : DroverId) (a : IArgs)
  /-- FADD (R156): Drover FP32 add. -/
  | fadd (d : DroverId) (a : RArgs)
  /-- FSUB (R156): Drover FP32 subtract. -/
  | fsub (d : DroverId) (a : RArgs)
  /-- FMUL (R156): Drover FP32 multiply. -/
  | fmul (d : DroverId) (a : RArgs)
  /-- FMA (R156): Drover FP32 fused multiply-add. -/
  | fma (d : DroverId) (a : RArgs)
  /-- FDIV (R156): Drover correctly rounded FP32 divide. -/
  | fdiv (d : DroverId) (a : RArgs)
  /-- FSQRT (R156): Drover correctly rounded FP32 square root. -/
  | fsqrt (d : DroverId) (a : RArgs)
  /-- FMIN (R156): Drover IEEE minimumNumber. -/
  | fmin (d : DroverId) (a : RArgs)
  /-- FMAX (R156): Drover IEEE maximumNumber. -/
  | fmax (d : DroverId) (a : RArgs)
  /-- FEQ (R156): Drover FP32 equality compare. -/
  | feq (d : DroverId) (a : RArgs)
  /-- FLT (R156): Drover FP32 less-than compare. -/
  | flt (d : DroverId) (a : RArgs)
  /-- FLE (R156): Drover FP32 less-or-equal compare. -/
  | fle (d : DroverId) (a : RArgs)
  /-- FCVTWS (R156): Drover FP32 to INT32 conversion. -/
  | fcvtws (d : DroverId) (a : RArgs)
  /-- FCVTSW (R156): Drover INT32 to FP32 conversion. -/
  | fcvtsw (d : DroverId) (a : RArgs)
  /-- LW (R156): Drover load word. -/
  | lw (d : DroverId) (a : IArgs)
  /-- LH (R156): Drover load halfword signed. -/
  | lh (d : DroverId) (a : IArgs)
  /-- LHU (R156): Drover load halfword unsigned. -/
  | lhu (d : DroverId) (a : IArgs)
  /-- LB (R156): Drover load byte signed. -/
  | lb (d : DroverId) (a : IArgs)
  /-- LBU (R156): Drover load byte unsigned. -/
  | lbu (d : DroverId) (a : IArgs)
  /-- SW (R156): Drover store word. -/
  | sw (d : DroverId) (a : IArgs)
  /-- SH (R156): Drover store halfword. -/
  | sh (d : DroverId) (a : IArgs)
  /-- SB (R156): Drover store byte. -/
  | sb (d : DroverId) (a : IArgs)
  /-- BEQ (R156): Drover branch if equal. -/
  | beq (d : DroverId) (a : BArgs)
  /-- BNE (R156): Drover branch if not equal. -/
  | bne (d : DroverId) (a : BArgs)
  /-- BLT (R156): Drover branch if less, signed. -/
  | blt (d : DroverId) (a : BArgs)
  /-- BGE (R156): Drover branch if greater or equal, signed. -/
  | bge (d : DroverId) (a : BArgs)
  /-- BLTU (R156): Drover branch if less, unsigned. -/
  | bltu (d : DroverId) (a : BArgs)
  /-- BGEU (R156): Drover branch if greater or equal, unsigned. -/
  | bgeu (d : DroverId) (a : BArgs)
  /-- JAL (R156): Drover jump and link into x31. -/
  | jal (d : DroverId) (off : BitVec 26)
  /-- JALR (R156): Drover jump to register and link. -/
  | jalr (d : DroverId) (a : RArgs)
  /-- CSRR (R164): Drover read of a control register. -/
  | csrr (d : DroverId) (a : RArgs)
  /-- CSRW (R164): Drover write of FFLAGS. -/
  | csrw (d : DroverId) (a : RArgs)
  /-- TSIG (R167): Drover releases at a scope and signals a tally. -/
  | tsig (d : DroverId) (a : SArgs)
  /-- TWAIT (R167): Drover waits until a tally reaches a threshold. -/
  | twait (d : DroverId) (a : SArgs)
  /-- TBAR (R167): Drover arrives at a barrier tally and waits for its release. -/
  | tbar (d : DroverId) (a : SArgs)
  /-- TREAD (R156): Drover reads a tally value. -/
  | tread (d : DroverId) (a : SArgs)
  /-- DROVER_FENCE (R168): Drover FENCE orders its earlier accesses before later ones at a scope. -/
  | droverFence (d : DroverId) (a : SArgs)
  /-- MLAUNCH (R169): Drover copies a packet image into a launch slot of its engine, waiting if all four are busy. -/
  | mlaunch (d : DroverId) (a : RArgs)
  /-- MPOLL (R169): Drover reads a launch slot's state, freeing it on state 3. -/
  | mpoll (d : DroverId) (a : RArgs)
  /-- BRK (R156): Drover breakpoint fault that freezes its group. -/
  | brk (d : DroverId) (a : RArgs)
  /-- HALT (R156): Drover ends its part of the launch. -/
  | halt (d : DroverId) (a : RArgs)
  /-- VADD_FP (R158): Drover lane-wise floating-point add. -/
  | vaddFp (d : DroverId) (a : VArgs)
  /-- VSUB_FP (R158): Drover lane-wise floating-point subtract. -/
  | vsubFp (d : DroverId) (a : VArgs)
  /-- VMUL_FP (R158): Drover lane-wise floating-point multiply. -/
  | vmulFp (d : DroverId) (a : VArgs)
  /-- VFMA (R158): Drover lane-wise fused multiply-add. -/
  | vfma (d : DroverId) (a : VArgs)
  /-- VMIN_FP (R156): Drover lane-wise floating-point minimum. -/
  | vminFp (d : DroverId) (a : VArgs)
  /-- VMAX_FP (R156): Drover lane-wise floating-point maximum. -/
  | vmaxFp (d : DroverId) (a : VArgs)
  /-- VABS (R156): Drover lane-wise absolute value. -/
  | vabs (d : DroverId) (a : VArgs)
  /-- VNEG (R156): Drover lane-wise negation. -/
  | vneg (d : DroverId) (a : VArgs)
  /-- VCMPEQ_FP (R156): Drover floating-point equality mask. -/
  | vcmpeqFp (d : DroverId) (a : VArgs)
  /-- VCMPLT_FP (R156): Drover floating-point less-than mask. -/
  | vcmpltFp (d : DroverId) (a : VArgs)
  /-- VCMPLE (R156): Drover floating-point less-or-equal mask. -/
  | vcmple (d : DroverId) (a : VArgs)
  /-- VEXP2 (R160): Drover correctly rounded exp2 per lane. -/
  | vexp2 (d : DroverId) (a : VArgs)
  /-- VLOG2 (R160): Drover correctly rounded log2 per lane. -/
  | vlog2 (d : DroverId) (a : VArgs)
  /-- VRCP (R160): Drover correctly rounded reciprocal per lane. -/
  | vrcp (d : DroverId) (a : VArgs)
  /-- VRSQRT (R160): Drover correctly rounded reciprocal square root per lane. -/
  | vrsqrt (d : DroverId) (a : VArgs)
  /-- VADD_INT (R156): Drover lane-wise integer add. -/
  | vaddInt (d : DroverId) (a : VArgs)
  /-- VSUB_INT (R156): Drover lane-wise integer subtract. -/
  | vsubInt (d : DroverId) (a : VArgs)
  /-- VMUL_INT (R156): Drover lane-wise integer multiply. -/
  | vmulInt (d : DroverId) (a : VArgs)
  /-- VADDSAT (R156): Drover lane-wise saturating integer add. -/
  | vaddsat (d : DroverId) (a : VArgs)
  /-- VMIN_INT (R156): Drover lane-wise signed minimum. -/
  | vminInt (d : DroverId) (a : VArgs)
  /-- VMAX_INT (R156): Drover lane-wise signed maximum. -/
  | vmaxInt (d : DroverId) (a : VArgs)
  /-- VCMPEQ_INT (R156): Drover integer equality mask. -/
  | vcmpeqInt (d : DroverId) (a : VArgs)
  /-- VCMPLT_INT (R156): Drover signed less-than mask. -/
  | vcmpltInt (d : DroverId) (a : VArgs)
  /-- VAND (R156): Drover bitwise AND of vectors. -/
  | vand (d : DroverId) (a : VArgs)
  /-- VOR (R156): Drover bitwise OR of vectors. -/
  | vor (d : DroverId) (a : VArgs)
  /-- VXOR (R156): Drover bitwise XOR of vectors. -/
  | vxor (d : DroverId) (a : VArgs)
  /-- VSEL (R156): Drover bitwise select by mask. -/
  | vsel (d : DroverId) (a : VArgs)
  /-- VSLL (R156): Drover lane-wise shift left. -/
  | vsll (d : DroverId) (a : VArgs)
  /-- VSRL (R156): Drover lane-wise logical shift right. -/
  | vsrl (d : DroverId) (a : VArgs)
  /-- VSRA (R156): Drover lane-wise arithmetic shift right. -/
  | vsra (d : DroverId) (a : VArgs)
  /-- VSPLAT (R156): Drover broadcasts a scalar into every lane. -/
  | vsplat (d : DroverId) (a : XArgs)
  /-- VINS (R156): Drover inserts a scalar into one lane. -/
  | vins (d : DroverId) (a : XArgs)
  /-- VEXT (R156): Drover extracts one lane into a scalar. -/
  | vext (d : DroverId) (a : XArgs)
  /-- VMOV (R156): Drover copies a vector register. -/
  | vmov (d : DroverId) (a : XArgs)
  /-- VRSUM (R161): Drover pairwise-tree sum reduction. -/
  | vrsum (d : DroverId) (a : VArgs)
  /-- VRMAX (R161): Drover maximum reduction. -/
  | vrmax (d : DroverId) (a : VArgs)
  /-- VRMIN (R161): Drover minimum reduction. -/
  | vrmin (d : DroverId) (a : VArgs)
  /-- VRMAXI (R161): Drover maximum with lowest attaining lane index. -/
  | vrmaxi (d : DroverId) (a : VArgs)
  /-- VRADD (R156): Drover INT32 sum of lanes. -/
  | vradd (d : DroverId) (a : VArgs)
  /-- VPERM (R156): Drover lane permutation. -/
  | vperm (d : DroverId) (a : VArgs)
  /-- VROT (R156): Drover lane rotation. -/
  | vrot (d : DroverId) (a : VArgs)
  /-- VSORT (R162): Drover stable descending sort of eight keys with payloads. -/
  | vsort (d : DroverId) (a : VArgs)
  /-- VCVT (R163): Drover format conversion of one part. -/
  | vcvt (d : DroverId) (a : CArgs)
  /-- VPACK (R165): Drover quantises 32 FP32 elements into a packed kind with scales. -/
  | vpack (d : DroverId) (a : PArgs)
  /-- VUNPK (R166): Drover decodes a packed kind into 32 FP32 values. -/
  | vunpk (d : DroverId) (a : PArgs)
  /-- VLD (R156): Drover 32-byte vector load. -/
  | vld (d : DroverId) (a : MArgs)
  /-- VST (R156): Drover 32-byte vector store. -/
  | vst (d : DroverId) (a : MArgs)
  /-- VGATH (R156): Drover indexed gather. -/
  | vgath (d : DroverId) (a : MArgs)
  /-- VSCAT (R156): Drover indexed scatter. -/
  | vscat (d : DroverId) (a : MArgs)
  /-- TALLY_OPERATION_ARRIVAL (R247): An operation arrives at a tally's home and is applied with its checks, releasing waiters whose condition now holds. -/
  | tallyOperationArrival (n : Nat)
  /-- COMBINE_FLUSH (R255): A tree node forwards ADDs it has held for combining when its hold time ends. -/
  | combineFlush (c : ClusterId)
  /-- WAITER_WAKE (R257): A release reaches a waiter on its wake wire and the waiter resumes with its acquire. -/
  | waiterWake (n : Nat) (cycles : Nat)
  /-- WAITER_SLEEP (R257): A waiter clock-gates after 64 cycles of waiting. -/
  | waiterSleep (n : Nat)
  /-- TALLY_CREATE (R242): TLY_CMD create maps a virtual identifier to a free physical tally. -/
  | tallyCreate (r : Requester) (p : PartId) (ctx : BitVec 8) (vid : BitVec 16)
  /-- TALLY_DESTROY (R242): TLY_CMD destroy removes a tally's mapping once no operation is in flight. -/
  | tallyDestroy (r : Requester) (p : PartId) (ctx : BitVec 8) (vid : BitVec 16)
  /-- TALLY_SET_VALUE (R242): TLY_CMD set value replaces a tally's value. -/
  | tallySetValue (r : Requester) (p : PartId) (ctx : BitVec 8) (vid : BitVec 16)
  /-- TALLY_CLEAR_FLAGS (R242): TLY_CMD clear flags clears a tally's sticky flags. -/
  | tallyClearFlags (r : Requester) (p : PartId) (ctx : BitVec 8) (vid : BitVec 16)
  /-- HOST_TALLY_SIGNAL (R251): A host write to HQ_TALLY_SIGNAL performs an ADD at HOST scope. -/
  | hostTallySignal (r : Requester) (q : QueueId) (vid amount : BitVec 16)
  /-- TRANSFER_DELIVERY (R231): A transfer channel delivers the unit at its cursor and advances the cursor, slot mark and slot state. -/
  | transferDelivery (x : XferId) (atsHit : Bool)
  /-- CHANNEL_SLOT_START (R229): A channel waiting on free_tally starts the next ring slot once the consumer has released enough slots. -/
  | channelSlotStart (x : XferId)
  /-- TRANSFER_COMPLETE (R222): A TRANSFER completes when every destination byte is performed and acknowledged. -/
  | transferComplete (q : QueueId)
  /-- RING_CONFIG_APPLY (R225): Once the ring is idle, RING_CONFIG applies the new configuration on an engine. -/
  | ringConfigApply (q : QueueId) (e : EngineId)
  /-- PAGE_REQUEST_RESPONSE (R232): A PRI response arrives; on success the channel translates again and resumes from its cursor. -/
  | pageRequestResponse (x : XferId) (code : BitVec 4)
  /-- PAGE_REQUEST_TIMEOUT (R234): A page request has had no response for 2^20 stages. -/
  | pageRequestTimeout (x : XferId)
  /-- REFETCH_DONE (R201): A refetched burst from the origin replaces the local copy and serves the waiting consumer. -/
  | refetchDone (n : Nat) (ok : Bool) (data : List Byte)
  /-- CONVOY_OPENING (R273): An opening message arrives and its fields are compared with the local operation. -/
  | convoyOpening (src : Fid) (m : ConvoyCtl) (data : List Byte)
  /-- CONVOY_ABORT (R274): An abort message arrives and the operation is abandoned. -/
  | convoyAbort (src : Fid) (m : ConvoyCtl)
  /-- CONVOY_CHUNK (R293): A chunk arrives, is written and checked, and acknowledged or re-requested. -/
  | convoyChunk (src : Fid) (c : ChunkHead) (data : List Byte) (wordOk : Bool)
  /-- CONVOY_ACKNOWLEDGEMENT (R285): An acknowledgement of a chunk arrives and the sender drops its retained copy. -/
  | convoyAcknowledgement (src : Fid) (m : ConvoyCtl)
  /-- CONVOY_RE_REQUEST (R292): A re-request arrives and the chunk is re-delivered from retention. -/
  | convoyReRequest (src : Fid) (m : ConvoyCtl)
  /-- CHUNK_TAKE (R284): A source chunk of a fused collective is taken once every block writing it has passed its checks. -/
  | chunkTake (ch : ChanId)
  /-- CHUNK_REDUCE (R283): A reducing point evaluates the tree for a chunk once all its contributions have arrived. -/
  | chunkReduce (ch : ChanId) (k : Nat) (fails : List Nat)
  /-- CHUNK_DONE_SIGNAL (R285): A written result chunk signals done_tally once every earlier chunk has signalled. -/
  | chunkDoneSignal (ch : ChanId)
  /-- COLLECTIVE_TIMEOUT (R296): A channel watchdog reaches its limit; the channel is frozen and the tallies dumped. -/
  | collectiveTimeout (ch : ChanId)
  /-- SWITCH_BARRIER_RELEASE (R250): The switch's release of a FABRIC-scope barrier phase arrives and local waiters are released. -/
  | switchBarrierRelease (g : GroupId) (vid : BitVec 16)
  /-- STREAM_TAKE_PAGE (R323): A stream takes a selected page that has become eligible and ships it. -/
  | streamTakePage (st : StreamId)
  /-- CARAVAN_ACK (R330): An ACK of a page arrives and ends its shipment. -/
  | caravanAck (src : Fid) (m : CaravanReply)
  /-- CARAVAN_NACK (R330): A NACK arrives and the page is resent, deferred, ended or the stream frozen by reason. -/
  | caravanNack (src : Fid) (m : CaravanReply)
  /-- MANIFEST_ACK (R325): A MANIFEST_ACK arrives; status 0 idles the stream, status 1 reships listed pages. -/
  | manifestAck (src : Fid) (m : CaravanReply)
  /-- SEND_MANIFEST (R325): A closing stream sends its sequence manifest once all its pages' shipments have ended. -/
  | sendManifest (st : StreamId)
  /-- RETRANSMIT_TIMEOUT (R330): A page's retransmit timer expires and the page is resent with a raised attempt. -/
  | retransmitTimeout (st : StreamId) (w : BitVec 24)
  /-- RETRY_AFTER_EXPIRY (R330): The retry_after delay of a busy NACK ends and the page is sent again. -/
  | retryAfterExpiry (st : StreamId) (w : BitVec 24)
  /-- DOCK_ACK (R335): CAR_DOCK_ACK kind 1 acknowledges a dock slot. -/
  | dockAck (r : Requester) (st : StreamId) (slot : BitVec 16)
  /-- DOCK_NACK_BUSY (R335): CAR_DOCK_ACK kind 2 answers a dock slot with NACK reason 2. -/
  | dockNackBusy (r : Requester) (st : StreamId) (slot : BitVec 16) (retryAfter : BitVec 14)
  /-- DOCK_NACK_REFUSED (R335): CAR_DOCK_ACK kind 3 answers a dock slot with NACK reason 3. -/
  | dockNackRefused (r : Requester) (st : StreamId) (slot : BitVec 16)
  /-- FRAME_GRANT (R316): A frame that has become free is given to the oldest stalled requester. -/
  | frameGrant (p : PartId)
  /-- SWAP_OUT_DONE (R318): A swap-out write completes; the page becomes SWAPPED and its frame is freed. -/
  | swapOutDone (w : BitVec 24)
  /-- SWAP_IN (R320): A reader needing a SWAPPED page starts a swap-in. -/
  | swapIn (q : QueueId) (w : BitVec 24)
  /-- SWAP_IN_DONE (R320): A swap-in read completes, its CRC is checked and the page's state restored. -/
  | swapInDone (w : BitVec 24)
  /-- BAR2_READ (R194): A host or peer reads through BAR2 into partition HBM. -/
  | bar2Read (f : FnId) (rid : BitVec 16) (off : BitVec 40) (len : Nat)
  /-- BAR2_WRITE (R194): A host or peer writes through BAR2 into partition HBM. -/
  | bar2Write (f : FnId) (rid : BitVec 16) (off : BitVec 40) (data : List Byte)
  /-- UNSUPPORTED_REQUEST (R373): An inbound request of an unsupported kind is answered with Unsupported Request. -/
  | unsupportedRequest (f : FnId) (rid : BitVec 16)
  /-- PCIE_CONFIG_REQUEST (R446): A configuration request arrives and is served, or answered with retry status before Ready. -/
  | pcieConfigRequest (f : FnId) (off : BitVec 12)
  /-- ATS_INVALIDATE (R189): An ATS invalidation from the host removes cached host translations. -/
  | atsInvalidate (p : HostPort) (pasid : Option (BitVec 20)) (addr : BitVec 54) (bytes : Nat)
  /-- XLT_INVAL_CONTEXT (R189): XLT_INVAL kind 0 starts a whole-context invalidation. -/
  | xltInvalContext (r : Requester) (ctx : CtxId)
  /-- XLT_INVAL_RANGE (R189): XLT_INVAL kind 1 starts an invalidation of a range of pages. -/
  | xltInvalRange (r : Requester) (ctx : CtxId) (vaHi : BitVec 8) (pages : BitVec 20)
  /-- INVALIDATION_DONE (R189): An invalidation completes once accesses that used removed entries are performed. -/
  | invalidationDone (ctx : CtxId)
  /-- SCRUB (R200): The scrubber reads and corrects the next words of its stack. -/
  | scrub (st : StackId)
  /-- ROLRE_MEMORY_WRITE (R193): An inbound memory write is served by an export window or the doorbell window, or refused. -/
  | rolreMemoryWrite (h : RolreHead) (data : List Byte) (sig : Option RemoteSignal)
  /-- ROLRE_READ_REQUEST (R193): An inbound read request is served or refused with a read response. -/
  | rolreReadRequest (h : RolreHead) (len : Nat)
  /-- ROLRE_READ_RESPONSE (R344): A read response arrives for an earlier fabric read, performed or refused. -/
  | rolreReadResponse (h : RolreHead) (data : List Byte)
  /-- ROLRE_WRITE_ACK (R344): A write acknowledgement arrives, performed or refused. -/
  | rolreWriteAck (h : RolreHead)
  /-- ROLRE_TALLY_OPERATION (R249): A remote tally operation arrives and is translated through its group and applied. -/
  | rolreTallyOperation (h : RolreHead) (sig : RemoteSignal) (sub : Bool)
  /-- LOCK_PROPOSAL (R413): A group frequency-lock proposal of another member arrives. -/
  | lockProposal (src : Fid) (g : GroupId) (boundary : Stage) (code : BitVec 7)
  /-- LOCK_ROUND_DEADLINE (R413): At N + 48 the lock round is decided and the agreed or fallback step scheduled. -/
  | lockRoundDeadline
  /-- EPOCH_SYMBOL (R354): An epoch symbol arrives and, if accepted, sets or converges the stage boundary. -/
  | epochSymbol (p : RolrePort) (n : Stage) (fecOk : Bool) (offsetNs : Int)
  /-- DELAY_REQUEST (R355): A delay request flit arrives and is answered with a delay response. -/
  | delayRequest (p : RolrePort) (txTime rxTime : BitVec 64)
  /-- DELAY_RESPONSE (R355): A delay response arrives and the one-way link delay is computed. -/
  | delayResponse (p : RolrePort) (txTime now : BitVec 64)
  /-- DELAY_MEASURE (R355): Every 2^16 stages the device sends a delay request on its epoch port. -/
  | delayMeasure (p : RolrePort) (now : BitVec 64)
  /-- RETRY_REQUEST (R342): A retry request arrives and the transmitter replays from the named flit. -/
  | retryRequest (p : RolrePort) (fseq : BitVec 12)
  /-- TRAINING_FLIT (R346): A training flit arrives and advances port training. -/
  | trainingFlit (p : RolrePort) (width : BitVec 4) (fid : Fid) (peer : BitVec 16)
  /-- RESERVED_FLIT (R341): A flit of reserved kind is discarded and counted. -/
  | reservedFlit (p : RolrePort) (kind : BitVec 4)
  /-- TRAINING_TIMEOUT (R346): A training state reaches its time limit and the port returns to Adapt or goes Down. -/
  | trainingTimeout (p : RolrePort)
  /-- PORT_DOWN_RETRY (R346): A Down port retries training after 2^20 stages. -/
  | portDownRetry (p : RolrePort)
  /-- LANE_NOT_GOOD (R347): A lane loses lock or exceeds its error ratio and stops being good. -/
  | laneNotGood (p : RolrePort) (l : Fin 8)
  /-- LANE_GOOD_AGAIN (R347): A lane's error ratio stays low for 2^14 stages and it becomes good again. -/
  | laneGoodAgain (p : RolrePort) (l : Fin 8)
  /-- EPOCH_HOLDOVER (R362): The epoch source has been silent for 64 stages and the device enters holdover. -/
  | epochHoldover
  /-- EPOCH_LOST (R363): After 2^20 stages of holdover the device runs free. -/
  | epochLost
  /-- EPOCH_PULSE (R357): A rising edge of EPOCH_PULSE marks a stage boundary or is ignored as off-time. -/
  | epochPulse (offsetNs : Int)
  /-- EPOCH_PULSE_MISSING (R357): An expected pulse time passes without a pulse and EPO_PULSE_NEXT advances. -/
  | epochPulseMissing
  /-- SNAPSHOT_LATCH (R366): At a scheduled snapshot stage every counter is copied into its shadow. -/
  | snapshotLatch
  /-- CONTROL_INTERVAL (R406): At each control boundary the controller closes the interval, computes u and proposes or schedules a step. -/
  | controlInterval (m : PowerReading)
  /-- CONTROL_FEED_TIMEOUT (R424): The weighhouse control feed has not arrived by N + 4. -/
  | controlFeedTimeout
  /-- STEP_CHANGE (R404): A scheduled voltage-frequency step change takes effect at its boundary. -/
  | stepChange
  /-- CURRENT_LIMITER_SAMPLE (R411): Each 128 ns the limiter reads die power and lowers or restores the die's clock. -/
  | currentLimiterSample (d : DieId) (watts : Nat)
  /-- SENSOR_READ (R410): Every 4 stages the sensors are read and throttle, critical or trip limits acted on. -/
  | sensorRead (t : SensorReading)
  /-- THERMAL_FLOOR_EXIT (R410): All sensors stay 5 degrees below critical for 256 stages and the floor state ends. -/
  | thermalFloorExit
  /-- SUPPLY_ALERT (R412): PSU_ALERT_N or an internal regulator alert puts both compute dies in the floor state. -/
  | supplyAlert (sources : BitVec 5)
  /-- SUPPLY_ALERT_CLEAR (R412): All alert sources stay clear for 256 stages and the step restarts from code 32. -/
  | supplyAlertClear
  /-- GUARD_BAND_REVIEW (R405): Every 2^26 stages the guard band of each die is trimmed by the path monitors. -/
  | guardBandReview (d : DieId) (slackMv : Nat)
  /-- HINT_PHASE_END (R409): A hinted phase ends by time limit. -/
  | hintPhaseEnd (ctx : CtxId) (phase : Byte)
  /-- WEIGHHOUSE_SAMPLE (R423): The weighhouse completes a conversion and adds its energy. -/
  | weighhouseSample (volts amps : BitVec 16)
  /-- WEIGHHOUSE_INTERVAL (R423): A weighhouse interval closes and its chained record is written. -/
  | weighhouseInterval
  /-- WEIGHHOUSE_CHECKPOINT (R427): At a multiple of 2^26 stages the weighhouse takes a periodic checkpoint. -/
  | weighhouseCheckpoint
  /-- CHECKPOINT_REQUEST (R428): A write to WGH_REQ requests a checkpoint. -/
  | checkpointRequest (r : Requester)
  /-- CHECKPOINT_SIGNED (R427): The signature of a checkpoint completes. -/
  | checkpointSigned
  /-- WEIGHHOUSE_RECALIBRATION (R429): An authorised recalibration over the weighhouse I3C blows a seal fuse and recalibrates. -/
  | weighhouseRecalibration (authorised : Bool) (measured : Bool)
  /-- SQ_DOORBELL (R378): A write to HQ_SQ_TAIL publishes packets and acquires the host's earlier writes. -/
  | sqDoorbell (r : Requester) (q : QueueId) (tail : BitVec 32)
  /-- CQ_HEAD_WRITE (R387): A write to HQ_CQ_HEAD frees completion entries so waiting records can be written. -/
  | cqHeadWrite (r : Requester) (q : QueueId) (head : BitVec 32)
  /-- QUEUE_ENABLE (R392): Setting enable starts a queue from slot 0 with reset indices. -/
  | queueEnable (r : Requester) (q : QueueId)
  /-- QUEUE_DISABLE (R392): Clearing enable stops a queue's fetching. -/
  | queueDisable (r : Requester) (q : QueueId)
  /-- QUEUE_RESUME (R395): Writing resume lets a stopped queue issue the packet after the failed one. -/
  | queueResume (r : Requester) (q : QueueId)
  /-- QUEUE_ADOPT (R402): Writing adopt from the standby function moves the queue to it and re-posts unconsumed records. -/
  | queueAdopt (r : Requester) (q : QueueId)
  /-- MSIX_COALESCE_TIMEOUT (R390): The coalescing time of a completion vector passes and the vector fires. -/
  | msixCoalesceTimeout (f : FnId) (vec : Fin 257)
  /-- CONTEXT_RESET (R399): A context reset discards in-flight state and re-runs accepted packets from the commit index. -/
  | contextReset (r : Requester) (ctx : CtxId)
  /-- CONTEXT_ABORT (R396): Aborting a context stops its units and completes its accepted packets as ABORTED. -/
  | contextAbort (r : Requester) (ctx : CtxId)
  /-- FUNCTION_LEVEL_RESET (R396): A Function Level Reset disables the function's queues and discards their packets. -/
  | functionLevelReset (f : FnId)
  /-- PERST (R493): PERSTn_N low holds port n down and resets its functions. -/
  | perst (p : HostPort) (low : Bool)
  /-- GROUP_LOAD (R268): CNV_GCMD load copies a group image into a group entry. -/
  | groupLoad (r : Requester) (p : PartId) (g : GroupId) (ctx : BitVec 8)
  /-- GROUP_INVALIDATE (R268): CNV_GCMD invalidate clears a group's valid bit. -/
  | groupInvalidate (r : Requester) (p : PartId) (g : GroupId) (ctx : BitVec 8)
  /-- GROUP_RESET_SEQUENCES (R268): CNV_GCMD reset sequences zeroes sequence numbers and clears broken. -/
  | groupResetSequences (r : Requester) (p : PartId) (g : GroupId) (ctx : BitVec 8)
  /-- GROUP_READ (R268): CNV_GCMD read writes a group entry and list to memory. -/
  | groupRead (r : Requester) (p : PartId) (g : GroupId) (ctx : BitVec 8)
  /-- IMAGE_VALIDATE (R437): CFG_CMD validate reads and checks an Ecloth image. -/
  | imageValidate (r : Requester) (image : List Byte) (signed : Bool)
  /-- IMAGE_APPLY (R439): CFG_CMD apply checks an image and starts quiescing the changed partitions. -/
  | imageApply (r : Requester) (image : List Byte) (signed enrol : Bool) (kst : BitVec 16)
  /-- APPLY_QUIESCE_DONE (R440): The changed partitions have quiesced; they are saved, checked, reconfigured, restored and resumed. -/
  | applyQuiesceDone
  /-- APPLY_QUIESCE_TIMEOUT (R440): Quiesce exceeds its limit and the apply is abandoned. -/
  | applyQuiesceTimeout
  /-- RECOVERY_GO (R448): Writing go in recovery reads, verifies and flashes a firmware image and continues boot. -/
  | recoveryGo (r : Requester) (fw : Firmware) (verified : Bool)
  /-- FIRMWARE_UPDATE (R451): A PLDM firmware update verifies, flashes and hands over the changed domains. -/
  | firmwareUpdate (fw : Firmware) (verified : Bool) (notReady : List Nat)
  /-- HANDOVER_TIMEOUT (R451): A domain's new code is not ready in time and the domain returns to its old code. -/
  | handoverTimeout (dom : Fin 37)
  /-- GET_VERSION (R454): SPDM GET_VERSION request. -/
  | getVersion (t : Transport)
  /-- GET_CAPABILITIES (R454): SPDM GET_CAPABILITIES request. -/
  | getCapabilities (t : Transport)
  /-- NEGOTIATE_ALGORITHMS (R454): SPDM NEGOTIATE_ALGORITHMS request. -/
  | negotiateAlgorithms (t : Transport)
  /-- GET_DIGESTS (R454): SPDM GET_DIGESTS request. -/
  | getDigests (t : Transport)
  /-- GET_CERTIFICATE (R454): SPDM GET_CERTIFICATE request. -/
  | getCertificate (t : Transport) (slot : BitVec 4) (off len : Nat)
  /-- CHALLENGE (R455): SPDM CHALLENGE request, queued for signature. -/
  | challenge (t : Transport) (slot : BitVec 4)
  /-- GET_MEASUREMENTS (R456): SPDM GET_MEASUREMENTS request. -/
  | getMeasurements (t : Transport) (index : Byte) (signed : Bool)
  /-- KEY_EXCHANGE (R454): SPDM KEY_EXCHANGE request. -/
  | keyExchange (t : Transport) (slot : BitVec 4)
  /-- FINISH (R454): SPDM FINISH request. -/
  | finish (t : Transport) (session : BitVec 32)
  /-- HEARTBEAT (R454): SPDM HEARTBEAT request. -/
  | heartbeat (t : Transport) (session : BitVec 32)
  /-- KEY_UPDATE (R454): SPDM KEY_UPDATE request. -/
  | keyUpdate (t : Transport) (session : BitVec 32) (op : Byte)
  /-- END_SESSION (R454): SPDM END_SESSION request. -/
  | endSession (t : Transport) (session : BitVec 32)
  /-- CHUNK_SEND (R454): SPDM CHUNK_SEND request. -/
  | chunkSend (t : Transport) (handle : Byte) (seqNo : BitVec 16) (last : Bool) (data : List Byte)
  /-- CHUNK_GET (R454): SPDM CHUNK_GET request. -/
  | chunkGet (t : Transport) (handle : Byte) (seqNo : BitVec 16)
  /-- RESPOND_IF_READY (R455): SPDM RESPOND_IF_READY collects a deferred response. -/
  | respondIfReady (t : Transport) (token : Byte)
  /-- SIGNATURE_DONE (R455): The security engine finishes a signature and starts the next queued one. -/
  | signatureDone
  /-- PLDM_PLATFORM_REQUEST (R457): A PLDM monitoring request is answered read-only, or refused if it would change configuration. -/
  | pldmPlatformRequest (t : Transport) (changes : Bool) (sensor : Nat)
  /-- SELF_TEST_DONE (R66): A quarantined engine's self-test ends; it returns to service or is retired. -/
  | selfTestDone (e : EngineId) (pass : Bool)
  /-- FENCE_CLOSE_TIMEOUT (R468): A leaving unit's fence reaches 4 us and its generation is closed. -/
  | fenceCloseTimeout (e : EngineId)
  /-- UNIT_REJOIN (R469): A returning unit is zeroed, loaded, re-locked and given its next generation. -/
  | unitRejoin (u : RejoinUnit)
  /-- SLOT_RETEST (R461): The dragoman retests a retired slot, which rejoins as spare if it passes. -/
  | slotRetest (c : ClusterId) (slot : Fin 17) (pass : Bool)
  /-- PARKED_SWAP (R463): At its block boundary a host swaps in a parked engine's image and runs its drover work. -/
  | parkedSwap (c : ClusterId)
  /-- RELEASE_RESUME (R474): DBG_RELEASE action resume releases a frozen master. -/
  | releaseResume (r : Requester) (kind : BitVec 4) (index : Word)
  /-- RELEASE_DISCARD (R474): DBG_RELEASE action discard ends a frozen drover group or caravan stream. -/
  | releaseDiscard (r : Requester) (kind : BitVec 4) (index : Word)
  /-- DISARM (R477): Writing disarm cancels the armed freeze. -/
  | disarm (r : Requester)
  /-- DEVICE_FREEZE (R476): An armed FREEZE_AT stage is reached and the device freezes. -/
  | deviceFreeze
  /-- HALT_ALL (R476): HALT_ALL_N held low freezes the device while halt_in_en is set. -/
  | haltAll
  /-- DEBUG_DUMP (R480): DBG_DUMP_CTRL start writes the scan-dump chains of a frozen device to host memory. -/
  | debugDump (r : Requester)
  /-- HY_FREEZE (R500): JTAG HY_FREEZE freezes the device with cause 4. -/
  | hyFreeze
  /-- HY_DUMP (R500): JTAG HY_DUMP shifts out the scan-dump records. -/
  | hyDump
  /-- HY_WARM (R500): JTAG HY_WARM starts a warm device reset. -/
  | hyWarm
  /-- IDCODE (R500): JTAG IDCODE returns the device identity. -/
  | idcode
  /-- BYPASS (R500): JTAG BYPASS. -/
  | bypass
  /-- SAMPLE_PRELOAD (R500): JTAG SAMPLE/PRELOAD of the boundary register. -/
  | samplePreload
  /-- EXTEST (R500): JTAG EXTEST, accepted only while frozen or in cold reset. -/
  | extest
  /-- TRST (R500): TRST_N low resets the test access port. -/
  | trst
  /-- POWER_ON (R491): VIN_36V rises; the domains power up in order and the device boots. -/
  | powerOn (flashExtLow : Bool) (b : BootFacts)
  /-- POWER_DOWN (R492): VIN_36V below 27 V for 10 us stops the clocks and removes the rails. -/
  | powerDown
  /-- WEIGHHOUSE_POWER_OFF (R492): VIN_36V falls below 12 V and the weighhouse stops. -/
  | weighhousePowerOff
  /-- COLD_RESET (R493): DEV_RESET_N low for 10 ms or more cold-resets every domain but the weighhouse. -/
  | coldReset (b : BootFacts)
  /-- WARM_DEVICE_RESET (R493): A short DEV_RESET_N pulse warm-resets the device and re-runs accepted work. -/
  | warmDeviceReset
  /-- GLB_RESET_PARTITION (R495): GLB_RESET kind 1 starts a partition reset. -/
  | glbResetPartition (r : Requester) (p : PartId)
  /-- GLB_RESET_WARM (R495): GLB_RESET kind 2 starts a warm device reset. -/
  | glbResetWarm (r : Requester)
  /-- FLASH_EXT_RELEASE (R499): FLASH_EXT_N rises and boot continues from step 2. -/
  | flashExtRelease (b : BootFacts)
  /-- REGISTER_WRITE (R505): A write to a register without its own row updates its fields or is discarded. -/
  | registerWrite (r : Requester) (off : RegOff) (size : Nat) (value : Word)
  /-- RC_READ (R12): A read of an RC field returns its value and clears it. -/
  | rcRead (r : Requester) (off : RegOff) (size : Nat)
  /-- HI_HALF_LATCH_READ (R370): A read of a LO register latches its HI half. -/
  | hiHalfLatchRead (r : Requester) (off : RegOff) (size : Nat)
  /-- TLY_VIEW_LATCH (R260): A read of TLY_VIEW_0 latches the selected tally's record. -/
  | tlyViewLatch (r : Requester)
  /-- WAY_VIEW_LATCH (R315): A read of WAY_VIEW_0 latches the selected waybill entry. -/
  | wayViewLatch (r : Requester)
  /-- DBG_FROZEN_LATCH (R482): A read of DBG_FROZEN_0 latches the selected frozen-master entry. -/
  | dbgFrozenLatch (r : Requester)
  /-- WGH_REC_LATCH (R428): A read of WGH_REC_0 latches the selected weighhouse record. -/
  | wghRecLatch (r : Requester)
  /-- PWR_TRIM_LATCH (R421): A read of PWR_TRIM_0 latches the selected trim-log entry. -/
  | pwrTrimLatch (r : Requester)
  /-- ARRAY_RAMP_DOWN (R53): After 256 warm cycles with no work the array ramps down, stopping one cube row every 4 cycles until idle. -/
  | arrayRampDown (e : EngineId)
  /-- RECEIVED_FLIT (R342): A flit of kind 1 to 3 arrives; its FEC, fseq and fack are processed and, if it cannot be accepted, a retry request is sent and later flits discarded. -/
  | receivedFlit (p : RolrePort) (f : FlitIn)
  /-- PARTNER_SIGNAL_DETECTED (R346): The partner's signal is detected on an enabled Rolre port and the port leaves Down for Adapt. -/
  | partnerSignalDetected (p : RolrePort)
  /-- LANE_LOCK (R346): Every lane of a port in Adapt has locked and equalised, and the port enters FEC lock. -/
  | laneLock (p : RolrePort) (lanes : BitVec 8)
  /-- CODEWORD_ALIGNMENT (R346): Codeword alignment is found on the lanes in use and the port leaves FEC lock for Exchange. -/
  | codewordAlignment (p : RolrePort)
  /-- ILLEGAL_INSTRUCTION (R155): A drover executes a word whose opcode, func, zero field or ty code is not in the table and faults with cause 1. -/
  | illegalInstruction (d : DroverId)
  /-- FETCH_OUTSIDE_IMAGE (R171): A drover fetches at or beyond code_bytes and faults with cause 4, freezing its group. -/
  | fetchOutsideImage (d : DroverId)
  /-- SELF_CHECK (R458): A self-check finds a dispatcher, transfer engine, serai memory, tally node or I/O-die unit beyond its internal spares, parking the cluster or failing the device. -/
  | selfCheck (u : CheckedUnit)
  /-- PSEUDO_CHANNEL_COPY_DONE (R465): The copy of a retired pseudo-channel's contents into its remap rows completes and the taken range leaves the allocatable space. -/
  | pseudoChannelCopyDone (st : StackId) (pc : Fin 64)
  /-- HALT_ALL_N_HIGH (R496): After its reset a module sees HALT_ALL_N high for 1 us and starts acting on the line again. -/
  | haltAllNHigh
  /-- MISSING_REFERENCE_CLOCK (R489): A ROL_REFCLK pair or PCIe reference clock is missing, leaving its ports in state 0 or without a link. -/
  | missingReferenceClock (c : RefClock)
  /-- DYNAMIC_ADDRESS_ASSIGNMENT (R497): An I3C controller assigns a dynamic address to the management or weighhouse target. -/
  | dynamicAddressAssignment (weigh : Bool) (addr : BitVec 7)
  deriving DecidableEq, Repr

end Sys2Proof
end

