-- ==== Sys2Proof/Machine/Bits.lean ====
section
/-! DEFINITION. The plainest data of the model: sparse tables in one canonical form (keys strictly rising, no entry equal to
the default), byte lists and their little-endian fields (R9), bit fields, and CRC-32C (R305). -/

namespace Sys2Proof.Machine

/-! ## Sparse tables -/

/-- A sparse table: keys strictly rising, no entry equal to the table's default. -/
abbrev Tab (α : Type) := List (Nat × α)

/-- The entry of key `k`, `d` where none is listed. -/
def tabGet {α : Type} (d : α) : Tab α → Nat → α
  | [], _ => d
  | (j, x) :: t, k => if k = j then x else if k < j then d else tabGet d t k

/-- Writes entry `k`; writing the default removes the entry. -/
def tabPut {α : Type} [DecidableEq α] (d : α) : Tab α → Nat → α → Tab α
  | [], k, v => if v = d then [] else [(k, v)]
  | (j, x) :: t, k, v =>
    if k = j then (if v = d then t else (k, v) :: t)
    else if k < j then (if v = d then (j, x) :: t else (k, v) :: (j, x) :: t)
    else (j, x) :: tabPut d t k v

/-- Every key of the table is above `b`, strictly rising, and no entry is the default. -/
def tabAbove {α : Type} [DecidableEq α] (d : α) : Option Nat → Tab α → Bool
  | _, [] => true
  | b, (k, v) :: t => (match b with | none => true | some j => decide (j < k)) && decide (v ≠ d) && tabAbove d (some k) t

/-- The canonical form of a table. -/
def tabWf {α : Type} [DecidableEq α] (d : α) (t : Tab α) : Bool := tabAbove d none t

/-- Every key is above `b`, strictly rising. -/
def keysAbove {α : Type} : Option Nat → Tab α → Bool
  | _, [] => true
  | b, (k, _) :: t => (match b with | none => true | some j => decide (j < k)) && keysAbove (some k) t

/-- The canonical form of a table whose unlisted entries are absent. -/
def tabRising {α : Type} (t : Tab α) : Bool := keysAbove none t

/-- Changes entry `k` by `f`. -/
def tabMod {α : Type} [DecidableEq α] (d : α) (t : Tab α) (k : Nat) (f : α → α) : Tab α := tabPut d t k (f (tabGet d t k))

/-- Resets every entry whose key satisfies `p` to the default. -/
def tabDrop {α : Type} (p : Nat → Bool) (t : Tab α) : Tab α := t.filter (fun kv => !p kv.1)

/-- Applies a function to every entry; entries that become the default are left out. -/
def tabMap {α : Type} [DecidableEq α] (d : α) (f : Nat → α → α) (t : Tab α) : Tab α :=
  (t.map (fun kv => (kv.1, f kv.1 kv.2))).filter (fun kv => decide (kv.2 ≠ d))

/-- The optional entry of a table without a default. -/
def tabFind {α : Type} (t : Tab α) (k : Nat) : Option α := (t.find? (fun kv => kv.1 = k)).map (·.2)

/-- Writes or removes the entry of a table whose unlisted entries are absent. -/
def tabSet {α : Type} : Tab α → Nat → Option α → Tab α
  | [], k, v => match v with | none => [] | some x => [(k, x)]
  | (j, x) :: t, k, v =>
    if k = j then (match v with | none => t | some y => (k, y) :: t)
    else if k < j then (match v with | none => (j, x) :: t | some y => (k, y) :: (j, x) :: t)
    else (j, x) :: tabSet t k v

/-! ## Lists -/

/-- Replaces element `i`, where there is one. -/
def listSet {α : Type} : List α → Nat → α → List α
  | [], _, _ => []
  | _ :: t, 0, v => v :: t
  | x :: t, i + 1, v => x :: listSet t i v

/-- Removes element `i`. -/
def listDel {α : Type} : List α → Nat → List α
  | [], _ => []
  | _ :: t, 0 => t
  | x :: t, i + 1 => x :: listDel t i

/-- The numbers a, a + 1, … (n of them). -/
def upFrom (a : Nat) : Nat → List Nat
  | 0 => []
  | n + 1 => a :: upFrom (a + 1) n

/-- The sum of a list. -/
def listSum (l : List Nat) : Nat := l.foldl (· + ·) 0

/-- Cuts a list into pieces of `n`. The fuel is the list itself. -/
def chunksOf {α : Type} (n : Nat) (l : List α) : List (List α) :=
  let rec go : Nat → List α → List (List α)
    | 0, _ => []
    | k + 1, xs => match xs with | [] => [] | _ => xs.take n :: go k (xs.drop n)
  go l.length l

/-- ⌈a / b⌉. -/
def ceilDiv (a b : Nat) : Nat := (a + b - 1) / b

/-- Rounds a byte count up to a multiple of 128 (R94). -/
def round128 (n : Nat) : Nat := ceilDiv n 128 * 128

/-! ## Bit fields -/

/-- Bits hi:lo of a number (R9). -/
def bitsOf (x hi lo : Nat) : Nat := (x / 2 ^ lo) % 2 ^ (hi + 1 - lo)

/-- Bit i of a number. -/
def bitOf (x i : Nat) : Bool := (x / 2 ^ i) % 2 = 1

/-- A Boolean as a bit. -/
def b2n (b : Bool) : Nat := if b then 1 else 0

/-- The two's-complement value of the low n bits. -/
def signedOf (n x : Nat) : Int := if x % 2 ^ n < 2 ^ (n - 1) then (x % 2 ^ n : Nat) else (x % 2 ^ n : Nat) - (2 ^ n : Nat)

/-- The low n bits of an integer. -/
def wrapInt (n : Nat) (x : Int) : Nat := (x % (2 ^ n : Nat)).toNat

/-- An integer clamped to a range. -/
def clampInt (lo hi x : Int) : Int := if x < lo then lo else if hi < x then hi else x

/-! ## Bytes -/

/-- The little-endian number of a byte list (R9). -/
def leNat : List Byte → Nat
  | [] => 0
  | b :: t => b.toNat + 256 * leNat t

/-- The n little-endian bytes of a number (R9). -/
def leBytes : Nat → Nat → List Byte
  | 0, _ => []
  | n + 1, x => BitVec.ofNat 8 x :: leBytes n (x / 256)

/-- Bytes a to a + n − 1 of a record, zero past its end. -/
def bytesAt (l : List Byte) (a n : Nat) : List Byte :=
  let p := (l.drop a).take n
  p ++ List.replicate (n - p.length) 0

/-- The little-endian field of n bytes at offset a. -/
def fieldAt (l : List Byte) (a n : Nat) : Nat := leNat ((l.drop a).take n)

/-- Replaces the bytes at offset a of a record, which keeps its length. -/
def putAt (l : List Byte) (a : Nat) (bs : List Byte) : List Byte :=
  (l.take a ++ bs ++ l.drop (a + bs.length)).take l.length

/-- n zero bytes. -/
def zeros (n : Nat) : List Byte := List.replicate n 0

/-- The 32-bit words of a byte list. -/
def words32 (l : List Byte) : List Word := (chunksOf 4 l).map (fun c => BitVec.ofNat 32 (leNat c))

/-- All bytes are zero. -/
def allZero (l : List Byte) : Bool := l.all (· = 0)

/-- One bit of the reflected CRC-32C. -/
def crcStep (c : Word) : Word := if c.getLsbD 0 then (c >>> 1) ^^^ 0x82F63B78#32 else c >>> 1

/-- One byte of the reflected CRC-32C. -/
def crcByte (c : Word) (b : Byte) : Word :=
  crcStep (crcStep (crcStep (crcStep (crcStep (crcStep (crcStep (crcStep (c ^^^ b.setWidth 32))))))))

/-- CRC-32C: polynomial 0x1EDC_6F41 reflected, initial value all ones, final complement (R305). -/
def crc32c (l : List Byte) : Word := ~~~(l.foldl crcByte 0xFFFFFFFF#32)

end Sys2Proof.Machine
end

