-- ==== Sys2Proof/Machine/Keccak.lean ====
section
/-! DEFINITION. SHAKE256 (FIPS 202), which the weighhouse's chain and checkpoints use (R426, R427). -/

namespace Sys2Proof.Machine

/-- Rotation offsets of the lanes x + 5y. -/
def keccakRot : List Nat := [0, 1, 62, 28, 27, 36, 44, 6, 55, 20, 3, 10, 43, 25, 39, 41, 45, 15, 21, 8, 18, 2, 61, 56, 14]

/-- Round constants. -/
def keccakRc : List (BitVec 64) :=
  [0x0000000000000001, 0x0000000000008082, 0x800000000000808A, 0x8000000080008000, 0x000000000000808B, 0x0000000080000001,
   0x8000000080008081, 0x8000000000008009, 0x000000000000008A, 0x0000000000000088, 0x0000000080008009, 0x000000008000000A,
   0x000000008000808B, 0x800000000000008B, 0x8000000000008089, 0x8000000000008003, 0x8000000000008002, 0x8000000000000080,
   0x000000000000800A, 0x800000008000000A, 0x8000000080008081, 0x8000000000008080, 0x0000000080000001, 0x8000000080008008]

/-- Lane i of a state. -/
def laneAt (a : List (BitVec 64)) (i : Nat) : BitVec 64 := (a[i]?).getD 0

/-- One round. -/
def keccakRound (a : List (BitVec 64)) (rc : BitVec 64) : List (BitVec 64) :=
  let col := (upFrom 0 5).map (fun x => laneAt a x ^^^ laneAt a (x + 5) ^^^ laneAt a (x + 10) ^^^ laneAt a (x + 15) ^^^ laneAt a (x + 20))
  let mix := (upFrom 0 5).map (fun x => laneAt col ((x + 4) % 5) ^^^ (laneAt col ((x + 1) % 5)).rotateLeft 1)
  let th := (upFrom 0 25).map (fun i => (laneAt a i ^^^ laneAt mix (i % 5)).rotateLeft ((keccakRot[i]?).getD 0))
  let moved := (upFrom 0 25).map (fun i =>
    let y := i % 5
    let z := i / 5
    let x := (z + 2 * 5 - 3 * y % 5) * 3 % 5
    laneAt th (x + 5 * y))
  let chi := (upFrom 0 25).map (fun i =>
    let y := i / 5 * 5
    laneAt moved i ^^^ (~~~(laneAt moved ((i + 1) % 5 + y)) &&& laneAt moved ((i + 2) % 5 + y)))
  match chi with
  | [] => []
  | h :: t => (h ^^^ rc) :: t

/-- The permutation. -/
def keccakF (a : List (BitVec 64)) : List (BitVec 64) := keccakRc.foldl keccakRound a

/-- A block of bytes as lanes, beginning at lane 0. -/
def blockLanes (l : List Byte) : List (BitVec 64) :=
  let w := (chunksOf 8 l).map (fun c => BitVec.ofNat 64 (leNat c))
  (upFrom 0 25).map (laneAt w)

/-- Absorbs one block. -/
def absorb (a : List (BitVec 64)) (b : List Byte) : List (BitVec 64) :=
  keccakF ((upFrom 0 25).map (fun i => laneAt a i ^^^ laneAt (blockLanes b) i))

/-- The first n bytes of SHAKE256 of a message, for n up to the 136 of one block. -/
def shakeBytes (n : Nat) (m : List Byte) : List Byte :=
  let p := m ++ [0x1F] ++ zeros (135 - m.length % 136)
  let q := p.take (p.length - 1) ++ [(p.getLast?.getD 0) ||| 0x80]
  let a := (chunksOf 136 q).foldl absorb ((upFrom 0 25).map (fun _ => 0))
  ((a.map (fun w => leBytes 8 w.toNat)).flatten).take n

/-- SHAKE256 with 32 bytes of output. -/
def shake256 (m : List Byte) : List Byte := shakeBytes 32 m

end Sys2Proof.Machine
end

