-- ==== Sys2Proof/Config.lean ====
section
/-! DEFINITION. What the spec leaves open: constants without a body, so that no proof can see their value. -/

namespace Sys2Proof

/-- Whether the underflow flag looks at a result before rounding (R153 says which flags there are, not this). -/
opaque Config.tinyBeforeRounding : Bool
/-- Whether FLT, FLE and their vector forms raise invalid on a quiet NaN (R156 says only that the result is 0). -/
opaque Config.orderedCompareSignals : Bool
/-- Whether a conversion to an integer that discards a fraction raises inexact (R156, R163). -/
opaque Config.intConversionInexact : Bool
/-- VRSQRT of −0, which R160 does not list. -/
opaque Config.rsqrtOfMinusZero : Word

/-- A byte of host memory or of another device that the block has not written itself: anything. -/
opaque Config.outsideByte : Nat → Byte
/-- A choice the spec leaves to the device (frame numbers, swap slots), by the number of free values drawn so far. -/
opaque Config.choice : Nat → Nat
/-- A word the spec leaves open, by the number of free values drawn so far. -/
opaque Config.freeWord : Nat → Word
/-- The pseudo-channel of a stack that holds a byte of it: the spec gives 64 of them and no mapping (R465). -/
opaque Config.pcOf : Nat → Nat
/-- Whether a table walk finds an entry it once read still in its cache, by the number of free values drawn so far (R189
says only that an entry removed by an invalidation is not used). -/
opaque Config.cacheHit : Nat → Bool
/-- Whether a tree node holds an ADD for combining (R255: it may), by the number of free values drawn so far. -/
opaque Config.combines : Nat → Bool
/-- Whether VPERM and VROT take the integer lane types of R154 (0 INT32, 1 INT8) or the floating-point ones (0, 1, 2): the
table gives their ty field no list of its own. -/
opaque Config.permIntTypes : Bool
/-- Whether the switch tier accepts an operation for reduction in the switches (R289), by group and sequence number. -/
opaque Config.switchAccepts : Nat → Nat → Bool
/-- The digest of the Hynulys image key in the boot ROM, 32 bytes (R431). -/
opaque Config.imageKeyDigest : List Byte
/-- Whether a physical cluster, 40 × die + number, of the smaller grade is enabled: fused (R3, R434). -/
opaque Config.clusterEnabled : Nat → Bool
/-- Whether the restore of a context fails, by the number of free values drawn so far (R442). -/
opaque Config.restoreFails : Nat → Bool
/-- The digest of a measurement block whose measured bytes the spec does not lay out (R456), by index and by what it depends
on. -/
opaque Config.measurement : Nat → List Byte → List Byte
/-- The certificate chain of slot 0 (R453), by the measurement of the firmware booted. -/
opaque Config.certChain : List Byte → List Byte
/-- Its SHA3-384 digest (R454). -/
opaque Config.chainDigest : List Byte → List Byte
/-- Byte i of the signature over an SPDM response (R454), by the number of free values drawn when it was made. -/
opaque Config.spdmSignature : List Byte → Nat → Nat → Byte
/-- The weighhouse's calibrated voltage of a converter code, in 2⁻²⁰ V, by calibration slot (R423, R429: held in OTP). -/
opaque Config.weighVolts : Nat → BitVec 16 → Nat
/-- Its calibrated current, in 2⁻²⁰ A. -/
opaque Config.weighAmps : Nat → BitVec 16 → Nat
/-- The weighhouse's public key, 64 bytes (R427: derived from its own PUF seed). -/
opaque Config.weighKey : Nat → Byte
/-- Byte i of the SLH-DSA signature of a checkpoint (R427), by the number of free values drawn when it was made. -/
opaque Config.weighSignature : List Byte → Nat → Nat → Byte
/-- The value, at a stage, of a counter of the catalogue (R483) that counts cycles or traffic the spec does not measure out, by
its key. -/
opaque Config.openCounter : Nat → Nat → Nat
/-- The Hynulys manufacturer identity of IDCODE (R500). -/
opaque Config.jtagManufacturer : BitVec 11

end Sys2Proof
end

