-- ==== Sys2Proof/Machine/Num.lean ====
section
/-! DEFINITION. Exact arithmetic and its rounding: the element formats (R18), their values, rounding to nearest-even
(R35, R40, R153), and the correctly rounded functions of R123, R133 and R160. Values are computed exactly on integers and
narrowed once, at the end. -/

namespace Sys2Proof.Machine

/-- A decoded floating-point value; a finite one is ± m × 2^e and keeps the sign of zero. -/
inductive FpVal where
  | nan (neg : Bool)
  | inf (neg : Bool)
  | fin (neg : Bool) (m : Nat) (e : Int)
  deriving DecidableEq, Repr

/-- A binary floating-point format. -/
structure FpFmt where
  /-- mantissa bits -/
  mb : Nat
  /-- exponent bits -/
  eb : Nat
  bias : Nat
  /-- 0: neither infinity nor NaN; 1: IEEE infinities and NaNs; 2: the all-ones code is NaN and there is no infinity -/
  special : Nat
  /-- the largest finite value is maxM × 2^maxE -/
  maxM : Nat
  maxE : Int
  deriving DecidableEq, Repr

/-- FP32. -/
def fp32 : FpFmt := ⟨23, 8, 127, 1, 2 ^ 24 - 1, 104⟩
/-- BF16. -/
def bf16 : FpFmt := ⟨7, 8, 127, 1, 2 ^ 8 - 1, 120⟩
/-- FP16. -/
def fp16 : FpFmt := ⟨10, 5, 15, 1, 2 ^ 11 - 1, 5⟩
/-- FP8 E4M3. -/
def e4m3 : FpFmt := ⟨3, 4, 7, 2, 14, 5⟩
/-- FP8 E5M2. -/
def e5m2 : FpFmt := ⟨2, 5, 15, 1, 7, 13⟩
/-- FP6 E2M3. -/
def e2m3 : FpFmt := ⟨3, 2, 1, 0, 15, -1⟩
/-- FP6 E3M2. -/
def e3m2 : FpFmt := ⟨2, 3, 3, 0, 7, 2⟩
/-- FP4 E2M1. -/
def e2m1 : FpFmt := ⟨1, 2, 1, 0, 3, 1⟩

/-- The canonical FP32-side NaN value (R153). -/
def qnan : FpVal := .nan false
/-- +0. -/
def fzero : FpVal := .fin false 0 0
/-- The value of an integer. -/
def ofInt (x : Int) : FpVal := .fin (decide (x < 0)) x.natAbs 0

/-- The exponent of the lowest bit of a subnormal. -/
def FpFmt.emin (f : FpFmt) : Int := 1 - (f.bias : Int) - f.mb

/-- The value a bit pattern of the format holds. -/
def decodeFp (f : FpFmt) (x : Nat) : FpVal :=
  let m := x % 2 ^ f.mb
  let e := (x / 2 ^ f.mb) % 2 ^ f.eb
  let s := bitOf x (f.mb + f.eb)
  if f.special = 1 ∧ e = 2 ^ f.eb - 1 then (if m = 0 then .inf s else .nan s)
  else if f.special = 2 ∧ e = 2 ^ f.eb - 1 ∧ m = 2 ^ f.mb - 1 then .nan s
  else if e = 0 then .fin s m f.emin
  else .fin s (2 ^ f.mb + m) (f.emin + e - 1)

/-- A bit pattern is a signalling NaN: the quiet bit of an IEEE NaN is clear. -/
def isSNaN (f : FpFmt) (x : Nat) : Bool :=
  f.special = 1 && (x / 2 ^ f.mb) % 2 ^ f.eb = 2 ^ f.eb - 1 && x % 2 ^ f.mb ≠ 0 && !bitOf x (f.mb - 1)

/-- m / 2^k rounded to nearest-even; `st` says that the exact value lies strictly above m. -/
def rneShift (m k : Nat) (st : Bool) : Nat × Bool :=
  match k with
  | 0 => (m, st)
  | k' + 1 =>
    let q := m / 2 ^ (k' + 1)
    let r := m % 2 ^ (k' + 1)
    let half := 2 ^ k'
    let up := r > half || (r = half && (st || q % 2 = 1))
    (if up then q + 1 else q, r ≠ 0 || st)

/-- m × 2^e ≤ m' × 2^e'. -/
def leDy (m : Nat) (e : Int) (m' : Nat) (e' : Int) : Bool :=
  if e ≤ e' then decide (m ≤ m' * 2 ^ (e' - e).toNat) else decide (m * 2 ^ (e - e').toNat ≤ m')

/-- What rounding did. -/
structure Rounded where
  m : Nat
  e : Int
  inexact : Bool
  /-- the result is tiny and inexact (the underflow flag) -/
  under : Bool
  /-- the rounded magnitude exceeds the largest finite value -/
  exceeded : Bool
  deriving DecidableEq, Repr

/-- The exponent of the lowest bit that the format keeps of a magnitude. -/
def lsbExp (f : FpFmt) (m : Nat) (e : Int) : Int :=
  let top := e + Nat.log2 m
  if top - f.mb < f.emin then f.emin else top - f.mb

/-- Rounds the magnitude m × 2^e, or a value just above it when `st` is set, to the format, nearest-even. Whether a value
that rounds up to the smallest normal counts as tiny is open in the spec: `Config.tinyBeforeRounding`. -/
def roundMag (f : FpFmt) (m : Nat) (e : Int) (st : Bool) : Rounded :=
  if m = 0 ∧ !st then ⟨0, f.emin, false, false, false⟩
  else
    let t := lsbExp f m e
    let m1 := if t < e then m * 2 ^ (e - t).toNat else m
    let r := rneShift m1 (t - e).toNat st
    let minN := 2 ^ f.mb
    let tinyBefore := t = f.emin && !leDy minN f.emin m e
    let tinyAfter := tinyBefore && r.1 < minN
    ⟨r.1, t, r.2, r.2 && (if Config.tinyBeforeRounding then tinyBefore else tinyAfter), !leDy r.1 t f.maxM f.maxE⟩

/-- The bits of a finite value the format represents exactly. -/
def encodeFin (f : FpFmt) (s : Bool) (m : Nat) (e : Int) : Nat :=
  let sb := if s then 2 ^ (f.mb + f.eb) else 0
  if m = 0 then sb
  else
    let t := lsbExp f m e
    let q := if t ≤ e then m * 2 ^ (e - t).toNat else m / 2 ^ (t - e).toNat
    if q < 2 ^ f.mb then sb + q else sb + ((t - f.emin + 1).toNat * 2 ^ f.mb + (q - 2 ^ f.mb))

/-- The exception flags of FFLAGS (R153): invalid, divide-by-zero, overflow, underflow, inexact. -/
structure FFlags where
  nv : Bool := false
  dz : Bool := false
  ov : Bool := false
  uf : Bool := false
  nx : Bool := false
  deriving DecidableEq, Repr

/-- No flag. -/
def noFlags : FFlags := {}
/-- The invalid flag. -/
def nvFlag : FFlags := { nv := true }
/-- Flags of either. -/
def FFlags.or (a b : FFlags) : FFlags := ⟨a.nv || b.nv, a.dz || b.dz, a.ov || b.ov, a.uf || b.uf, a.nx || b.nx⟩
/-- FFLAGS as bits 4 to 0 (R153). -/
def FFlags.bits (a : FFlags) : Nat := 16 * b2n a.nv + 8 * b2n a.dz + 4 * b2n a.ov + 2 * b2n a.uf + b2n a.nx

/-- The canonical NaN pattern of an IEEE format (R153). -/
def canonNaN (f : FpFmt) : Nat := (2 ^ f.eb - 1) * 2 ^ f.mb + 2 ^ (f.mb - 1)
/-- The infinity pattern of an IEEE format. -/
def infBits (f : FpFmt) (s : Bool) : Nat := (if s then 2 ^ (f.mb + f.eb) else 0) + (2 ^ f.eb - 1) * 2 ^ f.mb
/-- The largest finite magnitude, with a sign. -/
def maxBits (f : FpFmt) (s : Bool) : Nat := encodeFin f s f.maxM f.maxE

/-- Rounds an exact finite value (or one just above it in magnitude) to an IEEE format with overflow to infinity. -/
def roundIeee (f : FpFmt) (s : Bool) (m : Nat) (e : Int) (st : Bool) : Nat × FFlags :=
  let r := roundMag f m e st
  if r.exceeded then (infBits f s, { ov := true, nx := true })
  else (encodeFin f s r.m r.e, { uf := r.under, nx := r.inexact })

/-- A value narrowed to an IEEE format, NaN to its canonical NaN. -/
def toIeee (f : FpFmt) : FpVal → Nat × FFlags
  | .nan _ => (canonNaN f, noFlags)
  | .inf s => (infBits f s, noFlags)
  | .fin s m e => roundIeee f s m e false

/-- A value narrowed to a format whose finite overflow saturates. -/
def toSat (f : FpFmt) (s : Bool) (m : Nat) (e : Int) : Nat × FFlags :=
  let r := roundMag f m e false
  if r.exceeded then (maxBits f s, { ov := true, nx := true })
  else (encodeFin f s r.m r.e, { uf := r.under, nx := r.inexact })

/-- The value rounded to FP32, as a value. -/
def rnd32 (v : FpVal) : FpVal := decodeFp fp32 (toIeee fp32 v).1

/-! ## Exact sums and products -/

/-- The sign of a value. -/
def FpVal.sign : FpVal → Bool
  | .nan s => s
  | .inf s => s
  | .fin s _ _ => s

/-- Is a NaN. -/
def FpVal.isNaN : FpVal → Bool
  | .nan _ => true
  | _ => false

/-- Is neither an infinity nor a NaN. -/
def FpVal.isFin : FpVal → Bool
  | .fin _ _ _ => true
  | _ => false

/-- −x. -/
def FpVal.neg : FpVal → FpVal
  | .nan s => .nan (!s)
  | .inf s => .inf (!s)
  | .fin s m e => .fin (!s) m e

/-- |x|. -/
def FpVal.abs : FpVal → FpVal
  | .nan _ => .nan false
  | .inf _ => .inf false
  | .fin _ m e => .fin false m e

/-- The value is ±0. -/
def FpVal.isZero : FpVal → Bool
  | .fin _ 0 _ => true
  | _ => false

/-- The exact product (R36: infinity times zero is NaN). -/
def mulV : FpVal → FpVal → FpVal
  | .nan _, _ => qnan
  | _, .nan _ => qnan
  | .inf s, .inf t => .inf (s != t)
  | .inf s, .fin t m _ => if m = 0 then qnan else .inf (s != t)
  | .fin s m _, .inf t => if m = 0 then qnan else .inf (s != t)
  | .fin s m e, .fin t n f => .fin (s != t) (m * n) (e + f)

/-- The signed mantissa. -/
def sgn (s : Bool) (m : Nat) : Int := if s then -(m : Int) else m

/-- The exact sum (R36: opposite infinities give NaN); an exact zero sum of opposite signs is +0. -/
def addV : FpVal → FpVal → FpVal
  | .nan _, _ => qnan
  | _, .nan _ => qnan
  | .inf s, .inf t => if s = t then .inf s else qnan
  | .inf s, _ => .inf s
  | _, .inf t => .inf t
  | .fin s m e, .fin t n f =>
    let g := if e ≤ f then e else f
    let x := sgn s (m * 2 ^ (e - g).toNat) + sgn t (n * 2 ^ (f - g).toNat)
    .fin (if x = 0 then s && t else decide (x < 0)) x.natAbs g

/-- The exact sum of a list from a start value. -/
def sumV (a : FpVal) (l : List FpVal) : FpVal := l.foldl addV a

/-- a < b on numbers; false when either is a NaN. −0 equals +0. -/
def ltV : FpVal → FpVal → Bool
  | .nan _, _ => false
  | _, .nan _ => false
  | .inf s, .inf t => s && !t
  | .inf s, .fin _ _ _ => s
  | .fin _ _ _, .inf t => !t
  | .fin s m e, .fin t n f =>
    let g := if e ≤ f then e else f
    decide (sgn s (m * 2 ^ (e - g).toNat) < sgn t (n * 2 ^ (f - g).toNat))

/-- a = b on numbers; false when either is a NaN. -/
def eqV (a b : FpVal) : Bool := !a.isNaN && !b.isNaN && !ltV a b && !ltV b a

/-- The exact maximum with NaN kept (R55). -/
def maxV (a b : FpVal) : FpVal :=
  if a.isNaN || b.isNaN then qnan else if ltV a b then b else if ltV b a then a else if a.sign then b else a

/-- The exact minimum with NaN kept (R55). -/
def minV (a b : FpVal) : FpVal :=
  if a.isNaN || b.isNaN then qnan else if ltV a b then a else if ltV b a then b else if a.sign then a else b

/-! ## FP32 operations with flags -/

/-- The value of FP32 bits. -/
def v32 (x : Nat) : FpVal := decodeFp fp32 x

/-- Invalid: a signalling operand, or a NaN made from operands that are not NaNs. -/
def nvOf (f : FpFmt) (ops : List Nat) (r : FpVal) : Bool :=
  ops.any (isSNaN f) || (r.isNaN && ops.all (fun x => !(decodeFp f x).isNaN))

/-- An exact result narrowed once, with the invalid flag of its operands. -/
def finish (f : FpFmt) (ops : List Nat) (r : FpVal) : Nat × FFlags :=
  let q := toIeee f r
  (q.1, q.2.or { nv := nvOf f ops r })

/-- a + b in a format, rounded once. -/
def fpAdd (f : FpFmt) (a b : Nat) : Nat × FFlags := finish f [a, b] (addV (decodeFp f a) (decodeFp f b))
/-- a − b. -/
def fpSub (f : FpFmt) (a b : Nat) : Nat × FFlags := finish f [a, b] (addV (decodeFp f a) (decodeFp f b).neg)
/-- a × b. -/
def fpMul (f : FpFmt) (a b : Nat) : Nat × FFlags := finish f [a, b] (mulV (decodeFp f a) (decodeFp f b))
/-- a × b + c, rounded once. -/
def fpFma (f : FpFmt) (a b c : Nat) : Nat × FFlags :=
  finish f [a, b, c] (addV (mulV (decodeFp f a) (decodeFp f b)) (decodeFp f c))

/-- The quotient of magnitudes with at least 64 good bits, and whether it is exceeded by the exact value. -/
def divMag (m : Nat) (e : Int) (n : Nat) (f : Int) : Nat × Int × Bool :=
  let k := Nat.log2 n + 80
  ((m * 2 ^ k) / n, e - f - k, decide ((m * 2 ^ k) % n ≠ 0))

/-- The quotient of two values, rounded once to a format (R156 FDIV, R132, R136). -/
def divV (f : FpFmt) : FpVal → FpVal → Nat × FFlags
  | .nan _, _ => (canonNaN f, noFlags)
  | _, .nan _ => (canonNaN f, noFlags)
  | .inf _, .inf _ => (canonNaN f, nvFlag)
  | .inf s, .fin t _ _ => (infBits f (s != t), noFlags)
  | .fin s _ _, .inf t => (encodeFin f (s != t) 0 0, noFlags)
  | .fin s m e, .fin t n g =>
    if n = 0 then (if m = 0 then (canonNaN f, nvFlag) else (infBits f (s != t), { dz := true }))
    else if m = 0 then (encodeFin f (s != t) 0 0, noFlags)
    else let q := divMag m e n g; roundIeee f (s != t) q.1 q.2.1 q.2.2

/-- a / b, correctly rounded. -/
def fpDiv (f : FpFmt) (a b : Nat) : Nat × FFlags :=
  let r := divV f (decodeFp f a) (decodeFp f b)
  (r.1, r.2.or { nv := isSNaN f a || isSNaN f b })

/-- Square root of a magnitude: bits, exponent, and whether the exact root lies above. -/
def sqrtMag (m : Nat) (e : Int) : Nat × Int × Bool :=
  let k : Nat := 128 + (if (e - 128) % 2 = 0 then 0 else 1)
  let n := m * 2 ^ k
  let q := Nat.sqrt n
  (q, (e - k) / 2, decide (q * q ≠ n))

/-- Square root, correctly rounded; of a negative number it is invalid. -/
def sqrtV (f : FpFmt) : FpVal → Nat × FFlags
  | .nan _ => (canonNaN f, noFlags)
  | .inf s => if s then (canonNaN f, nvFlag) else (infBits f false, noFlags)
  | .fin s m e =>
    if m = 0 then (encodeFin f s 0 0, noFlags)
    else if s then (canonNaN f, nvFlag)
    else let q := sqrtMag m e; roundIeee f false q.1 q.2.1 q.2.2

/-- √a. -/
def fpSqrt (f : FpFmt) (a : Nat) : Nat × FFlags :=
  let r := sqrtV f (decodeFp f a)
  (r.1, r.2.or { nv := isSNaN f a })

/-- IEEE 754 minimumNumber (`mx` clear) or maximumNumber (`mx` set): a NaN gives way to a number (R156). -/
def fpMinMax (f : FpFmt) (mx : Bool) (a b : Nat) : Nat × FFlags :=
  let x := decodeFp f a
  let y := decodeFp f b
  let fl : FFlags := { nv := isSNaN f a || isSNaN f b }
  if x.isNaN && y.isNaN then (canonNaN f, fl)
  else if x.isNaN then (b, fl)
  else if y.isNaN then (a, fl)
  else if ltV x y then (if mx then b else a, fl)
  else if ltV y x then (if mx then a else b, fl)
  else if mx then (if x.sign then b else a, fl)
  else (if x.sign then a else b, fl)

/-- Equality of two patterns; a NaN operand gives false (R156). A signalling operand is invalid. -/
def fpEq (f : FpFmt) (a b : Nat) : Bool × FFlags :=
  (eqV (decodeFp f a) (decodeFp f b), { nv := isSNaN f a || isSNaN f b })

/-- Whether an ordered comparison with a quiet NaN signals invalid: open in the spec. -/
def cmpFlags (f : FpFmt) (a b : Nat) : FFlags :=
  { nv := isSNaN f a || isSNaN f b ||
      (Config.orderedCompareSignals && ((decodeFp f a).isNaN || (decodeFp f b).isNaN)) }

/-- a < b; a NaN operand gives false. -/
def fpLt (f : FpFmt) (a b : Nat) : Bool × FFlags := (ltV (decodeFp f a) (decodeFp f b), cmpFlags f a b)

/-- a ≤ b; a NaN operand gives false. -/
def fpLe (f : FpFmt) (a b : Nat) : Bool × FFlags :=
  (ltV (decodeFp f a) (decodeFp f b) || eqV (decodeFp f a) (decodeFp f b), cmpFlags f a b)

/-! ## Integers -/

/-- A finite value rounded half to even to an integer, and whether that was inexact. -/
def toIntRne (s : Bool) (m : Nat) (e : Int) : Int × Bool :=
  if 0 ≤ e then (sgn s (m * 2 ^ e.toNat), false)
  else let r := rneShift m (-e).toNat false; (sgn s r.1, r.2)

/-- A value converted to an integer of n bits: half to even, saturating, NaN to 0 (R40, R156, R163). Whether an in-range
inexact conversion raises the inexact flag is open in the spec: `Config.intConversionInexact`. -/
def toIntSat (n : Nat) : FpVal → Int × FFlags
  | .nan _ => (0, nvFlag)
  | .inf s => (if s then -(2 ^ (n - 1) : Nat) else (2 ^ (n - 1) : Nat) - 1, nvFlag)
  | .fin s m e =>
    let r := toIntRne s m e
    let lo : Int := -(2 ^ (n - 1) : Nat)
    let hi : Int := (2 ^ (n - 1) : Nat) - 1
    if r.1 < lo then (lo, nvFlag) else if hi < r.1 then (hi, nvFlag)
    else (r.1, { nx := r.2 && Config.intConversionInexact })

/-! ## Correctly rounded functions -/

/-- ⌊log2⌋ of a non-zero magnitude m × 2^e. -/
def ilog2 (m : Nat) (e : Int) : Int := e + Nat.log2 m

/-- π × 2^640, truncated. -/
def pi640 : Nat :=
  0x3243f6a8885a308d313198a2e03707344a4093822299f31d0082efa98ec4e6c89452821e638d01377be5466cf34e90c6cc0ac29b7c97c50dd3f84d5b5b54709179216d5d98979fb1bd1310ba698dfb5ac

/-- ln 2 × 2^640, truncated. -/
def ln2at640 : Nat :=
  0xb17217f7d1cf79abc9e3b39803f2f6af40f343267298b62d8a0d175b8baafa2be7b876206debac98559552fb4afa1b10ed2eae35c138214427573b291169b8253e96ca16224ae8c51acbda11317c387e

/-- Fraction bits of the fixed-point evaluations. -/
def fxBits : Nat := 384

/-- ln 2 in fixed point. -/
def ln2fx : Nat := ln2at640 / 2 ^ 256

/-- e^x in fixed point for 0 ≤ x < 1, by its Taylor series. -/
def expFx (x : Nat) : Nat :=
  let rec go : Nat → Nat → Nat → Nat → Nat
    | 0, _, _, acc => acc
    | k + 1, i, term, acc => let t := term * x / 2 ^ fxBits / i; go k (i + 1) t (acc + t)
  go 100 1 (2 ^ fxBits) (2 ^ fxBits)

/-- exp2 of a finite argument as (mantissa, exponent, exact value above): exact for an integer argument. -/
def exp2Mag (s : Bool) (m : Nat) (e : Int) : Nat × Int × Bool :=
  if 0 ≤ e then (1, sgn s (m * 2 ^ e.toNat), false)
  else
    let d : Nat := 2 ^ (-e).toNat
    let x := sgn s m
    let q := x / (d : Int)
    let r := (x % (d : Int)).toNat
    if r = 0 then (1, q, false)
    else (expFx (r * 2 ^ fxBits / d * ln2fx / 2 ^ fxBits), q - fxBits, true)

/-- exp2 of a value, rounded once to FP32 (R133). Arguments beyond ±2,000 are outside the range of every result. -/
def exp2V : FpVal → Nat × FFlags
  | .nan _ => (canonNaN fp32, noFlags)
  | .inf s => if s then (0, noFlags) else (infBits fp32 false, noFlags)
  | .fin s m e =>
    if m = 0 then (encodeFin fp32 false 1 0, noFlags)
    else if 11 ≤ ilog2 m e then
      (if s then (0, { uf := true, nx := true }) else (infBits fp32 false, { ov := true, nx := true }))
    else let q := exp2Mag s m e; roundIeee fp32 false q.1 q.2.1 q.2.2

/-- 2 × atanh(z) in fixed point for 0 ≤ z < 1/2. -/
def atanh2Fx (z : Nat) : Nat :=
  let z2 := z * z / 2 ^ fxBits
  let rec go : Nat → Nat → Nat → Nat → Nat
    | 0, _, _, acc => acc
    | k + 1, i, p, acc => go k (i + 2) (p * z2 / 2 ^ fxBits) (acc + p / i)
  2 * go 140 1 z 0

/-- log2 of a positive finite value, rounded once to FP32 (R133). -/
def log2Mag (m : Nat) (e : Int) : Nat × FFlags :=
  let k := Nat.log2 m
  let ip : Int := e + k
  if m = 2 ^ k then (if ip = 0 then (0, noFlags) else roundIeee fp32 (decide (ip < 0)) ip.natAbs 0 false)
  else
    let y := m * 2 ^ fxBits / 2 ^ k
    let one := 2 ^ fxBits
    let f := atanh2Fx ((y - one) * 2 ^ fxBits / (y + one)) * 2 ^ fxBits / ln2fx
    let v : Int := ip * (one : Int) + f
    if 0 ≤ v then roundIeee fp32 false v.toNat (-(fxBits : Int)) true
    else roundIeee fp32 true (v.natAbs - 1) (-(fxBits : Int)) true

/-- log2 of a value (R133). -/
def log2V : FpVal → Nat × FFlags
  | .nan _ => (canonNaN fp32, noFlags)
  | .inf s => if s then (canonNaN fp32, nvFlag) else (infBits fp32 false, noFlags)
  | .fin s m e =>
    if m = 0 then (infBits fp32 true, { dz := true })
    else if s then (canonNaN fp32, nvFlag)
    else log2Mag m e

/-- 1 / x, rounded once to FP32 (R160). -/
def rcpV (v : FpVal) : Nat × FFlags := divV fp32 (.fin false 1 0) v

/-- 1 / √x, rounded once to FP32 (R160). The spec states no value for −0: IEEE 754 gives −∞ for rSqrt(−0). -/
def rsqrtV : FpVal → Nat × FFlags
  | .nan _ => (canonNaN fp32, noFlags)
  | .inf s => if s then (canonNaN fp32, nvFlag) else (0, noFlags)
  | .fin s m e =>
    if m = 0 then (if s then Config.rsqrtOfMinusZero.toNat else infBits fp32 false, { dz := true })
    else if s then (canonNaN fp32, nvFlag)
    else
      let k : Nat := if e % 2 = 0 then 0 else 1
      let m1 := m * 2 ^ k
      let n := 2 ^ (2 * (Nat.log2 m1 + 128)) / m1
      let q := Nat.sqrt n
      roundIeee fp32 false q (-((Nat.log2 m1 + 128 : Nat) : Int) - (e - k) / 2)
        (decide (q * q * m1 ≠ 2 ^ (2 * (Nat.log2 m1 + 128))))

/-- Sine and cosine in fixed point of an angle 0 ≤ r < 2 in fixed point, by their Taylor series. -/
def sinCosFx (r : Nat) : Int × Int :=
  let x2 := r * r / 2 ^ fxBits
  let rec go : Nat → Nat → Bool → Nat → Nat → Int → Int → Int × Int
    | 0, _, _, _, _, s, c => (s, c)
    | k + 1, i, neg, ts, tc, s, c =>
      let s' := if neg then s - ts else s + ts
      let c' := if neg then c - tc else c + tc
      go k (i + 2) (!neg) (ts * x2 / 2 ^ fxBits / ((i + 1) * (i + 2))) (tc * x2 / 2 ^ fxBits / (i * (i + 1))) s' c'
  go 60 1 false r (2 ^ fxBits) 0 0

/-- A fixed-point value that is not exact, rounded to FP32. -/
def fxTo32 (x : Int) : FpVal :=
  decodeFp fp32 (roundIeee fp32 (decide (x < 0)) x.natAbs (-(fxBits : Int)) true).1

/-- cos θ and sin θ of θ = p × f, each correctly rounded (R123): θ is formed exactly and reduced by π/2 held to 640
fraction bits. -/
def cosSin (p : Nat) (f : FpVal) : FpVal × FpVal :=
  match f with
  | .nan _ => (qnan, qnan)
  | .inf _ => (qnan, qnan)
  | .fin s m e =>
    let t := p * m
    if t = 0 then (.fin false 1 0, .fin s 0 0)
    else if ilog2 t e < -40 then (.fin false 1 0, rnd32 (.fin s (t * 2 ^ 64 - 1) (e - 64)))
    else
      -- θ in units of 2^-640 is exact here: e ≥ -149
      let th := if -640 ≤ e then t * 2 ^ (e + 640).toNat else 0
      let half := pi640 / 2
      let q := th / half
      let r := (th % half) / 2 ^ (640 - fxBits)
      let sc := sinCosFx r
      let sn := if q % 4 = 0 then sc.1 else if q % 4 = 1 then sc.2 else if q % 4 = 2 then -sc.1 else -sc.2
      let cs := if q % 4 = 0 then sc.2 else if q % 4 = 1 then -sc.1 else if q % 4 = 2 then -sc.2 else sc.1
      (fxTo32 cs, fxTo32 (if s then -sn else sn))

end Sys2Proof.Machine
end

