-- ==== Sys2Proof/Machine/State.lean ====
section
/-! DEFINITION. The state of the block as plain data: every register, queue, table, buffer, counter and pin the spec names,
the memories, the outputs the block has sent, and the queue of commands that wait. Registers that software writes are held
as words by their BAR0 offset (`regs`); what the hardware itself keeps is held in the typed parts. -/

namespace Sys2Proof.Machine

/-- Reasons for which the model stops. Nothing in the spec stops the block, so no meaning raises it: an access to an address
that holds nothing is an event and a freeze (R182), never a stop. Safe: it is never raised. -/
inductive Fault where
  /-- never raised; kept because the interface asks for a type of faults (safe) -/
  | none
  deriving DecidableEq, Repr

/-- Refusals. -/
inductive Refusal where
  /-- raised by `exec` for a command that has no meaning in the model yet (safe: the run stops) -/
  | notModelled (mnemonic : String)
  deriving DecidableEq, Repr

/-! ## Tallies (R239) -/

/-- A mapped tally: the record of R239 without the identifiers under which it is filed. -/
structure Tally where
  value : Word
  limit : Word
  arrivals : BitVec 24
  participants : BitVec 24
  scope : BitVec 3
  barrier : Bool
  overflow : Bool
  underflow : Bool
  mismatch : Bool
  group : Byte
  lastSrc : Word
  lastStage : Stage
  home : BitVec 16
  waitEst : BitVec 16
  /-- FABRIC barrier: local phases sent to the switch and not yet released (R250) -/
  pend : Nat
  deriving DecidableEq, Repr

/-- The master that issued a tally operation or waits (R253). -/
inductive Issuer where
  | queue (q : Nat)
  | word (q : Nat)
  | drover (d : Nat)
  | slot (e n : Nat)
  | chan (x : Nat)
  | block (e : Nat)
  | convoy (c : Nat)
  | stream (st : Nat)
  | remote (fid : Nat)
  | host (q : Nat)
  deriving DecidableEq, Repr

/-- An operation on its way to its home, or waiting there (R247, R254). -/
structure TallyOp where
  /-- operation code of byte 26 of R254 -/
  code : Nat
  ctx : Nat
  vid : Nat
  scope : Nat
  amount : Word
  issuer : Issuer
  tag : Word
  /-- ordinal among the operations of its issuer in its packet (R398) -/
  ord : Nat
  /-- the node c that holds it for combining (R255), or 80 + c once that node has forwarded it in a combined message -/
  node : Option Nat
  /-- the scalar register that TREAD writes -/
  dest : Nat
  deriving DecidableEq, Repr

/-- A waiter at a tally (R245, R246, R257). -/
structure Waiter where
  op : TallyOp
  /-- threshold, or the phase awaited by a barrier arrival -/
  phase : Word
  since : Stage
  released : Bool
  asleep : Bool
  deriving DecidableEq, Repr

/-! ## Queues, journals and packets in work -/

/-- Progress of the operation that holds a channel. -/
structure CollProg where
  /-- openings received: position, count, in_network, data -/
  opens : List (Nat × Nat × Bool × List Byte)
  /-- source chunks taken, ascending -/
  taken : Nat
  /-- chunk data retained, by chunk: own contribution -/
  kept : Tab (List Byte)
  /-- acknowledgements: (chunk, position) -/
  acks : List (Nat × Nat)
  /-- contributions received at a reducing point: (chunk, position, bytes) -/
  contrib : List (Nat × Nat × List Byte)
  /-- result pieces written: chunk and source position -/
  written : List (Nat × Nat)
  /-- chunks reduced here -/
  reduced : List Nat
  /-- chunk-done signals performed -/
  signals : Nat
  opened : Bool
  deriving DecidableEq, Repr

/-- Life of an accepted packet in the commit journal (R383, R398); completing is one command, so a completed packet leaves the
journal at once. -/
inductive Life where
  | accepted
  | issued
  deriving DecidableEq, Repr

/-- A journal entry (R398). -/
structure JEntry where
  bytes : List Byte
  /-- its place in the order of acceptance over all queues (R172) -/
  no : Nat
  life : Life
  /-- KV_SHIP: its selection has been recorded with the stream (R333) -/
  shipped : Bool
  /-- sequence numbers its collective took: kind 0 group, 1 send, 2 receive; index; number (R294) -/
  seqs : List (Nat × Nat × Word)
  /-- tally operations applied before completion: issuer, ordinal, and the phase a barrier arrival awaits -/
  ops : List (Issuer × Nat × Word)
  /-- waybill indices acknowledged (R333) -/
  acks : List Nat
  /-- progress of its collective, kept for a re-run (R294) -/
  coll : Option CollProg
  deriving DecidableEq, Repr

/-- The work that remains of a packet that has issued. -/
inductive Work where
  /-- blocks not yet placed, and how many are running -/
  | blocks (todo : List Nat) (running : Nat)
  /-- ATTEND: append units left, then blocks -/
  | attend (units : List Nat) (todo : List Nat) (running : Nat)
  /-- TRANSFER: its channel, none while it waits for one -/
  | xfer (ch : Option Nat) (done : Bool)
  /-- RING_CONFIG: engines that have not applied it -/
  | ringCfg (left : List Nat)
  /-- SIGNAL, WAIT, BARRIER: done when the operation is applied or released -/
  | tally (done : Bool)
  /-- SYNC_DUMP: the cut stage -/
  | dump (n : Stage) (done : Bool)
  /-- COLLECTIVE, or the rest of a packet that only waits for its collective -/
  | coll
  /-- DROVER_LAUNCH: started -/
  | launch (started : Bool) (done : Bool)
  /-- KV_SHIP with wait_ack: pages not yet acknowledged -/
  | ship (wait : List Nat) (manifest : Bool)
  /-- KV_IMPORT: next record -/
  | imp (next : Nat)
  /-- KV_SEAL ops 0 to 2 and 4: waybill indices left -/
  | sealing (todo : List Nat)
  /-- SNAPSHOT: the scheduled stage, and whether it is latched and written -/
  | snap (n : Stage) (done : Bool)
  /-- FENCE -/
  | fence
  /-- nothing left -/
  | finished
  deriving DecidableEq, Repr

/-- A packet that has issued (R87): its work and the values read at issue. -/
structure Run where
  work : Work
  /-- bounds read at issue, in the order of the packet's bound words -/
  bounds : List Nat
  /-- shape-table entries (row_offset, m), or descriptors of ATTEND as 32-byte records -/
  table : List (Nat × Nat)
  descs : List (List Byte)
  /-- the channel its collective runs on, and whether its local part has completed -/
  coll : Option Nat
  collDone : Bool
  /-- pages to seal at completion (R143) -/
  seals : List Nat
  /-- status decided so far -/
  status : BitVec 16
  /-- tally operations its units have issued -/
  ord : Nat
  issuedAt : Stage
  /-- its place in the order in which packets issued (R391) -/
  order : Nat
  deriving DecidableEq, Repr

/-- A submission queue beyond its register words (R383 to R399). -/
structure Queue where
  consumed : BitVec 16 := 0
  cqTail : BitVec 16 := 0
  phase : Bool := true
  accSeq : BitVec 64 := 0
  doneSeq : BitVec 64 := 0
  dups : Word := 0
  journal : List JEntry := []
  run : Option Run := none
  stopped : Bool := false
  /-- records held while the completion ring is full -/
  waiting : List (List Byte) := []
  /-- records written and not yet consumed by the host, oldest first -/
  posted : List (List Byte) := []
  /-- records written since the vector last fired -/
  unsignalled : Nat := 0
  energy : Nat := 0
  /-- functions it was bound to before, whose doorbells are refused (R402) -/
  former : List Nat := []
  deriving DecidableEq, Repr

/-- An event queue beyond its register words (R394). -/
structure Evq where
  tail : BitVec 16 := 0
  overflow : Bool := false
  lost : BitVec 16 := 0
  deriving DecidableEq, Repr

/-- The access-error flag of a function (R14). -/
structure AccErr where
  flag : Bool := false
  cause : BitVec 4 := 0
  offset : RegOff := 0
  deriving DecidableEq, Repr

/-! ## Engines, clusters, rings and channels -/

/-- One query row of an attention block (R130): values are FP32 patterns. -/
structure AttnRow where
  mref : Word
  l : Word
  o : List Word
  s : List Word
  deriving DecidableEq, Repr

/-- A block that runs on an engine. `tile` counts finished tiles in walk order; for ATTEND it counts tiles of the step. -/
structure BlockRun where
  owner : Issuer
  no : Nat
  tile : Nat
  /-- ATTEND: key block, query tile, and the rows of the block -/
  kb : Nat
  qt : Nat
  rows : List AttnRow
  /-- the unit has waited out the descriptor wait of its key block (R121) -/
  waited : Bool
  deriving DecidableEq, Repr

/-- A launch slot (R169): state 0 free, 1 queued, 2 running, 3 complete. -/
structure LaunchSlot where
  state : BitVec 2 := 0
  image : List Byte := []
  drover : Nat := 0
  order : Nat := 0
  /-- ordinal of its first signal word among the operations of the launching drover (R398) -/
  ord : Nat := 0
  run : Option Run := none
  deriving DecidableEq, Repr

/-- A logical engine (R53, R64 to R68, R101). -/
structure Engine where
  block : Option BlockRun := none
  quarantined : Bool := false
  /-- stages of the quarantines that count against the engine (R66, R68) -/
  quarantines : List Stage := []
  mismatches : Byte := 0
  /-- cube rows that run work or filler -/
  activeRows : Byte := 0
  /-- 0 idle, 1 ramping, 2 busy, 3 warm -/
  array : BitVec 2 := 0
  form : BitVec 3 := 0
  grouped : Bool := false
  slots : List LaunchSlot := [{}, {}, {}, {}]
  launches : Nat := 0
  lent : Bool := false
  /-- its slot has been retired and no slot serves it -/
  retired : Bool := false
  /-- the fence of the slot that leaves is open (R468) -/
  fencing : Bool := false
  /-- parked engine whose drover work the host is to run (R463), and whether its image is swapped in -/
  swapped : Option Nat := none
  deriving DecidableEq, Repr

/-- A ring (R224 to R227). -/
structure Ring where
  mem : BitVec 2 := 0
  base : Nat := 0
  slotBytes : Nat := 0
  slots : Nat := 0
  sw : Bool := false
  scope : BitVec 3 := 0
  fillTally : BitVec 16 := 0
  freeTally : BitVec 16 := 0
  /-- the context whose identifiers the tallies are -/
  ctx : Nat := 0
  head : Byte := 0
  tail : Byte := 0
  /-- slots filled since configuration -/
  filled : Nat := 0
  states : List (BitVec 2) := []
  /-- granules wholly delivered in the head slot -/
  mark : BitVec 12 := 0
  deriving DecidableEq, Repr

/-- Why a channel stopped (R237). -/
structure PageReq where
  role : Nat
  port : Nat
  iova : Nat
  /-- 0: outstanding; otherwise the response that failed it (R235) -/
  failed : Nat
  since : Stage
  deriving DecidableEq, Repr

/-- A transfer channel that runs a manifest (R213, R231, R237). -/
structure Chan where
  owner : Issuer
  ctx : Nat
  tag : Word
  /-- the TRANSFER packet or image -/
  bytes : List Byte
  cursor : List Nat
  /-- 1 running, 2 waiting for a page request, 3 stopped with its master frozen -/
  state : BitVec 2
  cause : BitVec 4
  req : Option PageReq
  /-- ring destination: a slot is being filled -/
  inSlot : Bool
  /-- the wait on free_tally for the next slot (R229): 0 not made, 1 waiting, 2 met -/
  waiting : BitVec 2
  /-- slots of the ring filled when the manifest started -/
  startFilled : Nat
  /-- fill signals sent and not yet applied -/
  signals : Nat
  deriving DecidableEq, Repr

/-- The slots and shared units of a logical cluster (R459 to R467). -/
structure Cluster where
  retired : BitVec 17 := 0
  spare : BitVec 5 := 16
  parked : Option (Fin 16) := none
  /-- 0 in service, 1 asleep, 2 rejoining, 3 parked -/
  cstate : BitVec 3 := 0
  /-- physical slot of an engine of the cluster, where it is not the slot of the same number -/
  serve : Tab Nat := []
  /-- last generation of a slot, where it is not that of R467 at power-on -/
  gens : Tab (BitVec 16) := []
  gen : BitVec 16 := 1
  /-- retirements of each slot since manufacture (R461) -/
  lives : Tab Nat := []
  /-- slots that passed their retest and wait to rejoin (R461, R469) -/
  passed : List Nat := []
  /-- its dispatcher or its transfer engine is beyond its internal spares (R458) -/
  unitFailed : Bool := false
  deriving DecidableEq, Repr

/-- Run state of a drover. -/
inductive DrvState where
  | idle
  | running
  | waiting
  | halted
  deriving DecidableEq, Repr

/-- A drover (R149). -/
structure Drover where
  x : Tab Word := []
  v : Tab (BitVec 256) := []
  pc : Word := 0
  fflags : BitVec 5 := 0
  st : DrvState := .idle
  ordinal : Word := 0
  /-- tally operations issued in the launch -/
  ord : Nat := 0
  deriving DecidableEq, Repr

/-- A drover group (R171, R176). -/
structure Group where
  queue : Option Nat := none
  ctx : Nat := 0
  tag : Word := 0
  codeBytes : Nat := 0
  argBytes : Nat := 0
  count : Nat := 0
  /-- ended by DBG_RELEASE discard (R474) -/
  discarded : Bool := false
  /-- the drover that faulted, while the group is frozen -/
  faulter : Option Nat := none
  deriving DecidableEq, Repr

/-! ## Freezes and outputs -/

/-- A frozen master (R474, R482). -/
structure Frozen where
  kind : BitVec 4
  index : Word
  part : Byte
  code : BitVec 16
  stage : Stage
  /-- one of the 256 that the device lists -/
  listed : Bool
  /-- for a context: the units, by source and tag, that hold an access which failed -/
  waits : List (Nat × Nat) := []
  deriving DecidableEq, Repr

/-- What the block sends or drives. The list is the model's own record of outputs, oldest first. -/
inductive Out where
  | msix (fn : Nat) (vec : Nat)
  | rolre (dest : Nat) (vlane mkind : Nat) (offset : Nat) (rstatus : Nat) (body : List Byte) (sig : Option RemoteSignal)
  | convoy (dest : Nat) (m : ConvoyCtl) (data : List Byte)
  | chunk (dest : Nat) (c : ChunkHead) (data : List Byte)
  | caravan (dest : Nat) (header payload : List Byte)
  | proposal (dest : Nat) (group : Nat) (boundary : Stage) (code : BitVec 7)
  | flit (port : Nat) (kind : Nat) (words : List (BitVec 64))
  | replay (port : Nat) (fseq : BitVec 12)
  /-- completion status: 0 success, 1 unsupported request, 2 configuration retry, 4 completer abort -/
  | completion (fn : Nat) (rid : BitVec 16) (status : Nat) (data : List Byte)
  | pageRequest (port : Nat) (iova : Nat)
  | hostWrite (port : Nat) (addr : Nat) (data : List Byte)
  | spdm (code : Nat) (data : List Byte)
  | pldm (code : Nat) (data : List Byte)
  | jtag (bits : List Byte)
  /-- the arrival a device node sends to the switch counter node (R250) -/
  | switchArrival (group vid : Nat)
  | haltAllN (low : Bool)
  | thermTripN
  deriving DecidableEq, Repr

/-! ## Convoy -/

/-- A group table entry (R267); `sendSeq` and `recvSeq` are the pair sequence numbers by position. -/
structure GroupEntry where
  members : List Fid
  selfPos : Nat
  ctx : Nat
  broken : Bool
  part : Nat
  chunkLog2 : Nat
  flags : Byte
  listCrc : Word
  seq : Word
  sendSeq : Tab Word
  recvSeq : Tab Word
  deriving DecidableEq, Repr

/-- An operation started on a channel (R270 to R285). -/
structure CollOp where
  queue : Nat
  group : Nat
  cop : Nat
  red : Nat
  ctype : Nat
  count : Nat
  seq : Word
  seq2 : Word
  peer : Nat
  peer2 : Nat
  src : Nat
  dst : Nat
  capacity : Nat
  pitch : Nat
  pages : List Nat
  elemBytes : Nat
  doneTally : Nat
  doneScope : Nat
  /-- contributes identity elements (R279) -/
  empty : Bool
  /-- launched by a compute packet or a TRANSFER -/
  fused : Bool
  /-- bytes it sends to each position, for ALL_TO_ALL_V -/
  counts : List Nat
  deriving DecidableEq, Repr

/-- A convoy channel (R270, R296, R298). -/
structure Convoy where
  /-- the operation that holds the channel, then those behind it -/
  ops : List CollOp := []
  prog : Option CollProg := none
  lastStage : Word := 0
  /-- stages without progress -/
  silent : Nat := 0
  /-- openings that arrived before the local start: source position, control part, data -/
  early : List (Nat × ConvoyCtl × List Byte) := []
  deriving DecidableEq, Repr

/-- An adder bank (R265, R291). -/
structure Bank where
  serving : Bool := true
  retired : Bool := false
  fails : List Stage := []
  gen : BitVec 16 := 1
  deriving DecidableEq, Repr

/-! ## Pages, sequences and streams -/

/-- An open sequence (R312). -/
structure Sequence where
  handle : BitVec 48
  ctx : Nat
  part : Nat
  layers : Nat
  heads : Nat
  pages : Nat
  base : Nat
  opened : Stage
  /-- pages scheduled for swap-out (R318) -/
  swapping : List Nat
  deriving DecidableEq, Repr

/-- A requester that stalled for a frame (R316): kind 1 append, 2 import, 3 renewal, 4 swap-in. -/
structure Stall where
  queue : Nat
  kind : Nat
  index : Nat
  seqSlot : Nat
  part : Nat
  /-- frame given to it -/
  frame : Option Nat
  deriving DecidableEq, Repr

/-- A swap in progress (R318, R320). -/
structure Swap where
  index : Nat
  part : Nat
  slot : Nat
  frame : Nat
  /-- swap-in: the frame is being filled -/
  inward : Bool
  queue : Nat
  deriving DecidableEq, Repr

/-- A page of a stream's selection (R323). -/
structure Pick where
  index : Nat
  queue : Nat
  tag : Word
  tally : Nat
  scope : Nat
  /-- eligible since the page sealed: order number, 0 while not eligible -/
  turn : Nat
  taken : Bool
  done : Bool
  /-- its first acknowledgement has been counted and signalled -/
  signed : Bool
  deriving DecidableEq, Repr

/-- A page in flight on a stream (R330). -/
structure Flight where
  index : Nat
  key : BitVec 128
  crc : Word
  attempt : Nat
  /-- dock slot -/
  slot : Nat
  /-- waits for retry_after -/
  deferred : Bool
  tag : Word
  deriving DecidableEq, Repr

/-- A caravan stream (R321 to R334). -/
structure Stream where
  /-- 0 idle, 1 open, 2 closing -/
  state : BitVec 2 := 0
  destKind : BitVec 2 := 0
  destFid : Fid := 0
  dockAddr : Nat := 0
  dockSlots : Nat := 0
  dockTally : Nat := 0
  dockCtx : Nat := 0
  dockNext : Nat := 0
  handle : BitVec 48 := 0
  picks : List Pick := []
  /-- queue and tag of the KV_SHIP that set `close` -/
  closer : Nat × Word := (0, 0)
  flights : List Flight := []
  acked : Word := 0
  /-- keys acknowledged since open, for the manifest -/
  keys : List (BitVec 128) := []
  manifestSent : Bool := false
  /-- parts of the manifest written to dock slots -/
  parts : Nat := 0
  turns : Nat := 0
  deriving DecidableEq, Repr

/-! ## Fabric and epoch -/

/-- A Rolre port (R341 to R353). -/
structure Port where
  state : BitVec 3 := 0
  width : BitVec 4 := 0
  peer : BitVec 16 := 0
  tries : BitVec 3 := 0
  good : Byte := 0
  inUse : Byte := 0
  delayNs : BitVec 16 := 0
  corrected : Word := 0
  replays : BitVec 16 := 0
  uncorrected : BitVec 16 := 0
  /-- next `fseq` expected -/
  expect : BitVec 12 := 0
  /-- a retry request is outstanding: later flits are discarded -/
  retrying : Bool := false
  /-- the flit last asked for again, and how often in a row -/
  replayed : BitVec 12 := 0
  replayRow : Nat := 0
  reserved : Nat := 0
  /-- the stage at which the present state was entered -/
  since : Stage := 0
  lastWiden : Stage := 0
  /-- transmit time of a delay request that has not been answered -/
  measure : Option (BitVec 64) := none
  /-- the delay has been measured in the present state Time -/
  timed : Bool := false
  gen : BitVec 16 := 1
  deriving DecidableEq, Repr

/-- The epoch (R354 to R370). -/
structure Epoch where
  state : BitVec 3 := 0
  source : BitVec 5 := 31
  silent : BitVec 20 := 0
  offsetNs : Word := 0
  lastStage : Stage := 0
  heldFrom : Stage := 0
  pulseNext : Stage := 0
  pulseIgnored : Nat := 0
  acquired : Bool := false
  /-- lost and not yet converged again (R365) -/
  lost : Bool := false
  /-- steps of the counter: the stage before and the stage after (R364) -/
  skips : List (Stage × Stage) := []
  deriving DecidableEq, Repr

/-- A message this device has sent through the fabric region and whose answer has not come (R193, R222, R248): 1 a write, 2 a
read, 5 a tally operation. -/
structure Sent where
  kind : Nat
  dest : Fid
  flow : BitVec 16
  addr : Nat
  bytes : Nat
  who : Option Issuer
  /-- the destination has refused it; it is sent again when its master is released (R193) -/
  refused : Bool
  deriving DecidableEq, Repr

/-- A scheduled snapshot (R366 to R368). -/
structure Snap where
  /-- the stage N it was scheduled at -/
  at_ : Stage
  queue : Nat
  deriving DecidableEq, Repr

/-! ## Power and the weighhouse -/

/-- A trim-log entry (R405, R421). -/
structure Trim where
  stage : Stage
  die : Byte
  old : Byte
  new : Byte
  slack : Byte
  deriving DecidableEq, Repr

/-- A hinted phase (R409). -/
structure Phase where
  ctx : Nat
  id : Byte
  cls : Byte
  start : Stage
  /-- the phase begins when the next packet of this queue issues -/
  awaits : Option Nat
  duration : Word
  deriving DecidableEq, Repr

/-- The state of a throttle reason (R417, R418). -/
structure Reason where
  dies : BitVec 2 := 0
  stages : BitVec 64 := 0
  /-- stages of the present occurrence -/
  run : Nat := 0
  /-- stages since it was last active, while its exit is not yet reported -/
  quiet : Nat := 0
  reported : Bool := false
  /-- dies on which it was last active, and its limit code then -/
  last : BitVec 2 := 0
  limit : BitVec 7 := 0
  deriving DecidableEq, Repr

/-- Lock state of a partition (R413, R421). -/
structure Lock where
  state : BitVec 2 := 0
  agreed : BitVec 7 := 0
  failed : BitVec 14 := 0
  /-- `lock_en` and `lock_group` in force since the last boundary (R421) -/
  on : Bool := false
  group : Byte := 0
  /-- proposals received: boundary, position, code -/
  votes : List (Nat × Nat × BitVec 7) := []
  deriving DecidableEq, Repr

/-- A compute die (R404, R405, R411). -/
structure Die where
  guardMv : Byte := 50
  guardNext : Byte := 50
  floorMv : Byte := 0
  trims : BitVec 16 := 0
  /-- the limiter's own ceiling, 127 when it does not act -/
  limiter : BitVec 7 := 127
  exceeded : Nat := 0
  under : Nat := 0
  tmax : BitVec 16 := 0
  /-- windows of 2²⁶ stages reviewed (R405) -/
  reviewed : Nat := 0
  deriving DecidableEq, Repr

/-- The power controller (R403 to R421). -/
structure Power where
  devCode : BitVec 7 := 64
  /-- scheduled change: stage and code -/
  next : Option (Stage × BitVec 7) := none
  dies : List Die := [{}, {}]
  reasons : List Reason := [{}, {}, {}, {}, {}, {}, {}]
  /-- 0 calibrated, 1 divergent, 2 measurement absent -/
  cal : BitVec 2 := 0
  diverging : Nat := 0
  agreeing : Nat := 0
  k : Word := 0x3F800000
  est : Word := 0
  meas : Word := 0
  measW : BitVec 16 := 0
  estW : BitVec 16 := 0
  /-- consecutive intervals above the cap, and intervals of hold left (R407) -/
  overCap : Nat := 0
  hold : Nat := 0
  /-- sustainable step of the last interval, and the limit codes of reasons 1, 3 and 7 it was found with -/
  u : BitVec 7 := 64
  capCode : BitVec 7 := 127
  heatCode : BitVec 7 := 127
  divCode : BitVec 7 := 127
  /-- PWR_CAP and PWR_CTRL in force since the last boundary (R421) -/
  capW : Nat := 3200
  dieLimitW : Nat := 1650
  fixedEn : Bool := false
  fixedCode : BitVec 7 := 64
  hostMax : BitVec 7 := 74
  /-- the last boundary closed; its round is open; the proposal made; the raw estimate of an interval whose feed is awaited -/
  boundary : Nat := 0
  roundOpen : Bool := false
  mine : BitVec 7 := 64
  awaiting : Option Nat := none
  /-- the reason that caused the last fall (R417) -/
  fallBy : Option Nat := none
  locks : List Lock := [{}, {}, {}, {}, {}, {}, {}, {}]
  phases : List Phase := []
  /-- learned capacitance, keyed 256 × context + phase (R408) -/
  learned : Tab Word := []
  ioTemp : BitVec 16 := 0
  hbmTemp : List (BitVec 16) := []
  /-- the critical floor, and the last stage at which a sensor was within 5 °C of its limit; the alert floor, the sources, and
  the last stage at which one was active -/
  critical : Bool := false
  hotAt : Stage := 0
  alert : BitVec 5 := 0
  alertOn : Bool := false
  alertAt : Stage := 0
  trimLog : List Trim := []
  partEnergy : Tab Nat := []
  deriving DecidableEq, Repr

/-- An interval being measured (R423, R426); energy is in units of 2⁻⁴⁰ µJ, powers in W. -/
structure Interval where
  first : Stage := 0
  energy : Nat := 0
  samples : Word := 0
  hi : BitVec 16 := 0
  lo : BitVec 16 := 0
  flags : Byte := 0
  deriving DecidableEq, Repr

/-- A checkpoint (R427). -/
structure Checkpoint where
  bytes : List Byte
  signed : Bool
  /-- the number its signature was drawn under -/
  draw : Nat
  deriving DecidableEq, Repr

/-- The weighhouse (R422 to R429). -/
structure Weigh where
  state : BitVec 2 := 0
  sealNo : BitVec 6 := 0
  req : Bool := false
  cur : Interval := {}
  /-- remainder carried into the next interval -/
  carry : Nat := 0
  total : Nat := 0
  index : Nat := 0
  /-- newest first, at most 4,096 -/
  records : List (List Byte) := []
  chain : List Byte := []
  nonce : List Byte := []
  /-- oldest first, at most 8 kept -/
  ckpts : List Checkpoint := []
  ckptIndex : Nat := 0
  /-- windows of 2²⁶ stages that have had their periodic checkpoint -/
  ckptWindow : Nat := 0
  calibration : Nat := 0
  powered : Bool := true
  deriving DecidableEq, Repr

/-! ## Configuration, boot and security -/

/-- A partition of the image in force (R435). -/
structure Partition where
  part : Nat
  clusters : List Nat
  stackIds : List Nat
  ports : List Nat
  functions : List Nat
  ownerFn : Nat
  droverRsv : Nat
  accShare : Nat
  lockEn : Bool
  lockGroup : Nat
  powerShare : Nat
  tallyShare : Nat
  poolFirst : Nat
  poolCount : Nat
  frameBase : Nat
  frames : Nat
  frameUnits : Nat
  seqShare : Nat
  streamFirst : Nat
  streamCount : Nat
  channels : List Nat
  contexts : List Nat
  deriving DecidableEq, Repr

/-- The image in force (R433 to R436). -/
structure Image where
  serial : BitVec 64
  personality : Byte
  pcieUse : Byte
  rolrePorts : BitVec 16
  fidPin : BitVec 16
  pulseEn : Bool
  cfgFn : Nat
  capW : Nat
  dieLimitW : Nat
  /-- physical cluster and spare slot of each logical cluster -/
  clusterMap : List (Byte × Byte)
  parts : List Partition
  queues : List (List Byte)
  contexts : List (List Byte)
  groups : List (List Byte)
  keys : List (List Byte)
  deriving DecidableEq, Repr

/-- A configuration command in progress (R439, R440). -/
structure Apply where
  image : Image
  bytes : List Byte
  changed : List Nat
  since : Stage
  /-- quiesce limit in stages -/
  limit : Nat
  deriving DecidableEq, Repr

/-- CFG (R438 to R444). -/
structure Cfg where
  cstate : BitVec 3 := 0
  nullConfig : Bool := true
  lastError : BitVec 4 := 0
  image : Option Image := none
  /-- the Ecloth image in flash -/
  flash : List Byte := []
  flashOk : Bool := false
  apply : Option Apply := none
  /-- owner slots that have been enrolled: digest, revoked -/
  owners : Tab (List Byte × Bool) := []
  /-- contexts whose restore failed: their cluster images are kept (R442) -/
  kept : List Nat := []
  /-- partitions that hold a stack that failed training (R445) -/
  notStarted : List Nat := []
  /-- the bytes of the image in force, which are measured (R456) -/
  inForce : List Byte := []
  /-- an image waits in flash for the next warm device reset (R439) -/
  waiting : Bool := false
  deriving DecidableEq, Repr

/-- An SPDM session or transcript (R454). -/
structure Session where
  id : Word
  established : Bool
  deriving DecidableEq, Repr

/-- A signature waiting for, or in, the security engine (R455). -/
structure SignJob where
  token : Byte
  /-- code and content of the response that the signature completes -/
  code : Nat
  response : List Byte
  ready : Bool
  deriving DecidableEq, Repr

/-- Security and firmware (R448 to R457). -/
structure Sec where
  rstate : BitVec 3 := 0
  svn : Word := 0
  minSvn : Word := 0
  running : List Word := []
  flashVers : List Word := []
  /-- of the firmware image in flash: its security version, whether it raises the minimum once booted, its digest -/
  flashSvn : Word := 0
  flashRaise : Bool := false
  flashDigest : List Byte := []
  bootDigest : List Byte := []
  /-- domains of a live update not yet handed over; those whose new code does not report ready; the one that hands over now;
  the port updated last that is not Up again; the security version of the image -/
  updating : List Nat := []
  notReady : List Nat := []
  held : Option Nat := none
  waitPort : Option Nat := none
  imageSvn : Word := 0
  /-- how far each transport has negotiated: 1 version, 2 capabilities, 3 algorithms -/
  conn : Tab Nat := []
  sessions : List Session := []
  jobs : List SignJob := []
  tokens : Byte := 0
  /-- a large response read by CHUNK_GET: handle, content, the number its signature was drawn under, bytes read -/
  large : Option (Byte × List Byte × Nat × Nat) := none
  handles : Byte := 0
  /-- number of the next chunk of that response -/
  chunkNext : BitVec 16 := 0
  /-- a large request sent by CHUNK_SEND: handle, next chunk, bytes -/
  partialReq : Option (Byte × BitVec 16 × List Byte) := none
  deriving DecidableEq, Repr

/-- Resets, the device freeze, pins and sidebands (R476 to R482, R491 to R500). -/
structure Device where
  ready : Bool := true
  powered : Bool := true
  bootHeld : Bool := false
  recovery : Bool := false
  /-- clusters that fail self-test and stacks that fail training in the boot that recovery interrupts (R445, R448) -/
  badClusters : List Nat := []
  badStacks : List Nat := []
  failed : Bool := false
  /-- 0 running, 1 armed, 2 frozen -/
  fstate : BitVec 2 := 0
  fcause : BitVec 3 := 0
  fstage : Stage := 0
  /-- tag of the FREEZE_AT that armed the freeze -/
  ftag : Word := 0
  therm : Bool := false
  /-- HALT_ALL_N is ignored until it has been high for 1 µs (R496) -/
  haltIgnored : Bool := false
  haltDriven : Bool := false
  dstate : BitVec 3 := 0
  resetStatus : BitVec 3 := 0
  lastDev : BitVec 3 := 0
  partReset : Option Nat := none
  /-- partition resets (true) and context resets (false) that wait for an apply to end (R494) -/
  waitResets : List (Bool × Nat) := []
  perst : List Bool := [false, false]
  refMissing : List Bool := [false, false, false, false]
  frozenOverflow : Bool := false
  relStatus : BitVec 3 := 0
  stale : Word := 0
  /-- closed generations whose first stale message has been reported: source and generation (R471) -/
  staleSeen : List (Nat × BitVec 16) := []
  tapInstr : BitVec 3 := 0
  i3cMgmt : Option (BitVec 7) := none
  i3cWeigh : Option (BitVec 7) := none
  deriving DecidableEq, Repr

/-- HBM retirements of a stack (R465, R466). -/
structure Stack where
  retired : List Nat := []
  /-- a pseudo-channel whose contents are being copied -/
  copying : Option Nat := none
  /-- uncorrectable words found on each pseudo-channel: burst and stage -/
  uncorrectable : Tab (List (Nat × Stage)) := []
  /-- corrected words of each pseudo-channel: the window of 2^20 stages they fall in, and their number -/
  corrected : Tab (Nat × Nat) := []
  scrubAt : Nat := 0
  trained : Bool := true
  deriving DecidableEq, Repr

/-- A refetch from an origin-table range (R201). -/
structure Refetch where
  burst : Nat
  origin : Nat
  issuer : Option Issuer
  tag : Word
  ctx : Nat
  /-- source and place of its record (R204), which is raised when its outcome is known -/
  src : Nat
  place : Nat
  deriving DecidableEq, Repr

/-- A BAR2 read whose completion waits for a refetch (R194). -/
structure WaitRead where
  fn : Nat
  rid : BitVec 16
  off : Nat
  len : Nat
  deriving DecidableEq, Repr

/-- An invalidation in progress (R189). -/
structure Inval where
  ctx : Nat
  deriving DecidableEq, Repr

/-- A cached table entry: context, level, address of the entry, its value; `leaf` is a cached translation (R189). -/
structure Cached where
  ctx : Nat
  level : Nat
  va : Nat
  addr : Nat
  value : BitVec 64
  deriving DecidableEq, Repr

/-! ## The whole -/

/-- Host face: queues, event queues, access errors and the register words software wrote. -/
structure HostSide where
  regs : Tab Word := []
  latched : Tab Word := []
  readData : Word := 0
  accErr : Tab AccErr := []
  queues : Tab Queue := []
  evqs : Tab Evq := []
  /-- packets issued so far: the order of R391 -/
  issues : Nat := 0
  /-- packets accepted so far: the order of R172 -/
  accepts : Nat := 0
  deriving DecidableEq, Repr

/-- Compute: engines, clusters, rings, channels, drovers. -/
structure Compute where
  engines : Tab Engine := []
  clusters : Tab Cluster := []
  rings : Tab Ring := []
  chans : Tab Chan := []
  drovers : Tab Drover := []
  groups : Tab Group := []
  lstore : Tab Byte := []
  istore : Tab Byte := []
  acc : Tab Byte := []
  /-- TRANSFERs that wait for a channel, in order of issue -/
  xferWait : List Issuer := []
  deriving DecidableEq, Repr

/-- Memories and translation. -/
structure Memory where
  /-- the local map: HBM, scratchpads, serai memories; unlisted bytes are zero -/
  cells : List Host.Cell := []
  /-- bytes the block has written to host or fabric addresses -/
  outside : Tab Byte := []
  /-- error pattern of a 72-bit code word, by address / 8 (R197) -/
  errors : Tab (BitVec 72) := []
  cache : List Cached := []
  atsCache : List (Nat × Nat × Nat) := []
  invals : List Inval := []
  refetches : List Refetch := []
  reads : List WaitRead := []
  stackTab : Tab Stack := []
  deriving DecidableEq, Repr

/-- Tallies, operations in flight and waiters. -/
structure Sync where
  tallies : Tab Tally := []
  flight : List TallyOp := []
  waiters : List Waiter := []
  /-- destroys waiting for operations in flight, by key -/
  destroying : List (Nat × Nat) := []
  /-- automatic dumps that wait for their cut: context, convoy channel, stage N (R264, R296) -/
  dumping : List (Nat × Nat × Nat) := []
  deriving DecidableEq, Repr

/-- KV pages, sequences, streams. -/
structure Kv where
  waybill : Tab (BitVec 128) := []
  sequences : Tab Sequence := []
  stalls : List Stall := []
  swaps : List Swap := []
  /-- swap slots in use, by 2^24 × partition + slot -/
  swapUsed : Tab Nat := []
  streams : Tab Stream := []
  noSwap : List Nat := []
  readers : List (Nat × Nat) := []
  deriving DecidableEq, Repr

/-- Convoy: groups, channels, banks. -/
structure ConvoySide where
  groups : Tab GroupEntry := []
  chans : Tab Convoy := []
  banks : Tab Bank := []
  residueFails : Byte := 0
  deriving DecidableEq, Repr

/-- Fabric: ports, the fabric ID, flows, snapshots and counters. -/
structure Fabric where
  fidValid : Bool := false
  fid : Fid := 0
  ports : Tab Port := []
  flowSent : Tab Word := []
  flowSeen : Tab Word := []
  sent : List Sent := []
  /-- fabric reads answered and not yet used: channel, address, bytes -/
  got : List (Nat × Nat × Nat) := []
  discarded : Nat := 0
  epoch : Epoch := {}
  snaps : List Snap := []
  lastLatch : Option Stage := none
  counters : Tab Nat := []
  shadows : Tab Nat := []
  deriving DecidableEq, Repr

/-- The state of the block. -/
structure State where
  /-- commands that wait, oldest first -/
  pending : List Instr
  stage : Stage
  host : HostSide
  comp : Compute
  mem : Memory
  sync : Sync
  kv : Kv
  conv : ConvoySide
  fab : Fabric
  power : Power
  weigh : Weigh
  cfg : Cfg
  sec : Sec
  dev : Device
  frozen : List Frozen
  out : List Out
  /-- GLB_IDENT bits 15:0: grade, stepping, enabled clusters (R6) -/
  ident : BitVec 16
  /-- counts the free values the step has drawn -/
  fresh : Nat
  deriving DecidableEq, Repr

/-- The block right after reset: Ready under the null configuration (R447), an SKV1280-M36 of the first stepping, nothing
in its memories, no command waiting. -/
def State.reset : State where
  pending := []
  stage := 0
  host := {}
  comp := {}
  mem := {}
  sync := {}
  kv := {}
  conv := {}
  fab := {}
  power := {}
  weigh := {}
  cfg := {}
  sec := {}
  dev := {}
  frozen := []
  out := []
  ident := 0x0050
  fresh := 0

end Sys2Proof.Machine
end

