-- ==== Sys2Proof/WellFormed.lean ====
section
/-! DEFINITION. Well-formed commands. A drover command is well formed when its word is legal under R155: the fields that the
opcode table marks zero are zero, and its type, scope, register and part codes are listed. A queue command's slots are
whole 64-byte slots. Every other command is well formed. -/

namespace Sys2Proof

/-- Bits of an element of a drover format of VCVT (R163); 0 for a code VCVT does not take. -/
def cvtBits (c : Nat) : Nat :=
  match c with
  | 0 => 32 | 1 => 16 | 2 => 16 | 3 => 8 | 4 => 8 | 8 => 8 | 10 => 32 | _ => 0

/-- `part` of VCVT is less than the number of parts (R163); with a code that is not taken, nothing is asked of it. -/
def cvtPartOk (a : CArgs) : Bool :=
  let x := cvtBits a.src.toNat
  let y := cvtBits a.dst.toNat
  decide (x = 0) || decide (y = 0) || decide (a.part.toNat < max x y / min x y)

/-- `part` of VPACK and VUNPK is 0 for kinds of more than 16 bytes (R165). -/
def packPartOk (a : PArgs) : Bool :=
  decide (a.part = 0) || decide (a.kind = 4) || (decide (8 ≤ a.kind.toNat))

/-- The command is well formed. -/
def Instr.wf : Instr → Bool
  | .clz _ a => decide (a.rs2 = 0)
  | .popc _ a => decide (a.rs2 = 0)
  | .fsqrt _ a => decide (a.rs2 = 0)
  | .fcvtws _ a => decide (a.rs2 = 0)
  | .fcvtsw _ a => decide (a.rs2 = 0)
  | .jalr _ a => decide (a.rs2 = 0)
  | .csrr _ a => decide (a.rs2.toNat ≤ 9)
  | .csrw _ a => decide (a.rs2 = 7)
  | .mlaunch _ a => decide (a.rs2 = 0)
  | .mpoll _ a => decide (a.rs2 = 0)
  | .brk _ a => decide (a.rd = 0) && decide (a.rs1 = 0) && decide (a.rs2 = 0)
  | .halt _ a => decide (a.rd = 0) && decide (a.rs1 = 0) && decide (a.rs2 = 0)
  | .lui _ a => decide (a.rs1 = 0)
  | .tsig _ a => decide (a.scope.toNat ≤ 4)
  | .twait _ a => decide (a.scope.toNat ≤ 4)
  | .tbar _ a => decide (a.scope.toNat ≤ 4)
  | .tread _ a => decide (a.scope.toNat ≤ 4) && decide (a.rs2 = 0)
  | .droverFence _ a => decide (a.scope.toNat ≤ 4) && decide (a.rd = 0) && decide (a.rs1 = 0) && decide (a.rs2 = 0)
  | .vaddFp _ a => decide (a.ty.toNat ≤ 2) && decide (a.vc = 0)
  | .vsubFp _ a => decide (a.ty.toNat ≤ 2) && decide (a.vc = 0)
  | .vmulFp _ a => decide (a.ty.toNat ≤ 2) && decide (a.vc = 0)
  | .vfma _ a => decide (a.ty.toNat ≤ 2)
  | .vminFp _ a => decide (a.ty.toNat ≤ 2) && decide (a.vc = 0)
  | .vmaxFp _ a => decide (a.ty.toNat ≤ 2) && decide (a.vc = 0)
  | .vabs _ a => decide (a.ty.toNat ≤ 2) && decide (a.vb = 0) && decide (a.vc = 0)
  | .vneg _ a => decide (a.ty.toNat ≤ 2) && decide (a.vb = 0) && decide (a.vc = 0)
  | .vcmpeqFp _ a => decide (a.ty.toNat ≤ 2)
  | .vcmpltFp _ a => decide (a.ty.toNat ≤ 2)
  | .vcmple _ a => decide (a.ty.toNat ≤ 2)
  | .vexp2 _ a => decide (a.ty.toNat ≤ 2) && decide (a.vb = 0) && decide (a.vc = 0)
  | .vlog2 _ a => decide (a.ty.toNat ≤ 2) && decide (a.vb = 0) && decide (a.vc = 0)
  | .vrcp _ a => decide (a.ty.toNat ≤ 2) && decide (a.vb = 0) && decide (a.vc = 0)
  | .vrsqrt _ a => decide (a.ty.toNat ≤ 2) && decide (a.vb = 0) && decide (a.vc = 0)
  | .vaddInt _ a => decide (a.ty.toNat ≤ 1)
  | .vsubInt _ a => decide (a.ty.toNat ≤ 1)
  | .vmulInt _ a => decide (a.ty.toNat ≤ 1)
  | .vaddsat _ a => decide (a.ty.toNat ≤ 1)
  | .vminInt _ a => decide (a.ty.toNat ≤ 1)
  | .vmaxInt _ a => decide (a.ty.toNat ≤ 1)
  | .vcmpeqInt _ a => decide (a.ty.toNat ≤ 1)
  | .vcmpltInt _ a => decide (a.ty.toNat ≤ 1)
  | .vand _ a => decide (a.ty.toNat ≤ 1)
  | .vor _ a => decide (a.ty.toNat ≤ 1)
  | .vxor _ a => decide (a.ty.toNat ≤ 1)
  | .vsel _ a => decide (a.ty.toNat ≤ 1)
  | .vsll _ a => decide (a.ty.toNat ≤ 1)
  | .vsrl _ a => decide (a.ty.toNat ≤ 1)
  | .vsra _ a => decide (a.ty.toNat ≤ 1)
  | .vrsum _ a => decide (a.ty.toNat ≤ 2)
  | .vrmax _ a => decide (a.ty.toNat ≤ 2)
  | .vrmin _ a => decide (a.ty.toNat ≤ 2)
  | .vrmaxi _ a => decide (a.ty = 0)
  | .vradd _ a => decide (a.ty = 0)
  | .vperm _ a => decide (a.ty.toNat ≤ (if Config.permIntTypes then 1 else 2))
  | .vrot _ a => decide (a.ty.toNat ≤ (if Config.permIntTypes then 1 else 2))
  | .vsort _ a => decide (a.ty = 0) && decide (a.vd.toNat % 2 = 0)
  | .vcvt _ a => cvtPartOk a
  | .vpack _ a => decide (a.va.toNat % 4 = 0) && packPartOk a
  | .vunpk _ a => decide (a.vd.toNat % 4 = 0) && packPartOk a
  | .vld _ a => decide (a.va = 0)
  | .vst _ a => decide (a.va = 0)
  | .packetFetch _ slots => decide (slots.length % 64 = 0) && decide (64 ≤ slots.length)
  | _ => true

end Sys2Proof
end

