-- ==== Sys2Proof/Machine/DroverCode.lean ====
section
/-! DEFINITION. The words of drover instructions (R154 to R156): encoder and decoder. A field the table neither uses nor
marks zero is kept as an operand, so that a word and its command determine each other. -/

namespace Sys2Proof.Machine

/-! ## Formats (R154) -/

/-- Format R. -/
def encR (op : BitVec 6) (func : BitVec 11) (a : RArgs) : Word := op ++ a.rd ++ a.rs1 ++ a.rs2 ++ func
/-- Format I. -/
def encI (op : BitVec 6) (a : IArgs) : Word := op ++ a.rd ++ a.rs1 ++ a.imm
/-- The shift-immediate form: imm[15:14] the kind, imm[13:5] zero, imm[4:0] the amount. -/
def encSh (kind : BitVec 2) (a : ShArgs) : Word := (0x06#6) ++ a.rd ++ a.rs1 ++ kind ++ 0#9 ++ a.amt
/-- Format B. -/
def encB (op : BitVec 6) (a : BArgs) : Word := op ++ a.rs1 ++ a.rs2 ++ a.off
/-- Format J. -/
def encJ (off : BitVec 26) : Word := (0x1E#6) ++ off
/-- Format R of the system opcode with a scope. -/
def encS (sub : BitVec 8) (a : SArgs) : Word := (0x1F#6) ++ a.rd ++ a.rs1 ++ a.rs2 ++ a.scope ++ sub
/-- Format V. -/
def encV (op : BitVec 6) (func : BitVec 8) (a : VArgs) : Word := op ++ a.vd ++ a.va ++ a.vb ++ a.vc ++ a.ty ++ func
/-- Format X. -/
def encX (func : BitVec 6) (a : XArgs) : Word := (0x22#6) ++ a.vd ++ a.va ++ a.x ++ a.lane ++ a.ty ++ func
/-- Format C. -/
def encC (a : CArgs) : Word := (0x25#6) ++ a.vd ++ a.va ++ a.src ++ a.dst ++ a.part ++ 0#8
/-- Format P. -/
def encP (op : BitVec 6) (a : PArgs) : Word := op ++ a.vd ++ a.va ++ a.x ++ a.kind ++ a.part ++ 0#8
/-- Format VM. -/
def encM (func : BitVec 3) (a : MArgs) : Word := (0x28#6) ++ a.vd ++ a.rs1 ++ a.va ++ func ++ a.off

/-- The fields of format R. -/
def decR (w : Word) : RArgs := ⟨w.extractLsb' 21 5, w.extractLsb' 16 5, w.extractLsb' 11 5⟩
/-- The fields of format I. -/
def decI (w : Word) : IArgs := ⟨w.extractLsb' 21 5, w.extractLsb' 16 5, w.extractLsb' 0 16⟩
/-- The fields of the shift-immediate form. -/
def decSh (w : Word) : ShArgs := ⟨w.extractLsb' 21 5, w.extractLsb' 16 5, w.extractLsb' 0 5⟩
/-- The fields of format B. -/
def decB (w : Word) : BArgs := ⟨w.extractLsb' 21 5, w.extractLsb' 16 5, w.extractLsb' 0 16⟩
/-- The fields of the system form with a scope. -/
def decS (w : Word) : SArgs := ⟨w.extractLsb' 21 5, w.extractLsb' 16 5, w.extractLsb' 11 5, w.extractLsb' 8 3⟩
/-- The fields of format V. -/
def decV (w : Word) : VArgs :=
  ⟨w.extractLsb' 22 4, w.extractLsb' 18 4, w.extractLsb' 14 4, w.extractLsb' 10 4, w.extractLsb' 8 2⟩
/-- The fields of format X. -/
def decX (w : Word) : XArgs :=
  ⟨w.extractLsb' 22 4, w.extractLsb' 18 4, w.extractLsb' 13 5, w.extractLsb' 8 5, w.extractLsb' 6 2⟩
/-- The fields of format C. -/
def decC (w : Word) : CArgs :=
  ⟨w.extractLsb' 22 4, w.extractLsb' 18 4, w.extractLsb' 14 4, w.extractLsb' 10 4, w.extractLsb' 8 2⟩
/-- The fields of format P. -/
def decP (w : Word) : PArgs :=
  ⟨w.extractLsb' 22 4, w.extractLsb' 18 4, w.extractLsb' 13 5, w.extractLsb' 9 4, w.extractLsb' 8 1⟩
/-- The fields of format VM. -/
def decM (w : Word) : MArgs := ⟨w.extractLsb' 22 4, w.extractLsb' 17 5, w.extractLsb' 13 4, w.extractLsb' 0 10⟩

/-! ## Decoding (R155, R156) -/

/-- The command, where it is well formed; otherwise the word is illegal. -/
def legal (i : Instr) : Option Instr := if i.wf then some i else none

/-- Major opcode 0x00, by func. -/
def decodeAlu (d : DroverId) (w : Word) : Option Instr :=
  match (w.extractLsb' 0 11).toNat with
  | 0x000 => legal (.addR d (decR w))
  | 0x001 => legal (.subR d (decR w))
  | 0x002 => legal (.andR d (decR w))
  | 0x003 => legal (.orR d (decR w))
  | 0x004 => legal (.xorR d (decR w))
  | 0x005 => legal (.sll d (decR w))
  | 0x006 => legal (.srl d (decR w))
  | 0x007 => legal (.sra d (decR w))
  | 0x008 => legal (.slt d (decR w))
  | 0x009 => legal (.sltu d (decR w))
  | 0x00a => legal (.minR d (decR w))
  | 0x00b => legal (.maxR d (decR w))
  | 0x00c => legal (.minu d (decR w))
  | 0x00d => legal (.maxu d (decR w))
  | 0x010 => legal (.mulR d (decR w))
  | 0x011 => legal (.mulh d (decR w))
  | 0x012 => legal (.mulhu d (decR w))
  | 0x018 => legal (.divR d (decR w))
  | 0x019 => legal (.divu d (decR w))
  | 0x01a => legal (.remR d (decR w))
  | 0x01b => legal (.remu d (decR w))
  | 0x020 => legal (.clz d (decR w))
  | 0x021 => legal (.popc d (decR w))
  | _ => none

/-- Major opcode 0x08, by func. -/
def decodeScalarFp (d : DroverId) (w : Word) : Option Instr :=
  match (w.extractLsb' 0 11).toNat with
  | 0x000 => legal (.fadd d (decR w))
  | 0x001 => legal (.fsub d (decR w))
  | 0x002 => legal (.fmul d (decR w))
  | 0x003 => legal (.fma d (decR w))
  | 0x004 => legal (.fdiv d (decR w))
  | 0x005 => legal (.fsqrt d (decR w))
  | 0x006 => legal (.fmin d (decR w))
  | 0x007 => legal (.fmax d (decR w))
  | 0x008 => legal (.feq d (decR w))
  | 0x009 => legal (.flt d (decR w))
  | 0x00a => legal (.fle d (decR w))
  | 0x00b => legal (.fcvtws d (decR w))
  | 0x00c => legal (.fcvtsw d (decR w))
  | _ => none

/-- Major opcode 0x1f: whole func codes first, then the sub-operation under a scope. -/
def decodeSys (d : DroverId) (w : Word) : Option Instr :=
  match (w.extractLsb' 0 8).toNat with
  | 0x000 => if (w.extractLsb' 8 3).toNat = 0 then legal (.jalr d (decR w)) else none
  | 0x001 => if (w.extractLsb' 8 3).toNat = 0 then legal (.csrr d (decR w)) else none
  | 0x002 => if (w.extractLsb' 8 3).toNat = 0 then legal (.csrw d (decR w)) else none
  | 0x030 => if (w.extractLsb' 8 3).toNat = 0 then legal (.mlaunch d (decR w)) else none
  | 0x031 => if (w.extractLsb' 8 3).toNat = 0 then legal (.mpoll d (decR w)) else none
  | 0x03e => if (w.extractLsb' 8 3).toNat = 0 then legal (.brk d (decR w)) else none
  | 0x03f => if (w.extractLsb' 8 3).toNat = 0 then legal (.halt d (decR w)) else none
  | 0x010 => legal (.tsig d (decS w))
  | 0x011 => legal (.twait d (decS w))
  | 0x012 => legal (.tbar d (decS w))
  | 0x013 => legal (.tread d (decS w))
  | 0x020 => legal (.droverFence d (decS w))
  | _ => none

/-- Major opcode 0x20, by func. -/
def decodeVfp (d : DroverId) (w : Word) : Option Instr :=
  match (w.extractLsb' 0 8).toNat with
  | 0x00 => legal (.vaddFp d (decV w))
  | 0x01 => legal (.vsubFp d (decV w))
  | 0x02 => legal (.vmulFp d (decV w))
  | 0x03 => legal (.vfma d (decV w))
  | 0x04 => legal (.vminFp d (decV w))
  | 0x05 => legal (.vmaxFp d (decV w))
  | 0x06 => legal (.vabs d (decV w))
  | 0x07 => legal (.vneg d (decV w))
  | 0x08 => legal (.vcmpeqFp d (decV w))
  | 0x09 => legal (.vcmpltFp d (decV w))
  | 0x0a => legal (.vcmple d (decV w))
  | 0x10 => legal (.vexp2 d (decV w))
  | 0x11 => legal (.vlog2 d (decV w))
  | 0x12 => legal (.vrcp d (decV w))
  | 0x13 => legal (.vrsqrt d (decV w))
  | _ => none

/-- Major opcode 0x21, by func. -/
def decodeVint (d : DroverId) (w : Word) : Option Instr :=
  match (w.extractLsb' 0 8).toNat with
  | 0x00 => legal (.vaddInt d (decV w))
  | 0x01 => legal (.vsubInt d (decV w))
  | 0x02 => legal (.vmulInt d (decV w))
  | 0x03 => legal (.vaddsat d (decV w))
  | 0x04 => legal (.vminInt d (decV w))
  | 0x05 => legal (.vmaxInt d (decV w))
  | 0x08 => legal (.vcmpeqInt d (decV w))
  | 0x09 => legal (.vcmpltInt d (decV w))
  | 0x0c => legal (.vand d (decV w))
  | 0x0d => legal (.vor d (decV w))
  | 0x0e => legal (.vxor d (decV w))
  | 0x0f => legal (.vsel d (decV w))
  | 0x18 => legal (.vsll d (decV w))
  | 0x19 => legal (.vsrl d (decV w))
  | 0x1a => legal (.vsra d (decV w))
  | _ => none

/-- Major opcode 0x23, by func. -/
def decodeVred (d : DroverId) (w : Word) : Option Instr :=
  match (w.extractLsb' 0 8).toNat with
  | 0x00 => legal (.vrsum d (decV w))
  | 0x01 => legal (.vrmax d (decV w))
  | 0x02 => legal (.vrmin d (decV w))
  | 0x03 => legal (.vrmaxi d (decV w))
  | 0x04 => legal (.vradd d (decV w))
  | 0x10 => legal (.vperm d (decV w))
  | 0x11 => legal (.vrot d (decV w))
  | 0x12 => legal (.vsort d (decV w))
  | _ => none

/-- Major opcode 0x06: the shift kind in imm[15:14], imm[13:5] zero. -/
def decodeShift (d : DroverId) (w : Word) : Option Instr :=
  if (w.extractLsb' 5 9).toNat ≠ 0 then none
  else match (w.extractLsb' 14 2).toNat with
  | 0 => legal (.slli d (decSh w))
  | 1 => legal (.srli d (decSh w))
  | 2 => legal (.srai d (decSh w))
  | _ => none

/-- Major opcode 0x22, by func. -/
def decodeX (d : DroverId) (w : Word) : Option Instr :=
  match (w.extractLsb' 0 6).toNat with
  | 0 => legal (.vsplat d (decX w))
  | 1 => legal (.vins d (decX w))
  | 2 => legal (.vext d (decX w))
  | 3 => legal (.vmov d (decX w))
  | _ => none

/-- Major opcode 0x28, by func. -/
def decodeMem (d : DroverId) (w : Word) : Option Instr :=
  match (w.extractLsb' 10 3).toNat with
  | 0 => legal (.vld d (decM w))
  | 1 => legal (.vst d (decM w))
  | 2 => legal (.vgath d (decM w))
  | 3 => legal (.vscat d (decM w))
  | _ => none

/-- The command that a word stands for on a drover; none where the word is illegal (R155). -/
def drvDecode (d : DroverId) (w : Word) : Option Instr :=
  match (w.extractLsb' 26 6).toNat with
  | 0x00 => decodeAlu d w
  | 0x01 => legal (.addi d (decI w))
  | 0x02 => legal (.andi d (decI w))
  | 0x03 => legal (.ori d (decI w))
  | 0x04 => legal (.xori d (decI w))
  | 0x05 => legal (.slti d (decI w))
  | 0x07 => legal (.lui d (decI w))
  | 0x10 => legal (.lw d (decI w))
  | 0x11 => legal (.lh d (decI w))
  | 0x12 => legal (.lhu d (decI w))
  | 0x13 => legal (.lb d (decI w))
  | 0x14 => legal (.lbu d (decI w))
  | 0x15 => legal (.sw d (decI w))
  | 0x16 => legal (.sh d (decI w))
  | 0x17 => legal (.sb d (decI w))
  | 0x06 => decodeShift d w
  | 0x08 => decodeScalarFp d w
  | 0x18 => legal (.beq d (decB w))
  | 0x19 => legal (.bne d (decB w))
  | 0x1a => legal (.blt d (decB w))
  | 0x1b => legal (.bge d (decB w))
  | 0x1c => legal (.bltu d (decB w))
  | 0x1d => legal (.bgeu d (decB w))
  | 0x1e => legal (.jal d (w.extractLsb' 0 26))
  | 0x1f => decodeSys d w
  | 0x20 => decodeVfp d w
  | 0x21 => decodeVint d w
  | 0x22 => decodeX d w
  | 0x23 => decodeVred d w
  | 0x25 => if (w.extractLsb' 0 8).toNat = 0 then legal (.vcvt d (decC w)) else none
  | 0x26 => if (w.extractLsb' 0 8).toNat = 0 then legal (.vpack d (decP w)) else none
  | 0x27 => if (w.extractLsb' 0 8).toNat = 0 then legal (.vunpk d (decP w)) else none
  | 0x28 => decodeMem d w
  | _ => none

/-! ## Encoding (R154, R156) -/

/-- The word of a drover command; none for a command that is no drover instruction. -/
def drvEncode (i : Instr) : Option Word :=
  match i with
  | .addR _ a => some (encR 0x00#6 0x000#11 a)
  | .subR _ a => some (encR 0x00#6 0x001#11 a)
  | .andR _ a => some (encR 0x00#6 0x002#11 a)
  | .orR _ a => some (encR 0x00#6 0x003#11 a)
  | .xorR _ a => some (encR 0x00#6 0x004#11 a)
  | .sll _ a => some (encR 0x00#6 0x005#11 a)
  | .srl _ a => some (encR 0x00#6 0x006#11 a)
  | .sra _ a => some (encR 0x00#6 0x007#11 a)
  | .slt _ a => some (encR 0x00#6 0x008#11 a)
  | .sltu _ a => some (encR 0x00#6 0x009#11 a)
  | .minR _ a => some (encR 0x00#6 0x00a#11 a)
  | .maxR _ a => some (encR 0x00#6 0x00b#11 a)
  | .minu _ a => some (encR 0x00#6 0x00c#11 a)
  | .maxu _ a => some (encR 0x00#6 0x00d#11 a)
  | .mulR _ a => some (encR 0x00#6 0x010#11 a)
  | .mulh _ a => some (encR 0x00#6 0x011#11 a)
  | .mulhu _ a => some (encR 0x00#6 0x012#11 a)
  | .divR _ a => some (encR 0x00#6 0x018#11 a)
  | .divu _ a => some (encR 0x00#6 0x019#11 a)
  | .remR _ a => some (encR 0x00#6 0x01a#11 a)
  | .remu _ a => some (encR 0x00#6 0x01b#11 a)
  | .clz _ a => some (encR 0x00#6 0x020#11 a)
  | .popc _ a => some (encR 0x00#6 0x021#11 a)
  | .fadd _ a => some (encR 0x08#6 0x000#11 a)
  | .fsub _ a => some (encR 0x08#6 0x001#11 a)
  | .fmul _ a => some (encR 0x08#6 0x002#11 a)
  | .fma _ a => some (encR 0x08#6 0x003#11 a)
  | .fdiv _ a => some (encR 0x08#6 0x004#11 a)
  | .fsqrt _ a => some (encR 0x08#6 0x005#11 a)
  | .fmin _ a => some (encR 0x08#6 0x006#11 a)
  | .fmax _ a => some (encR 0x08#6 0x007#11 a)
  | .feq _ a => some (encR 0x08#6 0x008#11 a)
  | .flt _ a => some (encR 0x08#6 0x009#11 a)
  | .fle _ a => some (encR 0x08#6 0x00a#11 a)
  | .fcvtws _ a => some (encR 0x08#6 0x00b#11 a)
  | .fcvtsw _ a => some (encR 0x08#6 0x00c#11 a)
  | .jalr _ a => some (encR 0x1f#6 0x000#11 a)
  | .csrr _ a => some (encR 0x1f#6 0x001#11 a)
  | .csrw _ a => some (encR 0x1f#6 0x002#11 a)
  | .mlaunch _ a => some (encR 0x1f#6 0x030#11 a)
  | .mpoll _ a => some (encR 0x1f#6 0x031#11 a)
  | .brk _ a => some (encR 0x1f#6 0x03e#11 a)
  | .halt _ a => some (encR 0x1f#6 0x03f#11 a)
  | .addi _ a => some (encI 0x01#6 a)
  | .andi _ a => some (encI 0x02#6 a)
  | .ori _ a => some (encI 0x03#6 a)
  | .xori _ a => some (encI 0x04#6 a)
  | .slti _ a => some (encI 0x05#6 a)
  | .lui _ a => some (encI 0x07#6 a)
  | .lw _ a => some (encI 0x10#6 a)
  | .lh _ a => some (encI 0x11#6 a)
  | .lhu _ a => some (encI 0x12#6 a)
  | .lb _ a => some (encI 0x13#6 a)
  | .lbu _ a => some (encI 0x14#6 a)
  | .sw _ a => some (encI 0x15#6 a)
  | .sh _ a => some (encI 0x16#6 a)
  | .sb _ a => some (encI 0x17#6 a)
  | .slli _ a => some (encSh 0#2 a)
  | .srli _ a => some (encSh 1#2 a)
  | .srai _ a => some (encSh 2#2 a)
  | .beq _ a => some (encB 0x18#6 a)
  | .bne _ a => some (encB 0x19#6 a)
  | .blt _ a => some (encB 0x1a#6 a)
  | .bge _ a => some (encB 0x1b#6 a)
  | .bltu _ a => some (encB 0x1c#6 a)
  | .bgeu _ a => some (encB 0x1d#6 a)
  | .jal _ off => some (encJ off)
  | .tsig _ a => some (encS 0x10#8 a)
  | .twait _ a => some (encS 0x11#8 a)
  | .tbar _ a => some (encS 0x12#8 a)
  | .tread _ a => some (encS 0x13#8 a)
  | .droverFence _ a => some (encS 0x20#8 a)
  | .vaddFp _ a => some (encV 0x20#6 0x00#8 a)
  | .vsubFp _ a => some (encV 0x20#6 0x01#8 a)
  | .vmulFp _ a => some (encV 0x20#6 0x02#8 a)
  | .vfma _ a => some (encV 0x20#6 0x03#8 a)
  | .vminFp _ a => some (encV 0x20#6 0x04#8 a)
  | .vmaxFp _ a => some (encV 0x20#6 0x05#8 a)
  | .vabs _ a => some (encV 0x20#6 0x06#8 a)
  | .vneg _ a => some (encV 0x20#6 0x07#8 a)
  | .vcmpeqFp _ a => some (encV 0x20#6 0x08#8 a)
  | .vcmpltFp _ a => some (encV 0x20#6 0x09#8 a)
  | .vcmple _ a => some (encV 0x20#6 0x0a#8 a)
  | .vexp2 _ a => some (encV 0x20#6 0x10#8 a)
  | .vlog2 _ a => some (encV 0x20#6 0x11#8 a)
  | .vrcp _ a => some (encV 0x20#6 0x12#8 a)
  | .vrsqrt _ a => some (encV 0x20#6 0x13#8 a)
  | .vaddInt _ a => some (encV 0x21#6 0x00#8 a)
  | .vsubInt _ a => some (encV 0x21#6 0x01#8 a)
  | .vmulInt _ a => some (encV 0x21#6 0x02#8 a)
  | .vaddsat _ a => some (encV 0x21#6 0x03#8 a)
  | .vminInt _ a => some (encV 0x21#6 0x04#8 a)
  | .vmaxInt _ a => some (encV 0x21#6 0x05#8 a)
  | .vcmpeqInt _ a => some (encV 0x21#6 0x08#8 a)
  | .vcmpltInt _ a => some (encV 0x21#6 0x09#8 a)
  | .vand _ a => some (encV 0x21#6 0x0c#8 a)
  | .vor _ a => some (encV 0x21#6 0x0d#8 a)
  | .vxor _ a => some (encV 0x21#6 0x0e#8 a)
  | .vsel _ a => some (encV 0x21#6 0x0f#8 a)
  | .vsll _ a => some (encV 0x21#6 0x18#8 a)
  | .vsrl _ a => some (encV 0x21#6 0x19#8 a)
  | .vsra _ a => some (encV 0x21#6 0x1a#8 a)
  | .vrsum _ a => some (encV 0x23#6 0x00#8 a)
  | .vrmax _ a => some (encV 0x23#6 0x01#8 a)
  | .vrmin _ a => some (encV 0x23#6 0x02#8 a)
  | .vrmaxi _ a => some (encV 0x23#6 0x03#8 a)
  | .vradd _ a => some (encV 0x23#6 0x04#8 a)
  | .vperm _ a => some (encV 0x23#6 0x10#8 a)
  | .vrot _ a => some (encV 0x23#6 0x11#8 a)
  | .vsort _ a => some (encV 0x23#6 0x12#8 a)
  | .vsplat _ a => some (encX 0#6 a)
  | .vins _ a => some (encX 1#6 a)
  | .vext _ a => some (encX 2#6 a)
  | .vmov _ a => some (encX 3#6 a)
  | .vcvt _ a => some (encC a)
  | .vpack _ a => some (encP 0x26#6 a)
  | .vunpk _ a => some (encP 0x27#6 a)
  | .vld _ a => some (encM 0#3 a)
  | .vst _ a => some (encM 1#3 a)
  | .vgath _ a => some (encM 2#3 a)
  | .vscat _ a => some (encM 3#3 a)
  | _ => none

end Sys2Proof.Machine
end

