-- ==== Sys2Proof/Machine/Formats.lean ====
section
/-! DEFINITION. Element formats by code (R18), scale modes (R19), output conversion (R40), the packed kinds of VPACK and
VUNPK (R165, R166), K4 groups (R302) and split-3 planes (R59). -/

namespace Sys2Proof.Machine

/-- The floating-point format of a code of R18. -/
def fmtOf : Nat → Option FpFmt
  | 0 => some fp32 | 1 => some bf16 | 2 => some fp16 | 3 => some e4m3 | 4 => some e5m2
  | 5 => some e2m3 | 6 => some e3m2 | 7 => some e2m1 | _ => none

/-- Bits per element of a format code (R18). -/
def fmtBits : Nat → Nat
  | 0 => 32 | 1 => 16 | 2 => 16 | 3 => 8 | 4 => 8 | 5 => 6 | 6 => 6 | 7 => 4 | 8 => 8 | 9 => 4 | 10 => 32 | 11 => 4
  | _ => 0

/-- A code names an integer format. -/
def fmtIsInt (c : Nat) : Bool := c = 8 || c = 9 || c = 10

/-- The value of element bits in a format; INT8 under scale mode 1 is MXINT8, whose element is the integer × 2⁻⁶ (R39, R165). -/
def decodeElem (c mode x : Nat) : FpVal :=
  match fmtOf c with
  | some f => decodeFp f x
  | none =>
    if c = 11 then decodeFp e2m1 x
    else if c = 8 ∧ mode = 1 then
      (match ofInt (signedOf 8 x) with | .fin s m _ => .fin s m (-6) | v => v)
    else ofInt (signedOf (fmtBits c) x)

/-- An E8M0 scale: 2^(x − 127), NaN at 0xFF (R36). -/
def decodeE8M0 (x : Nat) : FpVal := if x = 255 then qnan else .fin false 1 ((x : Int) - 127)

/-- A block scale by mode (R19); mode 0 is 1. -/
def decodeScale (mode x : Nat) : FpVal :=
  match mode with
  | 1 => decodeE8M0 x
  | 2 => decodeFp e4m3 x
  | _ => .fin false 1 0

/-- Elements per scale along K (R39); 0 for mode 0. -/
def scaleSpan (mode : Nat) : Nat := if mode = 1 then 32 else if mode = 2 then 16 else 0

/-- The bits of element j in a packed byte row: elements follow one another from the lowest bit. -/
def elemBits (row : List Byte) (bits j : Nat) : Nat :=
  let b := j * bits
  (leNat ((row.drop (b / 8)).take 5) / 2 ^ (b % 8)) % 2 ^ bits

/-- Packs element patterns of `bits` bits, lower elements in lower bits. -/
def packElems (bits : Nat) (l : List Nat) : List Byte :=
  let n := (l.foldr (fun x (acc : Nat) => x % 2 ^ bits + 2 ^ bits * acc) 0)
  leBytes (ceilDiv (l.length * bits) 8) n

/-! ## Output conversion (R40) -/

/-- A value converted to an unscaled output format: bits and flags (R40, R163; INT4 by R165). -/
def convOut (c : Nat) (v : FpVal) : Nat × FFlags :=
  match c, v with
  | 0, v => toIeee fp32 v
  | 1, v => toIeee bf16 v
  | 2, v => toIeee fp16 v
  | 3, .nan s => (if s then 0xFF else 0x7F, noFlags)
  | 3, .inf s => (maxBits e4m3 s, noFlags)
  | 3, .fin s m e => toSat e4m3 s m e
  | 4, .nan _ => (0x7E, noFlags)
  | 4, .inf s => (infBits e5m2 s, noFlags)
  | 4, .fin s m e => toSat e5m2 s m e
  | 8, v => let r := toIntSat 8 v; (wrapInt 8 r.1, r.2)
  | 9, v => let r := toIntSat 4 v; (wrapInt 4 r.1, r.2)
  | 10, v => let r := toIntSat 32 v; (wrapInt 32 r.1, r.2)
  | _, _ => (0, noFlags)

/-- The largest magnitude of a block as m × 2^e; `none` when the block holds an infinity or a NaN. -/
def blockAmax (l : List FpVal) : Option (Nat × Int) :=
  l.foldl (fun a v => match a, v with
    | some (m, e), .fin _ n f => if leDy n f m e then some (m, e) else some (n, f)
    | _, _ => none) (some (0, 0))

/-- Saturating conversion of a finite value to a format; used for scaled elements. -/
def satElem (f : FpFmt) (v : FpVal) : Nat × FFlags :=
  match v with
  | .fin s m e => toSat f s m e
  | _ => (0, noFlags)

/-- The value times 2^−x. -/
def scaleDown (v : FpVal) (x : Int) : FpVal :=
  match v with
  | .fin s m e => .fin s m (e - x)
  | v => v

/-- Flags of a list of results. -/
def orFlags (l : List (Nat × FFlags)) : FFlags := l.foldl (fun a r => a.or r.2) noFlags

/-- A mode 1 block (R40, R165): its E8M0 scale and its element patterns. `elem` narrows x / 2^exponent; `emax` is the
format's. -/
def mxBlock (emax : Int) (elem : FpVal → Nat × FFlags) (l : List FpVal) : Nat × List Nat × FFlags :=
  match blockAmax l with
  | none => (255, l.map (fun _ => 0), noFlags)
  | some (0, _) => (0, l.map (fun _ => 0), noFlags)
  | some (m, e) =>
    let x := clampInt (-127) 127 (ilog2 m e - emax)
    let r := l.map (fun v => elem (scaleDown v x))
    ((x + 127).toNat, r.map (·.1), orFlags r)

/-- An MXINT8 element: x × 64 rounded half to even and saturated (R165). -/
def mxInt8Elem (v : FpVal) : Nat × FFlags :=
  match v with
  | .fin s m e => let r := toIntSat 8 (.fin s m (e + 6)); (wrapInt 8 r.1, r.2)
  | _ => (0, noFlags)

/-- The smallest positive E4M3 pattern not less than m × 2^e / (n × 2^f); 448 when the quotient exceeds 448 (R165, R302). -/
def ceilE4M3 (m : Nat) (e : Int) (n : Nat) (f : Int) : Nat :=
  let ok := fun (c : Nat) => match decodeFp e4m3 c with
    | .fin _ a b => leDy m e (a * n) (b + f)
    | _ => false
  ((List.range 127).find? (fun c => 0 < c && ok c)).getD 126

/-- A fine group (mode 2, K4): its E4M3 scale and element patterns x / scale, nearest-even and saturated (R165, R302). -/
def fineGroup (f : FpFmt) (l : List FpVal) : Nat × List Nat × FFlags :=
  match blockAmax l with
  | none => (0x7F, l.map (fun _ => 0), noFlags)
  | some (0, _) => (0, l.map (fun _ => 0), noFlags)
  | some (m, e) =>
    let sc := ceilE4M3 m e f.maxM f.maxE
    let r := l.map (fun v => match v, decodeFp e4m3 sc with
      | .fin s a b, .fin _ n g =>
        let q := divMag a b n g
        let rr := roundMag f q.1 q.2.1 q.2.2
        if rr.exceeded then (maxBits f s, ({ ov := true, nx := true } : FFlags))
        else (encodeFin f s rr.m rr.e, { uf := rr.under, nx := rr.inexact })
      | _, _ => (0, noFlags))
    (sc, r.map (·.1), orFlags r)

/-! ## VPACK and VUNPK kinds (R165) -/

/-- Element bits of a pack kind. -/
def kindBits : Nat → Nat
  | 0 => 8 | 1 => 8 | 2 => 6 | 3 => 6 | 4 => 4 | 5 => 8 | 6 => 8 | 7 => 6 | 8 => 4 | 9 => 4 | 10 => 4 | _ => 0

/-- Kinds that write 16 bytes and so have two parts. -/
def kindHalf (k : Nat) : Bool := kindBits k = 4

/-- The format code of a kind's elements. -/
def kindFmt : Nat → Nat
  | 0 => 3 | 1 => 4 | 2 => 5 | 3 => 6 | 4 => 7 | 5 => 8 | 6 => 3 | 7 => 5 | 8 => 7 | 9 => 9 | 10 => 7 | _ => 0

/-- The scale mode of a kind. -/
def kindMode (k : Nat) : Nat := if k ≤ 5 then 1 else if k = 9 then 0 else 2

/-- emax of a mode 1 format (R165). -/
def emaxOf : Nat → Int
  | 3 => 8 | 4 => 15 | 5 => 2 | 6 => 4 | 7 => 2 | _ => 0

/-- Packs 32 values: packed bytes, the scales word and the flags. -/
def packKind (k : Nat) (l : List FpVal) : List Byte × Nat × FFlags :=
  if kindMode k = 1 then
    let r := if k = 5 then mxBlock 0 mxInt8Elem l
      else match fmtOf (kindFmt k) with
        | some f => mxBlock (emaxOf (kindFmt k)) (satElem f) l
        | none => (0, [], noFlags)
    (packElems (kindBits k) r.2.1, r.1, r.2.2)
  else if k = 9 then
    let r := l.map (fun v => let q := toIntSat 4 v; (wrapInt 4 q.1, q.2))
    (packElems 4 (r.map (·.1)), 0, orFlags r)
  else
    match fmtOf (kindFmt k) with
    | some f =>
      let a := fineGroup f (l.take 16)
      let b := fineGroup f (l.drop 16)
      (packElems (kindBits k) (a.2.1 ++ b.2.1), a.1 + 256 * b.1, a.2.2.or b.2.2)
    | none => ([], 0, noFlags)

/-- Decodes 32 packed values with their scales (R166): each FP32 value exact, NaN where the scale is the NaN code. -/
def unpackKind (k : Nat) (bs : List Byte) (scales : Nat) : List Nat :=
  (List.range 32).map (fun i =>
    let x := elemBits bs (kindBits k) i
    let sb := if kindMode k = 2 then (if i < 16 then scales % 256 else scales / 256 % 256) else scales % 256
    if (kindMode k = 1 && sb = 255) || (kindMode k = 2 && sb = 0x7F) then canonNaN fp32
    else (toIeee fp32 (mulV (decodeElem (kindFmt k) (kindMode k) x) (decodeScale (kindMode k) sb))).1)

/-! ## Scaled outputs of the finishing unit (R40, R303) -/

/-- One output row in a scaled or packed format: element bytes and scale bytes. FP8 and FP4 under mode 1 take blocks of 32;
K4 takes groups of 16 and keeps its scales behind its elements (R303). -/
def outRow (c mode : Nat) (row : List FpVal) : List Byte × List Byte :=
  if c = 11 then
    let g := (chunksOf 16 row).map (fineGroup e2m1)
    (packElems 4 (g.map (·.2.1)).flatten, g.map (fun x => BitVec.ofNat 8 x.1))
  else if mode = 1 then
    match fmtOf c with
    | some f =>
      let g := (chunksOf 32 row).map (mxBlock (emaxOf c) (satElem f))
      (packElems (fmtBits c) (g.map (·.2.1)).flatten, g.map (fun x => BitVec.ofNat 8 x.1))
    | none => ([], [])
  else (packElems (fmtBits c) (row.map (fun v => (convOut c v).1)), [])

/-! ## Split-3 (R59) -/

/-- The three BF16 planes of an FP32 value, hi, mid and lo. -/
def split3 (v : FpVal) : FpVal × FpVal × FpVal :=
  let b := fun (x : FpVal) => decodeFp bf16 (toIeee bf16 x).1
  let hi := b v
  let mid := b (rnd32 (addV v hi.neg))
  let lo := b (rnd32 (addV (rnd32 (addV v hi.neg)) mid.neg))
  (hi, mid, lo)

end Sys2Proof.Machine
end

