-- ==== Sys2Proof/Machine/WordCode.lean ====
section
/-! DEFINITION. The (72,64) word code (R197, R198): columns, check bits, syndrome, and what a reader makes of a word that
bears an error pattern. -/

namespace Sys2Proof.Machine

/-- The columns h_0 to h_71 of R197, nibble by nibble. -/
def codeColumns : List Nat :=
  [0x1F, 0x2C, 0x4A, 0x86, 0x1C, 0x2A, 0x46, 0x8F, 0x1A, 0x26, 0x4F, 0x8C,
   0x16, 0x2F, 0x4C, 0x8A, 0x13, 0x23, 0x43, 0x83, 0x15, 0x25, 0x45, 0x85,
   0x19, 0x29, 0x49, 0x89, 0xEF, 0xEC, 0xDA, 0xD6, 0xF1, 0xC2, 0xA4, 0x68] ++
  [0xC1, 0xA2, 0x64, 0xF8, 0xA1, 0x62, 0xF4, 0xC8, 0x61, 0xF2, 0xC4, 0xA8,
   0x31, 0x32, 0x34, 0x38, 0x51, 0x52, 0x54, 0x58, 0x91, 0x92, 0x94, 0x98,
   0xFE, 0xCE, 0xAD, 0x6D, 0x01, 0x02, 0x04, 0x08, 0x10, 0x20, 0x40, 0x80]

/-- The XOR of the columns of the bits that are one, from bit k up. -/
def xorColumns (x : Nat) : Nat → List Nat → Nat
  | _, [] => 0
  | k, h :: t => (if x.testBit k then h else 0) ^^^ xorColumns x (k + 1) t

/-- The syndrome of a 72-bit word or of an error pattern (R197). -/
def syndrome (w : Nat) : Nat := xorColumns w 0 codeColumns

/-- The check bits of 64 data bits: the byte that makes the syndrome zero. -/
def checkByte (d : Nat) : Nat := xorColumns (d % 2 ^ 64) 0 (codeColumns.take 64)

/-- What a reader makes of a word (R198). -/
inductive WordRead where
  | clean (d : Nat)
  | corrected (d : Nat)
  | bad
  deriving DecidableEq, Repr

/-- Data bits `d` that bear the error pattern `e`: a zero syndrome is no error, one column is corrected by inverting its
bit, any other syndrome is uncorrectable. -/
def readWord (d e : Nat) : WordRead :=
  let y := syndrome e
  if y = 0 then .clean (d ^^^ (e % 2 ^ 64))
  else match codeColumns.findIdx? (· = y) with
    | some k => .corrected (d ^^^ ((e ^^^ 2 ^ k) % 2 ^ 64))
    | none => .bad

end Sys2Proof.Machine
end

