-- ==== Sys2Proof/Machine/Ops.lean ====
section
/-! DEFINITION. The named operations over the state: units by index, register words, the partitions of the image in force,
memory by global address, event records (R15, R389), freezes (R474) and MSI-X (R390). -/

namespace Sys2Proof.Machine

/-- The answer of a meaning. -/
abbrev Ans := Host.Outcome State Fault Refusal

/-! ## Units by index -/

/-- Queue q. -/
def getQ (s : State) (q : Nat) : Queue := tabGet {} s.host.queues q
/-- Changes queue q. -/
def modQ (s : State) (q : Nat) (f : Queue → Queue) : State :=
  { s with host := { s.host with queues := tabMod {} s.host.queues q f } }
/-- Engine e. -/
def getEng (s : State) (e : Nat) : Engine := tabGet {} s.comp.engines e
/-- Changes engine e. -/
def modEng (s : State) (e : Nat) (f : Engine → Engine) : State :=
  { s with comp := { s.comp with engines := tabMod {} s.comp.engines e f } }
/-- Cluster c. -/
def getClu (s : State) (c : Nat) : Cluster := tabGet {} s.comp.clusters c
/-- Changes cluster c. -/
def modClu (s : State) (c : Nat) (f : Cluster → Cluster) : State :=
  { s with comp := { s.comp with clusters := tabMod {} s.comp.clusters c f } }
/-- Ring n of engine e. -/
def getRing (s : State) (e n : Nat) : Ring := tabGet {} s.comp.rings (16 * e + n)
/-- Changes ring n of engine e. -/
def modRing (s : State) (e n : Nat) (f : Ring → Ring) : State :=
  { s with comp := { s.comp with rings := tabMod {} s.comp.rings (16 * e + n) f } }
/-- Channel x, where it runs a manifest. -/
def getChan (s : State) (x : Nat) : Option Chan := tabFind s.comp.chans x
/-- Writes or frees channel x. -/
def setChan (s : State) (x : Nat) (c : Option Chan) : State :=
  { s with comp := { s.comp with chans := tabSet s.comp.chans x c } }
/-- Drover d. -/
def getDrv (s : State) (d : Nat) : Drover := tabGet {} s.comp.drovers d
/-- Changes drover d. -/
def modDrv (s : State) (d : Nat) (f : Drover → Drover) : State :=
  { s with comp := { s.comp with drovers := tabMod {} s.comp.drovers d f } }
/-- Drover group g = 4 × engine + group. -/
def getGrp (s : State) (g : Nat) : Group := tabGet {} s.comp.groups g
/-- Changes drover group g. -/
def modGrp (s : State) (g : Nat) (f : Group → Group) : State :=
  { s with comp := { s.comp with groups := tabMod {} s.comp.groups g f } }
/-- Stream st. -/
def getStream (s : State) (st : Nat) : Stream := tabGet {} s.kv.streams st
/-- Changes stream st. -/
def modStream (s : State) (st : Nat) (f : Stream → Stream) : State :=
  { s with kv := { s.kv with streams := tabMod {} s.kv.streams st f } }
/-- Convoy channel c. -/
def getConv (s : State) (c : Nat) : Convoy := tabGet {} s.conv.chans c
/-- Changes convoy channel c. -/
def modConv (s : State) (c : Nat) (f : Convoy → Convoy) : State :=
  { s with conv := { s.conv with chans := tabMod {} s.conv.chans c f } }
/-- Adder bank b; at reset eight banks serve and the ninth is the spare (R265, R299). -/
def bankReset (b : Nat) : Bank := { serving := decide (b < 8), gen := if b < 8 then 1 else 0 }
/-- Adder bank b. -/
def getBank (s : State) (b : Nat) : Bank := (tabFind s.conv.banks b).getD (bankReset b)
/-- Writes adder bank b. -/
def setBank (s : State) (b : Nat) (x : Bank) : State :=
  { s with conv := { s.conv with banks := tabSet s.conv.banks b (some x) } }
/-- Group table entry g, where it is valid. -/
def getGroup (s : State) (g : Nat) : Option GroupEntry := tabFind s.conv.groups g
/-- Writes or invalidates group entry g. -/
def setGroup (s : State) (g : Nat) (x : Option GroupEntry) : State :=
  { s with conv := { s.conv with groups := tabSet s.conv.groups g x } }
/-- Port p. -/
def getPort (s : State) (p : Nat) : Port := tabGet {} s.fab.ports p
/-- Changes port p. -/
def modPort (s : State) (p : Nat) (f : Port → Port) : State :=
  { s with fab := { s.fab with ports := tabMod {} s.fab.ports p f } }
/-- Stack k. -/
def getStack (s : State) (k : Nat) : Stack := tabGet {} s.mem.stackTab k
/-- Changes stack k. -/
def modStack (s : State) (k : Nat) (f : Stack → Stack) : State :=
  { s with mem := { s.mem with stackTab := tabMod {} s.mem.stackTab k f } }
/-- Changes the epoch. -/
def modEpoch (s : State) (f : Epoch → Epoch) : State := { s with fab := { s.fab with epoch := f s.fab.epoch } }
/-- Changes the power controller. -/
def modPower (s : State) (f : Power → Power) : State := { s with power := f s.power }
/-- Changes the weighhouse. -/
def modWeigh (s : State) (f : Weigh → Weigh) : State := { s with weigh := f s.weigh }
/-- Changes CFG. -/
def modCfg (s : State) (f : Cfg → Cfg) : State := { s with cfg := f s.cfg }
/-- Changes the security engine. -/
def modSec (s : State) (f : Sec → Sec) : State := { s with sec := f s.sec }
/-- Changes resets, freeze and pins. -/
def modDev (s : State) (f : Device → Device) : State := { s with dev := f s.dev }
/-- Sends or drives an output. -/
def emit (s : State) (o : Out) : State := { s with out := s.out ++ [o] }
/-- Draws a fresh number for a free value (log 5). -/
def drawn (s : State) : State := { s with fresh := s.fresh + 1 }

/-! ## Indices (R3) -/

/-- The cluster of an engine. -/
def cluOf (e : Nat) : Nat := e / 16
/-- The engine of a drover. -/
def engOf (d : Nat) : Nat := d / 64
/-- The group, 4 × engine + group, of a drover. -/
def grpOf (d : Nat) : Nat := d / 16
/-- The SKV1152-M36, by the grade of GLB_IDENT. -/
def smallGrade (s : State) : Bool := (s.ident >>> 12).toNat = 1
/-- Logical cluster c is present on the grade (R3). -/
def cluPresent (s : State) (c : Nat) : Bool :=
  decide (c < 80) && !(smallGrade s && ((decide (36 ≤ c) && decide (c < 40)) || decide (76 ≤ c)))
/-- Logical engine e is present. -/
def engPresent (s : State) (e : Nat) : Bool := decide (e < 1280) && cluPresent s (cluOf e)
/-- Engine e is in service: a slot serves it and its cluster is in service (R462, R467). -/
def engIn (s : State) (e : Nat) : Bool :=
  engPresent s e && !(getEng s e).retired && (getClu s (cluOf e)).cstate = 0
/-- A host has the image of parked engine e swapped in (R463). -/
def engHosted (s : State) (e : Nat) : Bool := s.comp.engines.any (fun x => x.2.swapped = some e)
/-- The drovers of engine e can run: its own slot holds its image, or a host does. -/
def engRuns (s : State) (e : Nat) : Bool := (engIn s e && (getEng s e).swapped.isNone) || engHosted s e

/-! ## Register words -/

/-- The reset value of the writable part of the word at a BAR0 offset, where it is not zero. -/
def regReset (o : Nat) : Word :=
  if 0x100000 ≤ o ∧ o < 0x200000 ∧ o % 0x1000 = 0x18 then 0x00002100
  else if o = 0x300004 then 0xC80CE400
  else if o = 0x300008 then 0x40940000
  else if 0x500000 ≤ o ∧ o < 0x500200 ∧ o % 16 = 8 then 0x00000400
  else if 0x600000 ≤ o ∧ o < 0x604000 ∧ o % 16 = 8 then 0x20800032
  else if o = 0x900018 then 0x00001000
  else if o = 0xB0000C then 0x60000000
  else if o = 0xB0003C then 0x00000007
  else if o = 0xB00040 then 0x80000000
  else 0

/-- The writable part of the word at a BAR0 offset. -/
def regWord (s : State) (o : Nat) : Word := (tabFind s.host.regs o).getD (regReset o)
/-- Field hi:lo of that word. -/
def regField (s : State) (o hi lo : Nat) : Nat := bitsOf (regWord s o).toNat hi lo
/-- Replaces that word. -/
def setReg (s : State) (o : Nat) (w : Word) : State :=
  { s with host := { s.host with regs := tabSet s.host.regs o (if w = regReset o then none else some w) } }
/-- Replaces field hi:lo of a word by a value. -/
def putField (w : Word) (hi lo v : Nat) : Word :=
  let m := (2 ^ (hi + 1 - lo) - 1) * 2 ^ lo
  BitVec.ofNat 32 (w.toNat - (w.toNat &&& m) + (v * 2 ^ lo &&& m))
/-- Replaces field hi:lo of a register word. -/
def setField (s : State) (o hi lo v : Nat) : State := setReg s o (putField (regWord s o) hi lo v)
/-- A 56-bit address held in a LO word (bits 31:low) and a HI word. -/
def regAddr (s : State) (lo : Nat) (low : Nat) : Nat :=
  regField s lo 31 low * 2 ^ low + regField s (lo + 4) 23 0 * 2 ^ 32

/-- Page of queue q in the HQ block (R13). -/
def hqOff (q : Nat) : Nat := 0x100000 + 0x1000 * q
/-- Page of event queue i. -/
def evqOff (i : Nat) : Nat := 0x200000 + 0x100 * i
/-- GLB_CTX_n. -/
def ctxOff (c : Nat) : Nat := 0x001000 + 0x10 * c
/-- Translation page of a context. -/
def xltOff (c : Nat) : Nat := 0x700000 + 0x100 * c
/-- Partition tables page. -/
def xltPartOff (p : Nat) : Nat := 0x708000 + 0x40 * p

/-- The context a queue is bound to (HQ_BIND). -/
def qCtx (s : State) (q : Nat) : Nat := regField s (hqOff q + 0x1C) 31 26
/-- Attachment of a queue. -/
def qAttach (s : State) (q : Nat) : Nat := regField s (hqOff q + 0x1C) 25 24
/-- The function index a queue is bound to. -/
def qFn (s : State) (q : Nat) : Nat := 32 * (qAttach s q % 2) + regField s (hqOff q + 0x1C) 23 19
/-- The fabric ID of the host of a fabric queue. -/
def qFid (s : State) (q : Nat) : Nat := regField s (hqOff q + 0x1C) 18 5
/-- Latency class. -/
def qLatency (s : State) (q : Nat) : Bool := regField s (hqOff q + 0x18) 23 23 = 1
/-- Batched mode. -/
def qBatched (s : State) (q : Nat) : Bool := regField s (hqOff q + 0x18) 22 22 = 1
/-- Enabled. -/
def qEnabled (s : State) (q : Nat) : Bool := regField s (hqOff q + 0x24) 31 31 = 1
/-- Submission slots. -/
def sqSize (s : State) (q : Nat) : Nat := 2 ^ (regField s (hqOff q + 0x18) 31 28 + 4)
/-- Completion entries. -/
def cqSize (s : State) (q : Nat) : Nat := 2 ^ (regField s (hqOff q + 0x18) 27 24 + 4)
/-- Context priority (R393). -/
def ctxPriority (s : State) (c : Nat) : Nat := regField s (ctxOff c) 31 28
/-- Event function index of a context (R389); a fabric attachment uses the slot of the function number (log 16). -/
def ctxEventFn (s : State) (c : Nat) : Nat := 32 * (regField s (ctxOff c) 27 26 % 2) + regField s (ctxOff c) 25 21

/-! ## Partitions of the image in force -/

/-- The partitions in force that have been started; none under the null configuration. -/
def parts (s : State) : List Partition :=
  match s.cfg.image with | none => [] | some i => i.parts.filter (fun p => !s.cfg.notStarted.contains p.part)
/-- Partition p. -/
def getPart (s : State) (p : Nat) : Option Partition := (parts s).find? (fun x => x.part = p)
/-- The partition for which a test holds. -/
def partWhere (s : State) (f : Partition → Bool) : Option Partition := (parts s).find? f
/-- The partition of a context. -/
def partOfCtx (s : State) (c : Nat) : Option Partition := partWhere s (fun x => x.contexts.contains c)
/-- The partition of a cluster. -/
def partOfClu (s : State) (c : Nat) : Option Partition := partWhere s (fun x => x.clusters.contains c)
/-- The partition of a function. -/
def partOfFn (s : State) (f : Nat) : Option Partition := partWhere s (fun x => x.functions.contains f)
/-- The partition of a stack. -/
def partOfStack (s : State) (k : Nat) : Option Partition := partWhere s (fun x => x.stackIds.contains k)
/-- Its index, 0xFF for none. -/
def partIdx (p : Option Partition) : Nat := match p with | none => 255 | some x => x.part
/-- `pcie_use` of a port (R433); 0 under the null configuration makes no port in use, but see `portInUse`. -/
def pcieUse (s : State) (p : Nat) : Nat :=
  match s.cfg.image with | none => 0 | some i => bitsOf i.pcieUse.toNat (2 * p + 1) (2 * p)
/-- A PCIe port is in use (R433). -/
def portInUse (s : State) (p : Nat) : Bool := decide (pcieUse s p ≠ 0)
/-- A function is the owner of every partition (R261, R481). -/
def ownsAll (s : State) (f : Nat) : Bool := !(parts s).isEmpty && (parts s).all (fun p => p.ownerFn = f)
/-- The function is the owner of partition p. -/
def ownsPart (s : State) (f p : Nat) : Bool := (parts s).any (fun x => x.part = p && x.ownerFn = f)
/-- Allocatable size of a partition (R183). -/
def allocSize (p : Partition) : Nat := p.stackIds.length * (52 * 2 ^ 30)
/-- The local address of partition offset x (R183). -/
def partAddr (p : Partition) (x : Nat) : Nat :=
  ((p.stackIds.drop (x / (52 * 2 ^ 30))).headD 0) * 0x1000000000 + x % (52 * 2 ^ 30)
/-- GiB that pseudo-channel retirements took from a stack; a range is taken after its copy (R465). -/
def takenGib (s : State) (k : Nat) : Nat :=
  (getStack s k).retired.length - b2n (getStack s k).copying.isSome
/-- A local HBM address lies in the allocatable space of a partition (R183, R465). -/
def inAlloc (s : State) (p : Partition) (a : Nat) : Bool :=
  p.stackIds.contains (a / 0x1000000000) &&
    decide (a % 0x1000000000 < (52 - takenGib s (a / 0x1000000000)) * 2 ^ 30)

/-! ## The canonical form of the state's tables -/

/-- The memories are in canonical form: addresses strictly rising, no listed byte equal to what an unlisted one reads as. -/
def Memory.wf (m : Memory) : Bool :=
  tabWf 0 m.cells && tabRising m.outside && tabRising m.errors && tabWf {} m.stackTab
/-- The tables of the host face are in canonical form. -/
def HostSide.wf (h : HostSide) : Bool :=
  tabRising h.regs && tabWf 0 h.latched && tabWf {} h.accErr && tabWf {} h.queues && tabWf {} h.evqs
/-- A drover's register files are in canonical form. -/
def Drover.wf (v : Drover) : Bool := tabWf 0 v.x && tabWf 0 v.v
/-- The tables of the compute side are in canonical form, the local, instruction and accumulator memories among them. -/
def Compute.wf (c : Compute) : Bool :=
  tabWf {} c.engines && tabWf {} c.clusters && tabWf {} c.rings && tabRising c.chans && tabWf {} c.drovers &&
  c.drovers.all (fun v => v.2.wf) && tabWf {} c.groups && tabWf 0 c.lstore && tabWf 0 c.istore && tabWf 0 c.acc
/-- The tables of the tallies, pages and streams, groups and channels, ports and counters are in canonical form. -/
def Sync.wf (x : Sync) : Bool := tabRising x.tallies
/-- As above, for pages and streams. -/
def Kv.wf (x : Kv) : Bool :=
  tabWf 0 x.waybill && tabRising x.sequences && tabRising x.swapUsed && tabWf {} x.streams
/-- As above, for the convoy engine. -/
def ConvoySide.wf (x : ConvoySide) : Bool := tabRising x.groups && tabWf {} x.chans && tabRising x.banks
/-- As above, for the fabric. -/
def Fabric.wf (x : Fabric) : Bool :=
  tabWf {} x.ports && tabWf 0 x.flowSent && tabWf 0 x.flowSeen && tabWf 0 x.counters && tabWf 0 x.shadows
/-- Every table of the state is in canonical form, so that equal contents are equal data. -/
def State.wf (s : State) : Bool :=
  s.mem.wf && s.host.wf && s.comp.wf && s.sync.wf && s.kv.wf && s.conv.wf && s.fab.wf

/-! ## Memory by global address -/

/-- Whether a local address holds something a context may reach (R181, R182). -/
inductive Place where
  | hbm
  | scratch (e off : Nat)
  | serai (c off : Nat)
  | mirror (off : Nat)
  | reserved
  | nothing
  | host (port addr : Nat)
  | fabric (fid off : Nat)
  deriving DecidableEq, Repr

/-- What a global address names (R180, R181). -/
def placeOf (s : State) (a : Nat) : Place :=
  let r := (a / 2 ^ 54) % 4
  let b := a % 2 ^ 54
  if r = 1 then .host 0 b
  else if r = 2 then .host 1 b
  else if r = 3 then .fabric (b / 2 ^ 40) (b % 2 ^ 40)
  else if b < 0xC000000000 then
    (if b % 0x1000000000 < 0xD00000000 then .hbm
     else if b % 0x1000000000 < 0xE38E00000 then .reserved else .nothing)
  else if 0x10000000000 ≤ b ∧ b < 0x10000000000 + 1280 * 0x100000 then
    let x := b - 0x10000000000
    if x % 0x100000 < 0x80000 && engPresent s (x / 0x100000) then .scratch (x / 0x100000) (x % 0x100000) else .nothing
  else if 0x11000000000 ≤ b ∧ b < 0x11000000000 + 80 * 0x1000000 then
    let x := b - 0x11000000000
    if x % 0x1000000 < 0x800000 && cluPresent s (x / 0x1000000) then .serai (x / 0x1000000) (x % 0x1000000) else .nothing
  else if 0x12000000000 ≤ b ∧ b < 0x12004000000 then .mirror (b - 0x12000000000)
  else .nothing

/-! ## Counters (R483) -/

/-- Key of a counter: group, instance, counter. -/
def ctrKey (g i c : Nat) : Nat := (g * 65536 + i) * 16 + c
/-- Adds to a live counter. -/
def addCtr (s : State) (g i c n : Nat) : State :=
  { s with fab := { s.fab with counters := tabMod 0 s.fab.counters (ctrKey g i c) (fun x => (x + n) % 2 ^ 64) } }

/-- The pseudo-channel of an HBM address. -/
def pcAt (a : Nat) : Nat := Config.pcOf (a % 0x1000000000) % 64

/-- A corrected word counts against its unit (R199), and within its window of 2^20 stages (R465). -/
def noteCorrected (s : State) (a : Nat) : State :=
  match placeOf s a with
  | .hbm =>
    let k := a / 0x1000000000
    let w := s.stage.toNat / 2 ^ 20
    modStack (addCtr s 5 (64 * k + pcAt a) 2 1) k (fun x => { x with
      corrected := tabMod (0, 0) x.corrected (pcAt a) (fun n => if n.1 = w then (w, n.2 + 1) else (w, 1)) })
  | .scratch e _ => addCtr s 2 e 11 1
  | .serai c _ => addCtr s 4 c 5 1
  | _ => s

/-- An uncorrectable word counts against its pseudo-channel, with its burst and stage (R465). -/
def noteBad (s : State) (burst : Nat) : State :=
  match placeOf s burst with
  | .hbm =>
    let k := burst / 0x1000000000
    modStack (addCtr s 5 (64 * k + pcAt burst) 3 1) k (fun x => { x with
      uncorrectable := tabMod [] x.uncorrectable (pcAt burst) (fun l => l ++ [(burst, s.stage)]) })
  | _ => s

/-- Scratchpad byte address of engine e. -/
def spadAddr (e off : Nat) : Nat := 0x10000000000 + e * 0x100000 + off
/-- Serai memory byte address of cluster c. -/
def seraiAddr (c off : Nat) : Nat := 0x11000000000 + c * 0x1000000 + off

/-- One byte of local memory; unlisted bytes are zero (log 6). -/
def memByte (s : State) (a : Nat) : Byte := tabGet 0 s.mem.cells a
/-- n bytes of local memory. -/
def memBytes (s : State) (a n : Nat) : List Byte := (upFrom a n).map (memByte s)
/-- One byte as the block sees it at a global address: local memory, or what lies outside (log 7). -/
def gByte (s : State) (a : Nat) : Byte :=
  if a < 2 ^ 54 then memByte s a else (tabFind s.mem.outside a).getD (Config.outsideByte a)
/-- n bytes at a global address. -/
def gBytes (s : State) (a n : Nat) : List Byte := (upFrom a n).map (gByte s)

/-- Writes bytes into the local cells. -/
def putCells (m : List Host.Cell) : Nat → List Byte → List Host.Cell
  | _, [] => m
  | a, b :: t => putCells (tabPut 0 m a b) (a + 1) t
/-- Writes bytes at outside addresses. -/
def putOutside (m : Tab Byte) : Nat → List Byte → Tab Byte
  | _, [] => m
  | a, b :: t => putOutside (tabSet m a (some b)) (a + 1) t

/-- What a reader makes of word w of local memory. -/
def wordSeen (s : State) (w : Nat) : WordRead :=
  match tabFind s.mem.errors w with
  | none => .clean (leNat (memBytes s (8 * w) 8))
  | some e => readWord (leNat (memBytes s (8 * w) 8)) e.toNat

/-- Word w cannot be corrected. -/
def wordBad (s : State) (w : Nat) : Bool := wordSeen s w = .bad

/-- One byte as a reader sees it after correction; the stored byte where its word is uncorrectable (no consumer uses it). -/
def byteSeen (s : State) (a : Nat) : Byte :=
  match wordSeen s (a / 8) with
  | .clean d => BitVec.ofNat 8 (d / 2 ^ (8 * (a % 8)))
  | .corrected d => BitVec.ofNat 8 (d / 2 ^ (8 * (a % 8)))
  | .bad => memByte s a

/-- n bytes of local memory as a reader sees them. -/
def localRead (s : State) (a n : Nat) : List Byte :=
  if s.mem.errors.isEmpty then memBytes s a n else (upFrom a n).map (byteSeen s)

/-- The error patterns among the words that a range touches. -/
def errWords (s : State) (a n : Nat) : List Nat :=
  if n = 0 then []
  else (s.mem.errors.map (·.1)).filter (fun w => decide (a / 8 ≤ w) && decide (w ≤ (a + n - 1) / 8))

/-- The aligned 128-byte burst of the first uncorrectable word that a local range touches. -/
def badBurst (s : State) (a n : Nat) : Option Nat :=
  ((errWords s a n).find? (wordBad s)).map (fun w => 8 * w / 128 * 128)

/-- Writes one word back as its reader corrected it (R199). -/
def writeBack (s : State) (w : Nat) : State :=
  let fix := fun d => noteCorrected { s with mem := { s.mem with
    cells := putCells s.mem.cells (8 * w) (leBytes 8 d), errors := tabSet s.mem.errors w none } } (8 * w)
  match wordSeen s w with
  | .clean d => fix d
  | .corrected d => fix d
  | .bad => s

/-- Writes back every correctable word of a range that has been read. -/
def correctRange (s : State) (a n : Nat) : State := (errWords s a n).foldl writeBack s

/-- Writing a whole word leaves it valid (R202): error patterns of the words wholly written are dropped. -/
def clearErrors (e : Tab (BitVec 72)) (a n : Nat) : Tab (BitVec 72) :=
  tabDrop (fun w => decide (a ≤ 8 * w) && decide (8 * w + 8 ≤ a + n)) e

/-- Writes bytes, but for those of words that still bear an uncorrectable pattern (R202). -/
def putSound (e : Tab (BitVec 72)) (m : List Host.Cell) : Nat → List Byte → List Host.Cell
  | _, [] => m
  | a, b :: t => putSound e (if (tabFind e (a / 8)).isSome then m else tabPut 0 m a b) (a + 1) t

/-- Writes local bytes: a whole word becomes valid; a part of a word is merged into the corrected word; a part of an
uncorrectable word is not merged (R199, R202). -/
def memWrite (s : State) (a : Nat) (bs : List Byte) : State :=
  let s1 := correctRange s a bs.length
  let e := clearErrors s1.mem.errors a bs.length
  { s1 with mem := { s1.mem with cells := putSound e s1.mem.cells a bs, errors := e } }

/-- Performs a write at a global address that has passed its checks: local memory, a host port, or another device. -/
def gWrite (s : State) (a : Nat) (bs : List Byte) : State :=
  match placeOf s a with
  | .host p x => emit { s with mem := { s.mem with outside := putOutside s.mem.outside a bs } } (.hostWrite p x bs)
  | .fabric f x => emit { s with
      mem := { s.mem with outside := putOutside s.mem.outside a bs }
      fab := { s.fab with sent := s.fab.sent ++ [⟨1, BitVec.ofNat 14 f, 0x4000, a, bs.length, none, false⟩] } } (.rolre f 0 1 x 0 bs none)
  | _ => memWrite s a bs

/-! ## Event records (R15, R389) -/

/-- Source kind and index (R388). -/
def srcOf (kind idx : Nat) : Nat := kind * 2 ^ 28 + idx % 2 ^ 28

/-- The 32 bytes of an event record. -/
def eventBytes (code sev ctx src : Nat) (stamp : Stage) (detail : List Byte) : List Byte :=
  leBytes 2 code ++ leBytes 1 sev ++ leBytes 1 ctx ++ leBytes 4 src ++ leBytes 8 stamp.toNat ++ bytesAt detail 0 16

/-- MSI-X vector of a function. -/
def fireMsix (s : State) (fn vec : Nat) : State := emit s (.msix fn vec)

/-- Writes a record to the event queue of a function index: at the tail, then the write-back, then vector 0; discarded and
counted when the queue is full or not enabled. -/
def postEvent (s : State) (rec : List Byte) (fn : Nat) : State :=
  let o := evqOff fn
  let ev := tabGet ({} : Evq) s.host.evqs fn
  let size := 2 ^ (regField s (o + 8) 31 28 + 4)
  let tail := ev.tail.toNat % size
  let next := (tail + 1) % size
  if regField s (o + 8) 27 27 = 0 || next = regField s (o + 12) 15 0 then
    { s with host := { s.host with evqs := tabMod {} s.host.evqs fn (fun v =>
        { v with overflow := true, lost := if v.lost = 0xFFFF then v.lost else v.lost + 1 }) } }
  else
    let s1 := gWrite s (regAddr s o 12 + 32 * tail) rec
    let s2 := { s1 with host := { s1.host with evqs := tabMod {} s1.host.evqs fn (fun v =>
        { v with tail := BitVec.ofNat 16 next }) } }
    fireMsix (gWrite s2 (regAddr s (o + 0x14) 6) (leBytes 8 next)) fn 0

/-- The partitions a source unit serves (R389). -/
def servedParts (s : State) (src : Nat) : List Partition :=
  let k := src / 2 ^ 28
  let i := src % 2 ^ 28
  let one := fun (o : Option Partition) => match o with | none => [] | some p => [p]
  if k = 1 then one (partOfClu s (i / 16))
  else if k = 2 then one (partOfClu s (i / 64))
  else if k = 3 then one (partOfCtx s (qCtx s i))
  else if k = 4 then one (partOfClu s (i / 64))
  else if k = 5 then one (partWhere s (fun p => p.channels.contains i))
  else if k = 7 then one (partWhere s (fun p => decide (p.streamFirst ≤ i) && decide (i < p.streamFirst + p.streamCount)))
  else if k = 8 then one (partWhere s (fun p => p.ports.contains (i / 16)))
  else if k = 9 then one (partOfStack s (i / 64))
  else if k = 10 then one (partOfFn s i)
  else if k = 12 then one (partOfClu s i)
  else []

/-- The event queues an event goes to (R389). -/
def eventTargets (s : State) (ctx src : Nat) : List Nat :=
  if ctx ≠ 0xFF then [ctxEventFn s ctx]
  else
    let ps := servedParts s src
    if !ps.isEmpty then ps.map (·.ownerFn)
    else
      let pf := (if portInUse s 0 then [0] else []) ++ (if portInUse s 1 then [32] else [])
      if pf.isEmpty then [0] else pf

/-- Raises an event: one record for each queue it goes to, stamped with the current stage (R358). -/
def raiseEvent (s : State) (code sev ctx src : Nat) (detail : List Byte) : State :=
  let rec' := eventBytes code sev ctx src s.stage detail
  (eventTargets s ctx src).foldl (fun t fn => postEvent t rec' fn) s

/-! ## Freezes (R474, R475) -/

/-- A master is frozen. -/
def isFrozen (s : State) (kind idx : Nat) : Bool :=
  s.frozen.any (fun f => f.kind.toNat = kind && f.index.toNat = idx)

/-- Freezes a master; a master already frozen adds no entry; beyond 256 the freeze stands but is not listed. -/
def freeze (s : State) (kind idx part code : Nat) : State :=
  if isFrozen s kind idx then s
  else
    let full := decide (256 ≤ (s.frozen.filter (·.listed)).length)
    let s1 := { s with frozen := s.frozen ++ [⟨BitVec.ofNat 4 kind, BitVec.ofNat 32 idx, BitVec.ofNat 8 part,
      BitVec.ofNat 16 code, s.stage, !full, []⟩] }
    if full then modDev s1 (fun d => { d with frozenOverflow := true }) else s1

/-- Removes a master from the frozen ones. -/
def unfreeze (s : State) (kind idx : Nat) : State :=
  { s with frozen := s.frozen.filter (fun f => !(f.kind.toNat = kind && f.index.toNat = idx)) }

/-- A domain hands over to new code in a live update (R450). -/
def handing (s : State) (d : Nat) : Bool := s.sec.held = some d

/-- The device is frozen (R478). -/
def devFrozen (s : State) : Bool := s.dev.fstate = 2

end Sys2Proof.Machine
end

