-- ==== Sys2Proof/Machine/Mem.lean ====
section
/-! DEFINITION. Context translation (R185 to R190), the targets of leaves (R187), origin and export tables (R191 to R193),
accesses by context virtual address, and what a failed access does: its event and its freeze (R182, R188, R201 to R204). -/

namespace Sys2Proof.Machine

/-! ## The walk (R185, R186) -/

/-- How a translation ends: the global address of the page, its size as a power of two; a TRANSLATION_FAULT with its cause
and level; or a table word that cannot be corrected. -/
inductive WalkRes where
  | page (ga log : Nat) (entry : Nat)
  | fault (cause level : Nat)
  | bad (ga : Nat)
  deriving DecidableEq, Repr

/-- Lowest index bit of a level. -/
def lvlLow : Nat → Nat
  | 0 => 16 | 1 => 21 | 2 => 34 | _ => 47
/-- Index bits of a level. -/
def lvlBits : Nat → Nat
  | 0 => 5 | 1 => 13 | 2 => 13 | _ => 9
/-- Size of a table of a level in bytes. -/
def lvlSize (l : Nat) : Nat := 8 * 2 ^ lvlBits l
/-- Index of an address at a level. -/
def lvlIdx (l va : Nat) : Nat := bitsOf va (lvlLow l + lvlBits l - 1) (lvlLow l)

/-- A table lies in the allocatable space of the partition (R185). -/
def tableIn (s : State) (p : Partition) (l tbl : Nat) : Bool :=
  decide (tbl < 0xC000000000) && inAlloc s p tbl && inAlloc s p (tbl + lvlSize l - 1)

/-- A cached entry, where the device still holds it (R189). -/
def cachedEntry (s : State) (ctx l ga : Nat) : Option Nat :=
  (s.mem.cache.find? (fun c => c.ctx = ctx && c.level = l && c.addr = ga)).bind
    (fun c => if Config.cacheHit s.fresh then some c.value.toNat else none)

/-- The entry of an address in a table: from the cache or from memory. -/
def entryOf (s : State) (ctx l tbl va : Nat) : Nat :=
  let ga := tbl + 8 * lvlIdx l va
  (cachedEntry s ctx l ga).getD (leNat (localRead s ga 8))

/-- Reserved bits are zero, and so are `read` and `write` of a pointer (R186). -/
def entryReserved (e : Nat) : Bool := bitsOf e 63 56 ≠ 0 || bitsOf e 7 4 ≠ 0
/-- A pointer entry of R186. -/
def ptrOk (e l : Nat) : Bool := bitsOf e 3 2 = 0 && (bitsOf e 55 8 * 256) % lvlSize l = 0
/-- A leaf of R186 at level 0 or 1. -/
def leafOk (e l : Nat) : Bool := (bitsOf e 55 8 * 256) % 2 ^ lvlLow l = 0

/-- Walks from a table of level l; returns the result and the entries read, for the cache. -/
def walk (s : State) (p : Partition) (ctx va : Nat) : Nat → Nat → WalkRes × List Cached
  | 0, tbl =>
    let ga := tbl + 8 * lvlIdx 0 va
    if !tableIn s p 0 tbl then (.fault 5 0, [])
    else if (cachedEntry s ctx 0 ga).isNone && wordBad s (ga / 8) then (.bad ga, [])
    else
      let e := entryOf s ctx 0 tbl va
      let c : List Cached := [⟨ctx, 0, va, ga, BitVec.ofNat 64 e⟩]
      if !bitOf e 0 then (.fault 2 0, c)
      else if entryReserved e || !bitOf e 1 || !leafOk e 0 then (.fault 4 0, c)
      else (.page (bitsOf e 55 8 * 256) 16 e, c)
  | l + 1, tbl =>
    let ga := tbl + 8 * lvlIdx (l + 1) va
    if !tableIn s p (l + 1) tbl then (.fault 5 (l + 1), [])
    else if (cachedEntry s ctx (l + 1) ga).isNone && wordBad s (ga / 8) then (.bad ga, [])
    else
      let e := entryOf s ctx (l + 1) tbl va
      let c : Cached := ⟨ctx, l + 1, va, ga, BitVec.ofNat 64 e⟩
      if !bitOf e 0 then (.fault 2 (l + 1), [c])
      else if entryReserved e then (.fault 4 (l + 1), [c])
      else if bitOf e 1 then
        if l + 1 = 1 && leafOk e 1 then (.page (bitsOf e 55 8 * 256) 21 e, [c]) else (.fault 4 (l + 1), [c])
      else if !ptrOk e l then (.fault 4 (l + 1), [c])
      else
        let r := walk s p ctx va l (bitsOf e 55 8 * 256)
        (r.1, c :: r.2)

/-- Translation of one address of a context, and the entries read. -/
def walkCtx (s : State) (ctx va : Nat) : WalkRes × List Cached :=
  if regField s (xltOff ctx) 0 0 = 0 then (.fault 1 0xFF, [])
  else match partOfCtx s ctx with
    | none => (.fault 5 3, [])
    | some p => walk s p ctx va 3 (regAddr s (xltOff ctx) 12)

/-- Adds entries to the cache; an entry already there stays. -/
def cacheAdd (m : List Cached) (l : List Cached) : List Cached :=
  m ++ l.filter (fun c => !m.any (fun d => d.ctx = c.ctx && d.level = c.level && d.addr = c.addr))

/-! ## Targets of a leaf (R187) -/

/-- The function whose requester ID host accesses of a context use on a port. -/
def hostFn (s : State) (ctx port : Nat) : Nat :=
  32 * port + (if port = 0 then regField s (xltOff ctx + 8) 24 20 else regField s (xltOff ctx + 8) 29 25)

/-- The host-port conditions of R187. -/
def hostTarget (s : State) (p : Partition) (ctx port : Nat) : Bool :=
  portInUse s port && p.functions.contains (hostFn s ctx port)

/-- A queue is bound to a context: its attachment is not 3 and the page names the context. -/
def boundTo (s : State) (q ctx : Nat) : Bool := decide (qAttach s q ≠ 3) && decide (qCtx s q = ctx)

/-- The bytes [ga, ga + n) inside a page of 2^log bytes are a target that the leaf may map. -/
def leafTarget (s : State) (p : Partition) (ctx page log ga : Nat) : Bool :=
  let sz := 2 ^ log
  match placeOf s page with
  | .hbm => inAlloc s p page && inAlloc s p (page + sz - 1)
  | .scratch e off => p.clusters.contains (cluOf e) && decide (off + sz ≤ 0x80000)
  | .serai c off => p.clusters.contains c && decide (off + sz ≤ 0x800000)
  | .mirror _ =>
    (match placeOf s ga with
      | .mirror o => decide (0x100000 ≤ o) && decide (o < 0x200000) && boundTo s ((o - 0x100000) / 0x1000) ctx
      | _ => false)
  | .host port _ => hostTarget s p ctx port
  | .fabric _ _ => true
  | .reserved => false
  | .nothing => false

/-! ## Accesses -/

/-- Why an access is not performed. -/
inductive AccFail where
  | xlt (cause level va : Nat) (wr : Bool)
  | window (ga : Nat) (wr : Bool)
  | bad (burst : Nat)
  deriving DecidableEq, Repr

/-- The global address of one access that lies within a page, with its permission and target checks. -/
def xlate (s : State) (ctx va : Nat) (wr : Bool) : Except AccFail Nat :=
  match (walkCtx s ctx va).1 with
  | .fault c l => .error (.xlt c l va wr)
  | .bad ga => .error (.bad (ga / 128 * 128))
  | .page ga log e =>
    let x := ga + va % 2 ^ log
    if !bitOf e (if wr then 3 else 2) then .error (.xlt 3 (if log = 16 then 0 else 1) va wr)
    else match partOfCtx s ctx with
      | none => .error (.window x wr)
      | some p => if leafTarget s p ctx ga log x then .ok x else .error (.window x wr)

/-- Cuts an access into pieces within 64 KiB pages. -/
def pagePieces (va : Nat) : Nat → Nat → List (Nat × Nat)
  | 0, _ => []
  | k + 1, n =>
    if n = 0 then []
    else
      let m := min n (0x10000 - va % 0x10000)
      (va, m) :: pagePieces (va + m) k (n - m)

/-- The pieces of [va, va + n). -/
def piecesOf (va n : Nat) : List (Nat × Nat) := pagePieces va (n / 0x10000 + 2) n

/-- Global addresses and lengths of the pieces, or the first failure. -/
def xlateAll (s : State) (ctx : Nat) (wr : Bool) : List (Nat × Nat) → Except AccFail (List (Nat × Nat))
  | [] => .ok []
  | (va, n) :: t =>
    match xlate s ctx va wr with
    | .error f => .error f
    | .ok ga => match xlateAll s ctx wr t with
      | .error f => .error f
      | .ok l => .ok ((ga, n) :: l)

/-- A region of memory that single accesses cannot take as data: the register mirror (R187). -/
def isMirror (s : State) (ga : Nat) : Bool := match placeOf s ga with | .mirror _ => true | _ => false

/-- The partition in whose local HBM an address lies. -/
def partOfAddr (s : State) (a : Nat) : Option Partition :=
  if a < 0xC000000000 then partWhere s (fun p => inAlloc s p a) else none

/-- Entry i of the origin table of a partition (R192): local base, length and origin, where it is valid. -/
def originEntry (s : State) (p : Partition) (i : Nat) : Option (Nat × Nat × Nat × Nat) :=
  let a := regAddr s (xltPartOff p.part) 7 + 32 * i
  let b := localRead s a 32
  if bitOf (fieldAt b 28 1) 0 then some (fieldAt b 0 8, fieldAt b 8 8, fieldAt b 16 8, fieldAt b 24 4) else none

/-- The lowest valid origin entry that holds a local address (R192): where its master copy lies. -/
def originOf (s : State) (a : Nat) : Option Nat :=
  match partOfAddr s a with
  | none => none
  | some p =>
    ((upFrom 0 (min 1024 (regField s (xltPartOff p.part + 0x10) 31 21))).filterMap (originEntry s p)).findSome?
      (fun e => if e.1 ≤ a ∧ a < e.1 + e.2.1 then some (e.2.2.1 + (a - e.1)) else none)

/-- A range touches an origin-backed range (R203). -/
def touchesOrigin (s : State) (a n : Nat) : Bool :=
  match partOfAddr s a with
  | none => false
  | some p =>
    ((upFrom 0 (min 1024 (regField s (xltPartOff p.part + 0x10) 31 21))).filterMap (originEntry s p)).any
      (fun e => decide (a < e.1 + e.2.1) && decide (e.1 < a + n))

/-- Entries that the walks of a range read, for the cache. -/
def walkedEntries (s : State) (ctx va n : Nat) : List Cached :=
  ((piecesOf va n).map (fun x => (walkCtx s ctx x.1).2)).flatten

/-- Notes the walks of an access in the cache (R189). -/
def noteWalks (s : State) (ctx va n : Nat) : State :=
  { s with mem := { s.mem with cache := cacheAdd s.mem.cache (walkedEntries s ctx va n) } }

/-- The bytes of read pieces: a mirror access or an uncorrectable word fails. -/
def readPieces (s : State) : List (Nat × Nat) → Except AccFail (List Byte)
  | [] => .ok []
  | (ga, n) :: t =>
    if isMirror s ga then .error (.window ga false)
    else match (if ga < 2 ^ 54 then badBurst s ga n else none) with
      | some b => .error (.bad b)
      | none => match readPieces s t with
        | .error f => .error f
        | .ok l => .ok ((if ga < 2 ^ 54 then localRead s ga n else gBytes s ga n) ++ l)

/-- Reads n bytes at a context virtual address. -/
def xRead (s : State) (ctx va n : Nat) : Except AccFail (List Byte) :=
  match xlateAll s ctx false (piecesOf va n) with
  | .error f => .error f
  | .ok l => readPieces s l

/-- The state after a read: walks noted and corrected words written back (R189, R199). -/
def readDone (s : State) (ctx va n : Nat) : State :=
  match xlateAll s ctx false (piecesOf va n) with
  | .error _ => noteWalks s ctx va n
  | .ok l => l.foldl (fun t x => if x.1 < 2 ^ 54 then correctRange t x.1 x.2 else t) (noteWalks s ctx va n)

/-- The first piece of a write that may not be performed: the mirror (R187) or an origin-backed range (R203). -/
def writeBar (s : State) : List (Nat × Nat) → Option AccFail
  | [] => none
  | (ga, n) :: t =>
    if isMirror s ga || (decide (ga < 2 ^ 54) && touchesOrigin s ga n) then some (.window ga true) else writeBar s t

/-- Performs the pieces of a write. -/
def writePieces (s : State) : List (Nat × Nat) → List Byte → State
  | [], _ => s
  | (ga, n) :: t, bs => writePieces (gWrite s ga (bs.take n)) t (bs.drop n)

/-- Checks a write of n bytes at a context virtual address. -/
def xWriteCheck (s : State) (ctx va n : Nat) : Except AccFail (List (Nat × Nat)) :=
  match xlateAll s ctx true (piecesOf va n) with
  | .error f => .error f
  | .ok l => match writeBar s l with
    | some f => .error f
    | none => .ok l

/-- Writes bytes at a context virtual address; nothing is written when a piece fails. -/
def xWrite (s : State) (ctx va : Nat) (bs : List Byte) : Except AccFail State :=
  match xWriteCheck s ctx va bs.length with
  | .error f => .error f
  | .ok l => .ok (writePieces (noteWalks s ctx va bs.length) l bs)

/-- Writes several pieces of data in order; the first failure stops. -/
def xWriteAll (s : State) (ctx : Nat) : List (Nat × List Byte) → Except AccFail State
  | [] => .ok s
  | (va, bs) :: t => match xWrite s ctx va bs with
    | .error f => .error f
    | .ok s1 => xWriteAll s1 ctx t

/-- Reads rows of n bytes at the given addresses. -/
def xReadRows (s : State) (ctx n : Nat) : List Nat → Except AccFail (List (List Byte))
  | [] => .ok []
  | va :: t => match xRead s ctx va n with
    | .error f => .error f
    | .ok r => match xReadRows s ctx n t with
      | .error f => .error f
      | .ok l => .ok (r :: l)

/-! ## What a failed access does -/

/-- Detail of TRANSLATION_FAULT (R188). -/
def xltDetail (tag cause level va : Nat) (wr : Bool) : List Byte :=
  leBytes 4 tag ++ leBytes 1 cause ++ leBytes 1 level ++ leBytes 1 (b2n wr) ++ leBytes 1 0 ++ leBytes 8 (va % 2 ^ 56)

/-- Detail of WINDOW_VIOLATION for a source without a layout of its own (R16). -/
def windowDetail (tag : Nat) (wr : Bool) (ga : Nat) : List Byte :=
  leBytes 4 tag ++ leBytes 1 (b2n wr) ++ zeros 3 ++ leBytes 8 ga

/-- Freezes a context (R474 kind 1). -/
def freezeCtx (s : State) (ctx code : Nat) : State := freeze s 1 ctx (partIdx (partOfCtx s ctx)) code

/-- TRANSLATION_FAULT or WINDOW_VIOLATION of a unit that works for a packet of a context: the event and the context's
freeze (R182, R188). An uncorrectable word is not such a failure. -/
def accessFault (s : State) (ctx src tag : Nat) (f : AccFail) : State :=
  match f with
  | .xlt c l va wr => freezeCtx (raiseEvent s 0x0301 2 ctx src (xltDetail tag c l va wr)) ctx 0x0301
  | .window ga wr => freezeCtx (raiseEvent s 0x0303 2 ctx src (windowDetail tag wr ga)) ctx 0x0303
  | .bad _ => s

/-- A unit of a frozen context holds an access that failed: it makes the access again only after the release (R188, R474). -/
def heldBack (s : State) (ctx src tag : Nat) : Bool :=
  s.frozen.any (fun f => f.kind.toNat = 1 && f.index.toNat = ctx && f.waits.contains (src, tag))

/-- Notes a unit that waits for the release of its context. -/
def noteWait (s : State) (ctx src tag : Nat) : State :=
  { s with frozen := s.frozen.map (fun f =>
    if f.kind.toNat = 1 && f.index.toNat = ctx then { f with waits := (src, tag) :: f.waits } else f) }

/-- A failed access that its unit makes again after the release. While the unit waits, a repetition is no second fault. -/
def waitFault (s : State) (ctx src tag : Nat) (f : AccFail) : State :=
  if heldBack s ctx src tag then s else noteWait (accessFault s ctx src tag f) ctx src tag

/-- Where an uncorrectable word was found, byte 20 of R204, from its place. -/
def whereFound (s : State) (a : Nat) : Nat :=
  match placeOf s a with | .scratch _ _ => 2 | .serai _ _ => 3 | _ => 1

/-- UNCORRECTABLE_DATA (R204). -/
def uncorrEvent (s : State) (ctx src tag wher action burst : Nat) : State :=
  raiseEvent (noteBad s burst) 0x0304 (if action = 1 then 2 else if action = 2 then 0 else 1) ctx src
    (leBytes 4 tag ++ leBytes 1 wher ++ leBytes 1 action ++ leBytes 2 0 ++ leBytes 8 burst)

/-- A refetch of that burst is under way. -/
def refetching (s : State) (burst : Nat) : Bool := s.mem.refetches.any (fun r => r.burst = burst)

/-- A consumer meets an uncorrectable word (R201): true with a refetch started or under way, for which the consumer waits;
false when its packet ends REPLAY_REQUIRED. The record of a refetch states its outcome and is raised with it. -/
def uncorrectable (s : State) (ctx src tag : Nat) (iss : Option Issuer) (burst : Nat) : Bool × State :=
  if refetching s burst then (true, s)
  else match originOf s burst with
    | some o =>
      (true, { s with mem := { s.mem with
        refetches := s.mem.refetches ++ [⟨burst, o, iss, BitVec.ofNat 32 tag, ctx, src, whereFound s burst⟩] } })
    | none => (false, uncorrEvent s ctx src tag (whereFound s burst) 1 burst)

end Sys2Proof.Machine
end

