-- ==== Sys2Proof/Machine/TallyCore.lean ====
section
/-! DEFINITION. Tallies: records (R239), scope rules (R252), the application of one operation at its home (R244 to R247),
waiters and their release (R245, R246, R257, R258), and the faults of R253 and R254. -/

namespace Sys2Proof.Machine

/-! ## Records -/

/-- The key of a mapped tally. -/
def tallyKey (ctx vid : Nat) : Nat := ctx * 65536 + vid
/-- The tally of a virtual identifier of a context; identifier 0 never names one (R240). -/
def getTally (s : State) (ctx vid : Nat) : Option Tally :=
  if vid = 0 then none else tabFind s.sync.tallies (tallyKey ctx vid)
/-- Writes or unmaps a tally. -/
def setTally (s : State) (ctx vid : Nat) (t : Option Tally) : State :=
  { s with sync := { s.sync with tallies := tabSet s.sync.tallies (tallyKey ctx vid) t } }

/-- The 32-byte record of R239. -/
def tallyRecord (ctx vid : Nat) (t : Tally) : List Byte :=
  leBytes 4 t.value.toNat ++
  leBytes 4 (if t.barrier then t.arrivals.toNat else t.limit.toNat) ++
  leBytes 3 t.participants.toNat ++
  leBytes 1 (t.scope.toNat + 8 * b2n t.barrier + 16 * b2n t.overflow + 32 * b2n t.underflow + 64 * b2n t.mismatch + 128) ++
  leBytes 2 vid ++ leBytes 1 ctx ++ [t.group] ++ leBytes 4 t.lastSrc.toNat ++ leBytes 8 t.lastStage.toNat ++
  leBytes 2 t.home.toNat ++ leBytes 2 t.waitEst.toNat

/-- The tally is homed at the device node (R239). -/
def deviceHome (t : Tally) : Bool := t.home.getLsbD 15
/-- Home cluster and engine of a serai-homed tally. -/
def homeClu (t : Tally) : Nat := bitsOf t.home.toNat 14 8
/-- The home engine of an ENGINE-scope tally. -/
def homeEng (t : Tally) : Nat := 16 * homeClu t + bitsOf t.home.toNat 7 4

/-! ## Masters -/

/-- The engine whose ring a TRANSFER channel fills: the launching engine, or `xfer_engine` of `xfer_word` (R216). -/
def chanEngine (s : State) (x : Nat) : Option Nat :=
  if x % 64 < 48 then some (16 * (x / 64) + (x % 64) / 3)
  else match getChan s x with
    | none => none
    | some c => match c.owner with
      | .slot e _ => some e
      | _ => some (16 * (x / 64) + bitsOf (fieldAt c.bytes 168 4) 24 21)

/-- The engine a master belongs to, for R252. -/
def issuerEng (s : State) : Issuer → Option Nat
  | .drover d => some (engOf d)
  | .slot e _ => some e
  | .block e => some e
  | .chan x => chanEngine s x
  | _ => none

/-- The cluster a master belongs to, for R252. -/
def issuerClu (s : State) : Issuer → Option Nat
  | .chan x => some (x / 64)
  | i => (issuerEng s i).map cluOf

/-- The identity of a master in the source format of event records (R388). -/
def issuerSrc : Issuer → Nat
  | .queue q => srcOf 3 q
  | .word q => srcOf 3 q
  | .drover d => srcOf 2 (grpOf d)
  | .slot e _ => srcOf 1 e
  | .chan x => srcOf 4 x
  | .block e => srcOf 1 e
  | .convoy c => srcOf 5 c
  | .stream st => srcOf 7 st
  | .remote f => srcOf 11 f
  | .host q => srcOf 3 q

/-- The queue whose packet an issuer works for, where there is one. -/
def issuerQueue (s : State) : Issuer → Option Nat
  | .queue q => some q
  | .word q => some q
  | .drover d => (getGrp s (grpOf d)).queue
  | .slot e n => match (getEng s e).slots[n]? with
    | some sl => (getGrp s (grpOf sl.drover)).queue
    | none => none
  | .block e => match (getEng s e).block with
    | some b => (match b.owner with | .queue q => some q | _ => none)
    | none => none
  | .chan x => match getChan s x with
    | some c => (match c.owner with
      | .queue q => some q
      | .slot e n => (match (getEng s e).slots[n]? with | some sl => (getGrp s (grpOf sl.drover)).queue | none => none)
      | _ => none)
    | none => none
  | _ => none

/-- The issuer's journal entry: the packet of its queue that has issued (R398). -/
def journalAt (s : State) (q : Nat) (f : JEntry → JEntry) : State :=
  modQ s q (fun u => { u with journal := u.journal.map (fun e => if e.life = .issued then f e else e) })

/-- The identity of an issuer in the journal: a packet has one channel, whatever its number; a launched macro counts with its
drover, and its channel under the ordinal of the launch. -/
def journalKey (s : State) (i : Issuer) : Issuer :=
  match i with
  | .chan c => (match getChan s c with
    | some y => (match y.owner with
      | .slot e n => (match (getEng s e).slots[n]? with | some x => .slot x.drover x.ord | none => .chan 0)
      | _ => .chan 0)
    | none => .chan 0)
  | .slot e n => (match (getEng s e).slots[n]? with | some x => .drover x.drover | none => i)
  | i => i

/-- The operation that the journal shows as applied already (R399): the phase a barrier arrival awaits. -/
def opDone (s : State) (i : Issuer) (ord : Nat) : Option Word :=
  match issuerQueue s i with
  | none => none
  | some q => match (getQ s q).journal.find? (fun e => e.life = .issued) with
    | none => none
    | some e => (e.ops.find? (fun o => o.1 = journalKey s i && o.2.1 = ord)).map (·.2.2)

/-- Notes an applied operation in the journal of its packet (R398). -/
def noteOp (s : State) (o : TallyOp) (phase : Word) : State :=
  match issuerQueue s o.issuer with
  | none => s
  | some q => journalAt s q (fun e => { e with ops := e.ops ++ [(journalKey s o.issuer, o.ord, phase)] })

/-! ## Scope rules (R252) -/

/-- A scope contains another (R205): FABRIC and HOST each contain DEVICE and neither the other. -/
def scopeContains (a b : Nat) : Bool := decide (a = b) || (decide (b ≤ 2) && decide (b ≤ a))

/-- The device is in the group of a FABRIC tally, and so is a remote source. -/
def inGroup (s : State) (g : Nat) (fid : Nat) : Bool :=
  match getGroup s g with
  | none => false
  | some e => e.members.any (fun m => m.toNat = fid)

/-- The operation breaks a rule of R252 on this tally. -/
def scopeBad (s : State) (o : TallyOp) (t : Tally) : Bool :=
  decide (4 < o.scope) || !scopeContains o.scope t.scope.toNat ||
  (t.scope = 0 && issuerEng s o.issuer ≠ some (homeEng t)) ||
  (t.scope = 1 && issuerClu s o.issuer ≠ some (homeClu t)) ||
  (t.scope = 3 && !(match o.issuer with
    | .remote f => inGroup s t.group.toNat f
    | _ => inGroup s t.group.toNat s.fab.fid.toNat))

/-! ## Faults (R253, R254) -/

/-- The kinds of tally fault, with their event codes. -/
inductive TallyFault where
  | underflow
  | overflow
  | scope
  | count
  deriving DecidableEq, Repr

/-- Event code of a tally fault. -/
def TallyFault.code : TallyFault → Nat
  | .underflow => 0x0201 | .overflow => 0x0202 | .scope => 0x0203 | .count => 0x0204

/-- The master that a fault freezes (R253): kind and index of R474. -/
def frozenBy (o : TallyOp) : Nat × Nat :=
  match o.issuer with
  | .queue _ => (1, o.ctx)
  | .word _ => (1, o.ctx)
  | .drover d => (2, grpOf d)
  | .slot _ _ => (1, o.ctx)
  | .chan x => (3, x)
  | .block _ => (1, o.ctx)
  | .convoy c => (4, c)
  | .stream st => (5, st)
  | .remote f => (7, f)
  | .host _ => (1, o.ctx)

/-- Operation code of byte 26: a remote operation is 14 whatever it does. -/
def opCode (o : TallyOp) : Nat := match o.issuer with | .remote _ => 14 | _ => o.code

/-- Detail of a tally fault (R254); a drover's bytes 16 to 23 follow R177 with byte 20 zero. -/
def tallyDetail (o : TallyOp) (value declared : Nat) : List Byte :=
  (match o.issuer with
    | .drover d => leBytes 4 o.tag.toNat ++ leBytes 1 0 ++ leBytes 1 (d % 64) ++ leBytes 1 (d % 64 / 16) ++ leBytes 1 0
    | _ => leBytes 4 o.tag.toNat ++ leBytes 4 value) ++
  leBytes 2 o.vid ++ leBytes 1 (opCode o) ++ leBytes 1 (o.scope % 8 + 8 * declared) ++ leBytes 4 o.amount.toNat

/-- The group that a drover's fault freezes remembers who faulted (R474). -/
def noteFaulter (s : State) (i : Issuer) : State :=
  match i with
  | .drover d => modGrp s (grpOf d) (fun g => { g with faulter := some d })
  | _ => s

/-- Partition byte of a frozen master. -/
def issuerPart (s : State) (o : TallyOp) : Nat :=
  match o.issuer with | .remote _ => 0xFF | _ => partIdx (partOfCtx s o.ctx)

/-- Raises an event against the issuer and freezes it (R253); host signals are only discarded with severity 1 (R251). -/
def chargeIssuer (s : State) (o : TallyOp) (code : Nat) (detail : List Byte) (soft : Bool) : State :=
  let ctx := match o.issuer with | .remote _ => 0xFF | _ => o.ctx
  let s1 := raiseEvent s code (if soft then 1 else 2) ctx (issuerSrc o.issuer) detail
  if soft then s1
  else
    let f := frozenBy o
    noteFaulter (freeze s1 f.1 f.2 (issuerPart s o) code) o.issuer

/-- An operation on an identifier without a mapping (R240): WINDOW_VIOLATION with the layout of R254. -/
def unmapped (s : State) (o : TallyOp) : State :=
  chargeIssuer s o 0x0303 (tallyDetail o 0 0) (decide (o.code = 15))

/-- A tally fault: the flag, the event and the freeze (R253). -/
def tallyFault (s : State) (o : TallyOp) (t : Tally) (k : TallyFault) : State :=
  let t1 := match k with
    | .underflow => { t with underflow := true }
    | .overflow => { t with overflow := true }
    | .count => { t with mismatch := true }
    | .scope => t
  chargeIssuer (setTally s o.ctx o.vid (some t1)) o k.code (tallyDetail o t.value.toNat t.scope.toNat)
    (decide (o.code = 15) && decide (k = .scope))

/-! ## Resuming masters -/

/-- Writes scalar register r of a drover; x0 discards (R149). -/
def setX (s : State) (d r : Nat) (w : Word) : State :=
  if r % 32 = 0 then s else modDrv s d (fun v => { v with x := tabPut 0 v.x (r % 32) w })
/-- Reads scalar register r; x0 reads zero. -/
def getX (s : State) (d r : Nat) : Word := if r % 32 = 0 then 0 else tabGet 0 (getDrv s d).x (r % 32)
/-- Moves a drover to the next instruction. -/
def pcNext (s : State) (d : Nat) : State := modDrv s d (fun v => { v with pc := v.pc + 4 })

/-- The state of the run of a queue's packet. -/
def modRun (s : State) (q : Nat) (f : Run → Run) : State := modQ s q (fun u => { u with run := u.run.map f })

/-- A unit's wait or operation has ended: the unit goes on. -/
def resumeIssuer (s : State) (o : TallyOp) (value : Word) : State :=
  match o.issuer with
  | .queue q => modRun s q (fun r => { r with work := .tally true })
  | .drover d =>
    let s1 := if o.code = 11 then setX s d o.dest value else s
    modDrv s1 d (fun v => { v with pc := v.pc + 4, st := if v.st = .waiting then .running else v.st })
  | .block e => modEng s e (fun g => { g with block := g.block.map (fun b => { b with waited := true }) })
  | .chan x => setChan s x ((getChan s x).map (fun c =>
      if o.code = 16 then { c with waiting := 2 } else if o.code = 12 then { c with signals := c.signals - 1 } else c))
  | _ => s

/-! ## Lending (R258) -/

/-- A unit of the engine is working: a drover that runs, a launched macro that runs, or a block that does not wait. -/
def engineActive (s : State) (e : Nat) : Bool :=
  s.comp.drovers.any (fun v => decide (engOf v.1 = e) && decide (v.2.st = .running)) ||
  (getEng s e).slots.any (fun x => x.state = 2) ||
  ((getEng s e).block.isSome && !(s.sync.waiters.any (fun w => w.op.issuer = .block e)))

/-- An engine that has started to wait may be lent: its array goes straight into ramp-down. -/
def lend (s : State) (e : Nat) (est : Nat) : State :=
  if 64 < est && !engineActive s e then
    modEng s e (fun g => { g with lent := true, array := if g.array = 0 then 0 else 1 })
  else s

/-- A release wakes the engine. -/
def wakeEng (s : State) (i : Issuer) : State :=
  match issuerEng s i with
  | none => s
  | some e => modEng s e (fun g => { g with lent := false })

/-! ## Rings bound to a tally (R229, R244) -/

/-- The ring key whose `free_tally` a tally is. -/
def freeOf (s : State) (ctx vid : Nat) : Option (Nat × Ring) :=
  s.comp.rings.find? (fun r => r.2.sw && decide (r.2.ctx = ctx) && decide (r.2.freeTally.toNat = vid) && decide (vid ≠ 0))
/-- The tally is bound to a configured ring. -/
def ringBound (s : State) (ctx vid : Nat) : Bool :=
  s.comp.rings.any (fun r => r.2.sw && decide (r.2.ctx = ctx) &&
    (decide (r.2.fillTally.toNat = vid) || decide (r.2.freeTally.toNat = vid)))
/-- The limit in force: the value of `fill_tally` for a bound `free_tally` (R244). -/
def limitOf (s : State) (ctx vid : Nat) (t : Tally) : Nat :=
  match freeOf s ctx vid with
  | some (_, r) => (match getTally s ctx r.fillTally.toNat with | some f => f.value.toNat | none => t.limit.toNat)
  | none => t.limit.toNat
/-- `tail` follows the value of `free_tally` and the slots released become EMPTY (R229). -/
def followFree (s : State) (ctx vid : Nat) (v : Nat) : State :=
  match freeOf s ctx vid with
  | none => s
  | some (k, r) =>
    let freed := upFrom r.tail.toNat (min r.slots ((v + 256 - r.tail.toNat) % 256))
    modRing s (k / 16) (k % 16) (fun r => { r with
      tail := BitVec.ofNat 8 v
      states := freed.foldl (fun l j => listSet l (if r.slots = 0 then 0 else j % r.slots) 0) r.states })

/-! ## Waiters -/

/-- The wait condition of a threshold or phase (R245, R246). -/
def waitMet (t : Tally) (th : Word) : Bool :=
  if t.barrier then decide ((t.value - th).toNat < 2 ^ 31) else decide (th.toNat ≤ t.value.toNat)

/-- The waiter is a TAKE. -/
def Waiter.takes (w : Waiter) : Bool := w.op.code = 4

/-- The waiters of a tally. -/
def waitersOf (s : State) (ctx vid : Nat) : List Waiter :=
  s.sync.waiters.filter (fun w => decide (w.op.ctx = ctx) && decide (w.op.vid = vid) && !w.released)

/-- Releases the waiters other than TAKEs whose condition holds (R245, R246). -/
def releaseReads (s : State) (ctx vid : Nat) (t : Tally) : State :=
  { s with sync := { s.sync with waiters := s.sync.waiters.map (fun w =>
    if decide (w.op.ctx = ctx) && decide (w.op.vid = vid) && !w.takes && waitMet t w.phase then { w with released := true }
    else w) } }

/-- Satisfies TAKEs strictly in the order of their arrival (R245): the first that cannot be satisfied holds back the rest. -/
def releaseTakes (ctx vid : Nat) : List Waiter → Nat → Bool → List Waiter × Nat
  | [], v, _ => ([], v)
  | w :: t, v, stuck =>
    if decide (w.op.ctx = ctx) && decide (w.op.vid = vid) && w.takes && !w.released then
      if !stuck && decide (w.phase.toNat ≤ v) then
        let r := releaseTakes ctx vid t (v - w.phase.toNat) false
        ({ w with released := true } :: r.1, r.2)
      else
        let r := releaseTakes ctx vid t v true
        (w :: r.1, r.2)
    else
      let r := releaseTakes ctx vid t v stuck
      (w :: r.1, r.2)

/-- The waiters that a change of lists has newly released. -/
def newlyFree (before after : List Waiter) : List Waiter :=
  ((before.zip after).filter (fun p => !p.1.released && p.2.released)).map (·.2)

/-- After a rise: reads first, then TAKEs, each noted in its journal, each engine woken. -/
def releaseAll (s : State) (ctx vid : Nat) : State :=
  match getTally s ctx vid with
  | none => s
  | some t =>
    let s1 := releaseReads s ctx vid t
    let r := if t.barrier then (s1.sync.waiters, t.value.toNat)
      else releaseTakes ctx vid s1.sync.waiters t.value.toNat false
    let s2 := setTally { s1 with sync := { s1.sync with waiters := r.1 } } ctx vid
      (some { t with value := BitVec.ofNat 32 r.2 })
    let freed := newlyFree s.sync.waiters r.1
    let s3 := (freed.filter (·.takes)).foldl (fun u w => noteOp u w.op 0) s2
    freed.foldl (fun u w => wakeEng u w.op.issuer) s3

/-- A unit starts to wait. -/
def enqueue (s : State) (o : TallyOp) (t : Tally) (phase : Word) : State :=
  let s1 := { s with sync := { s.sync with waiters := s.sync.waiters ++
    [{ op := o, phase := phase, since := s.stage, released := false, asleep := false }] } }
  match issuerEng s1 o.issuer with
  | none => s1
  | some e => lend s1 e t.waitEst.toNat

/-- A phase completes (R246); at FABRIC scope the device node sends one arrival to the switch (R250). -/
def phaseDone (s : State) (o : TallyOp) (t : Tally) : State :=
  if t.scope = 3 then
    emit (setTally s o.ctx o.vid (some { t with arrivals := 0, pend := t.pend + 1 }))
      (.switchArrival t.group.toNat o.vid)
  else
    releaseAll (setTally s o.ctx o.vid (some { t with arrivals := 0, value := t.value + 1 })) o.ctx o.vid

/-- Makes a arrivals on a barrier (R246). -/
def arrive (s : State) (o : TallyOp) (t : Tally) (a : Nat) : State :=
  let n := t.arrivals.toNat + a
  if n = t.participants.toNat then phaseDone s o t
  else setTally s o.ctx o.vid (some { t with arrivals := BitVec.ofNat 24 n })

/-! ## Application at the home (R244 to R247) -/

/-- Operation codes of R254 that are ADDs. -/
def isAdd (c : Nat) : Bool := [1, 6, 8, 12, 13, 14, 15, 17, 18, 19].contains c

/-- The mapped tally takes `last_src` and `last_stage` from an applied operation. -/
def stamped (s : State) (o : TallyOp) (t : Tally) : Tally :=
  { t with lastSrc := BitVec.ofNat 32 (issuerSrc o.issuer), lastStage := s.stage }

/-- A TAKE that arrives: satisfied at once, or behind the TAKEs that wait (R245). -/
def takeArrives (s : State) (o : TallyOp) (t : Tally) : State :=
  if (waitersOf s o.ctx o.vid).any (·.takes) || decide (t.value.toNat < o.amount.toNat) then
    enqueue (setTally s o.ctx o.vid (some t)) o t o.amount
  else
    resumeIssuer (noteOp (setTally s o.ctx o.vid (some { t with value := t.value - o.amount })) o 0) o t.value

/-- One operation on a counter. -/
def onCounter (s : State) (o : TallyOp) (t : Tally) : State :=
  let t1 := stamped s o t
  if isAdd o.code then
    if limitOf s o.ctx o.vid t < t.value.toNat + o.amount.toNat then tallyFault s o t .overflow
    else
      let v := t.value + o.amount
      let s1 := followFree (setTally s o.ctx o.vid (some { t1 with value := v })) o.ctx o.vid v.toNat
      resumeIssuer (noteOp (releaseAll s1 o.ctx o.vid) o 0) o v
  else if o.code = 2 then
    if t.value.toNat < o.amount.toNat then tallyFault s o t .underflow
    else
      let v := t.value - o.amount
      resumeIssuer (noteOp (setTally s o.ctx o.vid (some { t1 with value := v })) o 0) o v
  else if o.code = 4 then takeArrives s o t1
  else if o.code = 5 ∨ o.code = 10 then tallyFault s o t .count
  else if o.code = 11 ∨ waitMet t o.amount then resumeIssuer (setTally s o.ctx o.vid (some t1)) o t.value
  else enqueue (setTally s o.ctx o.vid (some t1)) o t1 o.amount

/-- One operation on a barrier (R246). -/
def onBarrier (s : State) (o : TallyOp) (t : Tally) : State :=
  let t1 := stamped s o t
  if isAdd o.code then
    if t.participants.toNat - t.arrivals.toNat < o.amount.toNat then tallyFault s o t .count
    else resumeIssuer (noteOp (arrive s o t1 o.amount.toNat) o 0) o t.value
  else if o.code = 2 ∨ o.code = 4 then tallyFault s o t .count
  else if o.code = 5 ∨ o.code = 10 then
    if o.amount.toNat ≠ t.participants.toNat then tallyFault s o t .count
    else
      let ph := t.value + 1 + BitVec.ofNat 32 t.pend
      let s1 := enqueue (setTally s o.ctx o.vid (some t1)) o t1 ph
      arrive (noteOp s1 o ph) o t1 1
  else if o.code = 11 ∨ waitMet t o.amount then resumeIssuer (setTally s o.ctx o.vid (some t1)) o t.value
  else enqueue (setTally s o.ctx o.vid (some t1)) o t1 o.amount

/-- An operation reaches its home: mapping, scope, then the kind's rules, with every fault charged to its issuer. -/
def applyOp (s : State) (o : TallyOp) : State :=
  match getTally s o.ctx o.vid with
  | none => unmapped s o
  | some t =>
    if o.code = 15 && t.scope ≠ 4 then tallyFault s o t .scope
    else if scopeBad s o t then tallyFault s o t .scope
    else if t.barrier then onBarrier s o t else onCounter s o t

/-! ## Issue -/

/-- The node that holds an ADD for combining (R255), where one does. -/
def holdNode (s : State) (o : TallyOp) : Option Nat :=
  if (isAdd o.code || o.code = 5 || o.code = 10) && Config.combines s.fresh then issuerClu s o.issuer else none

/-- Sends an operation toward its home. An operation that the journal shows as applied is not repeated (R399): its unit
goes on, or waits for the phase its arrival awaited. -/
def sendOp (s : State) (o : TallyOp) : State :=
  match getTally s o.ctx o.vid with
  | none => unmapped s o
  | some _ =>
    match opDone s o.issuer o.ord with
    | some ph =>
      if o.code = 5 ∨ o.code = 10 then
        drawn { s with sync := { s.sync with flight := s.sync.flight ++ [{ o with code := if o.code = 5 then 3 else 9, amount := ph }] } }
      else resumeIssuer s o 0
    | none =>
      let s1 := match issuerClu s o.issuer with | some c => addCtr s 4 c 4 1 | none => s
      drawn { s1 with sync := { s1.sync with flight := s1.sync.flight ++ [{ o with node := holdNode s o }] } }

end Sys2Proof.Machine
end

