-- ==== Sys2Proof/Machine/DroverOps.lean ====
section
/-! DEFINITION. What drover instructions share: fetching (R155, R171), the drover window (R145, R146), lanes of vector
registers (R149), FFLAGS (R153), violations (R176 to R178). -/

namespace Sys2Proof.Machine

/-! ## Fetch -/

/-- The key of byte `off` of the instruction store of a group. -/
def istoreKey (g off : Nat) : Nat := g * 0x8000 + off
/-- The key of byte `off` of a drover's local store. -/
def lstoreKey (d off : Nat) : Nat := d * 0x800 + off
/-- n bytes of an instruction store. -/
def istoreBytes (s : State) (g off n : Nat) : List Byte :=
  (upFrom off n).map (fun a => tabGet 0 s.comp.istore (istoreKey g a))
/-- n bytes of a local store. -/
def lstoreBytes (s : State) (d off n : Nat) : List Byte :=
  (upFrom off n).map (fun a => tabGet 0 s.comp.lstore (lstoreKey d a))

/-- The word at a drover's program counter. -/
def wordAtPc (s : State) (d : Nat) : Word :=
  BitVec.ofNat 32 (leNat (istoreBytes s (grpOf d) (getDrv s d).pc.toNat 4))
/-- The fetch lies within the image (R171). -/
def fetchIn (s : State) (d : Nat) : Bool := decide ((getDrv s d).pc.toNat < (getGrp s (grpOf d)).codeBytes)

/-- The drover may issue: it runs, its engine holds its image, and neither its group nor the device is frozen or out of
service (R176, R463, R478). -/
def drvReady (s : State) (d : Nat) : Bool :=
  (getDrv s d).st = .running && !isFrozen s 2 (grpOf d) && !devFrozen s && s.dev.ready && s.dev.powered && engRuns s (engOf d)

/-- The drover's next instruction is `i`. -/
def drvNext (s : State) (d : DroverId) (i : Instr) : Bool :=
  drvReady s d.val && fetchIn s d.val && decide (drvDecode d (wordAtPc s d.val) = some i)

/-- One drover instruction: its effect where it is the next one of its drover, nothing otherwise (log 4). -/
def onDrover (s : State) (d : DroverId) (i : Instr) (f : State → State) : Ans :=
  .next (if drvNext s d i then f (addCtr s 2 (engOf d) 9 1) else s)

/-! ## Violations (R176, R177) -/

/-- Context of a drover's launch. -/
def drvCtx (s : State) (d : Nat) : Nat := (getGrp s (grpOf d)).ctx
/-- Tag of a drover's launch. -/
def drvTag (s : State) (d : Nat) : Word := (getGrp s (grpOf d)).tag

/-- Bytes 16 to 31 of R177. -/
def drvDetail (s : State) (d cause : Nat) (last : Word) : List Byte :=
  leBytes 4 (drvTag s d).toNat ++ leBytes 1 cause ++ leBytes 1 (d % 64) ++ leBytes 1 (d % 64 / 16) ++ leBytes 1 0 ++
  leBytes 4 (getDrv s d).pc.toNat ++ leBytes 4 last.toNat

/-- A drover fault: its event, and its whole group frozen with the faulting drover noted (R176, R474). -/
def drvFault (s : State) (d code cause : Nat) (last : Word) : State :=
  let s1 := raiseEvent s code 2 (drvCtx s d) (srcOf 2 (grpOf d)) (drvDetail s d cause last)
  noteFaulter (freeze s1 2 (grpOf d) (partIdx (partOfClu s (cluOf (engOf d)))) code) (.drover d)

/-- An illegal instruction (cause 1). -/
def drvIllegal (s : State) (d : Nat) : State := drvFault s d 0x0303 1 (wordAtPc s d)

/-- The groups of the launch that a group belongs to. -/
def launchGroups (s : State) (g : Nat) : List Nat :=
  (s.comp.groups.filter (fun x => x.2.queue = (getGrp s g).queue && x.2.queue.isSome)).map (·.1)

/-- Every drover of the launch stops (R178). -/
def stopLaunch (s : State) (g : Nat) : State :=
  let gs := launchGroups s g
  { s with comp := { s.comp with drovers := s.comp.drovers.map (fun v =>
    if gs.contains (grpOf v.1) && (v.2.st = .running || v.2.st = .waiting) then (v.1, { v.2 with st := .halted }) else v) } }

/-- Uncorrectable data met by a drover (R178): the event with cause 6, every drover of the launch stopped, and the launch to
complete with REPLAY_REQUIRED. -/
def drvUncorrectable (s : State) (d : Nat) (addr : Word) : State :=
  let s1 := raiseEvent s 0x0304 2 (drvCtx s d) (srcOf 2 (grpOf d)) (drvDetail s d 6 addr)
  let s2 := stopLaunch s1 (grpOf d)
  match (getGrp s (grpOf d)).queue with
  | none => s2
  | some q => modRun s2 q (fun r => { r with status := 0x0010 })

/-! ## The drover window (R145) -/

/-- What a window address names. -/
inductive WinPlace where
  | loc (off : Nat)
  | mem (ga : Nat)
  | istore (off : Nat)
  | outside
  deriving DecidableEq, Repr

/-- The region of a window address. -/
def winPlace (d addr : Nat) : WinPlace :=
  if addr < 0x800 then .loc addr
  else if 0x10000000 ≤ addr ∧ addr < 0x10080000 then .mem (spadAddr (engOf d) (addr - 0x10000000))
  else if 0x20000000 ≤ addr ∧ addr < 0x20800000 then .mem (seraiAddr (cluOf (engOf d)) (addr - 0x20000000))
  else if 0x30000000 ≤ addr ∧ addr < 0x30008000 then .istore (addr - 0x30000000)
  else .outside

/-- How a window access ends. -/
inductive WinRes (α : Type) where
  | ok (x : α)
  | fault (cause : Nat) (addr : Nat)
  | bad (addr : Nat)

/-- Reads n bytes with the access alignment `al`. -/
def winRead (s : State) (d addr n al : Nat) : WinRes (List Byte) :=
  if addr % al ≠ 0 then .fault 2 addr
  else match winPlace d addr with
    | .loc off => .ok (lstoreBytes s d off n)
    | .mem ga => if (badBurst s ga n).isSome then .bad addr else .ok (localRead s ga n)
    | .istore off => .ok (istoreBytes s (grpOf d) off n)
    | .outside => .fault 3 addr

/-- Writes a drover's local store. -/
def lstoreWrite (s : State) (d off : Nat) (bs : List Byte) : State :=
  { s with comp := { s.comp with lstore := putCells s.comp.lstore (lstoreKey d off) bs } }

/-- Stores bytes: only the bytes it names (R147). -/
def winWrite (s : State) (d addr al : Nat) (bs : List Byte) : WinRes State :=
  if addr % al ≠ 0 then .fault 2 addr
  else match winPlace d addr with
    | .loc off => .ok (lstoreWrite s d off bs)
    | .mem ga => .ok (memWrite s ga bs)
    | .istore _ => .fault 3 addr
    | .outside => .fault 3 addr

/-- Words that a load corrected are written back (R199). -/
def winTouch (s : State) (d addr n : Nat) : State :=
  match winPlace d addr with | .mem ga => correctRange s ga n | _ => s

/-- A load: the fault, or the state that `k` gives for the bytes. -/
def loadThen (s : State) (d addr n al : Nat) (k : State → List Byte → State) : State :=
  match winRead s d addr n al with
  | .fault c a => drvFault s d 0x0303 c (BitVec.ofNat 32 a)
  | .bad a => drvUncorrectable s d (BitVec.ofNat 32 a)
  | .ok bs => pcNext (k (winTouch s d addr n) bs) d

/-- A store. -/
def storeThen (s : State) (d addr al : Nat) (bs : List Byte) : State :=
  match winWrite s d addr al bs with
  | .fault c a => drvFault s d 0x0303 c (BitVec.ofNat 32 a)
  | .bad a => drvUncorrectable s d (BitVec.ofNat 32 a)
  | .ok t => pcNext t d

/-- rs1 + imm, modulo 2³². -/
def effAddr (s : State) (d : Nat) (a : IArgs) : Nat := (getX s d a.rs1.toNat + a.imm.signExtend 32).toNat

/-! ## FFLAGS and scalar results -/

/-- ORs flags into FFLAGS (R153). -/
def orFflags (s : State) (d : Nat) (f : FFlags) : State :=
  modDrv s d (fun v => { v with fflags := v.fflags ||| BitVec.ofNat 5 f.bits })

/-- Writes rd and moves on. -/
def writeX (s : State) (d : Nat) (rd : BitVec 5) (w : Word) : State := pcNext (setX s d rd.toNat w) d
/-- Writes rd and the flags and moves on. -/
def writeXF (s : State) (d : Nat) (rd : BitVec 5) (r : Nat × FFlags) : State :=
  pcNext (orFflags (setX s d rd.toNat (BitVec.ofNat 32 r.1)) d r.2) d

/-! ## Vector registers -/

/-- Vector register i. -/
def getV (s : State) (d i : Nat) : BitVec 256 := tabGet 0 (getDrv s d).v (i % 16)
/-- Writes vector register i. -/
def setV (s : State) (d i : Nat) (x : BitVec 256) : State :=
  modDrv s d (fun v => { v with v := tabPut 0 v.v (i % 16) x })

/-- Lane i of width w. -/
def lane (w : Nat) (x : BitVec 256) (i : Nat) : Nat := (x.toNat / 2 ^ (w * i)) % 2 ^ w
/-- The lanes of width w, lane 0 first. -/
def lanes (w : Nat) (x : BitVec 256) : List Nat := (List.range (256 / w)).map (lane w x)
/-- The register of a list of lanes, lane 0 lowest. -/
def ofLanes (w : Nat) (l : List Nat) : BitVec 256 :=
  BitVec.ofNat 256 (l.foldr (fun x (acc : Nat) => x % 2 ^ w + 2 ^ w * acc) 0)
/-- The bytes of a register, byte 0 lowest. -/
def vBytes (x : BitVec 256) : List Byte := leBytes 32 x.toNat
/-- The register of 32 bytes. -/
def ofBytes (l : List Byte) : BitVec 256 := BitVec.ofNat 256 (leNat l)

/-- Lane width of a floating-point type code: 0 FP32, 1 BF16, 2 FP16 (R154). -/
def fpWidth (ty : BitVec 2) : Nat := if ty = 0 then 32 else 16
/-- Format of a floating-point type code. -/
def fpType (ty : BitVec 2) : FpFmt := if ty = 0 then fp32 else if ty = 1 then bf16 else fp16
/-- Lane width of an integer type code: 0 INT32, 1 INT8. -/
def intWidth (ty : BitVec 2) : Nat := if ty = 0 then 32 else 8
/-- Lane width of a format X type code: 0 FP32 or INT32, 1 BF16, 2 FP16, 3 INT8. -/
def xWidth (ty : BitVec 2) : Nat := if ty = 0 then 32 else if ty = 3 then 8 else 16

/-- Writes vd and moves on. -/
def writeV (s : State) (d : Nat) (vd : BitVec 4) (x : BitVec 256) : State := pcNext (setV s d vd.toNat x) d
/-- Writes vd with the flags of all lanes and moves on. -/
def writeVF (s : State) (d : Nat) (vd : BitVec 4) (x : BitVec 256) (f : FFlags) : State :=
  pcNext (orFflags (setV s d vd.toNat x) d f) d

/-- Lane-wise floating-point operation of two operands. -/
def vfp2 (s : State) (d : Nat) (a : VArgs) (op : FpFmt → Nat → Nat → Nat × FFlags) : State :=
  let w := fpWidth a.ty
  let r := ((lanes w (getV s d a.va.toNat)).zip (lanes w (getV s d a.vb.toNat))).map (fun p => op (fpType a.ty) p.1 p.2)
  writeVF s d a.vd (ofLanes w (r.map (·.1))) (orFlags r)

/-- Lane-wise floating-point operation of one operand. -/
def vfp1 (s : State) (d : Nat) (a : VArgs) (op : FpFmt → Nat → Nat × FFlags) : State :=
  let w := fpWidth a.ty
  let r := (lanes w (getV s d a.va.toNat)).map (op (fpType a.ty))
  writeVF s d a.vd (ofLanes w (r.map (·.1))) (orFlags r)

/-- Lane-wise integer operation of two operands. -/
def vint2 (s : State) (d : Nat) (a : VArgs) (op : Nat → Nat → Nat → Nat) : State :=
  let w := intWidth a.ty
  let r := ((lanes w (getV s d a.va.toNat)).zip (lanes w (getV s d a.vb.toNat))).map (fun p => op w p.1 p.2)
  writeV s d a.vd (ofLanes w r)

/-- A comparison mask lane. -/
def maskLane (w : Nat) (b : Bool) : Nat := if b then 2 ^ w - 1 else 0

end Sys2Proof.Machine
end

