-- ==== Sys2Proof/Machine/Pages.lean ====
section
/-! DEFINITION. KV pages: waybill entries and keys (R304 to R309), sequences (R312), frames and swap slots (R314), exhaustion
and swap-out (R316 to R319), sealing (R28, R305). -/

namespace Sys2Proof.Machine

/-! ## Entries and keys (R306, R308) -/

/-- The fields of a waybill entry. -/
structure WayEntry where
  slot : Nat
  layer : Nat
  head : Nat
  page : Nat
  gen : Nat
  kfmt : Nat
  fill : Nat
  state : Nat
  ships : Nat
  loc : Nat
  deriving DecidableEq, Repr

/-- Reads the fields of R308. -/
def wayOf (w : BitVec 128) : WayEntry :=
  let x := w.toNat
  ⟨bitsOf x 127 116, bitsOf x 115 104, bitsOf x 103 92, bitsOf x 91 68, bitsOf x 67 52, bitsOf x 51 44, bitsOf x 43 35,
    bitsOf x 34 32, bitsOf x 31 24, bitsOf x 23 0⟩
/-- Packs the fields of R308; a FREE entry reads zero. -/
def wayWord (e : WayEntry) : BitVec 128 :=
  if e.state = 0 then 0
  else BitVec.ofNat 128 (e.slot % 4096 * 2 ^ 116 + e.layer % 4096 * 2 ^ 104 + e.head % 4096 * 2 ^ 92 + e.page % 2 ^ 24 * 2 ^ 68 +
    e.gen % 65536 * 2 ^ 52 + e.kfmt % 256 * 2 ^ 44 + e.fill % 512 * 2 ^ 35 + e.state % 8 * 2 ^ 32 + e.ships % 256 * 2 ^ 24 +
    e.loc % 2 ^ 24)
/-- Waybill entry i. -/
def getWay (s : State) (i : Nat) : WayEntry := wayOf (tabGet 0 s.kv.waybill i)
/-- Writes waybill entry i. -/
def setWay (s : State) (i : Nat) (e : WayEntry) : State :=
  { s with kv := { s.kv with waybill := tabPut 0 s.kv.waybill i (wayWord e) } }
/-- Changes waybill entry i. -/
def modWay (s : State) (i : Nat) (f : WayEntry → WayEntry) : State := setWay s i (f (getWay s i))

/-- The open sequence with a handle: its slot and itself. -/
def seqOf (s : State) (handle : Nat) : Option (Nat × Sequence) := s.kv.sequences.find? (fun x => x.2.handle.toNat = handle)
/-- Changes sequence slot n. -/
def modSeq (s : State) (n : Nat) (f : Sequence → Sequence) : State :=
  { s with kv := { s.kv with sequences := tabSet s.kv.sequences n ((tabFind s.kv.sequences n).map f) } }
/-- Handle of a sequence slot. -/
def slotHandle (s : State) (n : Nat) : Nat := match tabFind s.kv.sequences n with | none => 0 | some q => q.handle.toNat

/-- The page key of an entry (R306). -/
def keyOf (s : State) (e : WayEntry) : Nat :=
  e.kfmt * 2 ^ 112 + e.gen * 2 ^ 96 + e.page * 2 ^ 72 + e.head * 2 ^ 60 + e.layer * 2 ^ 48 + slotHandle s e.slot
/-- The waybill index of a page of a sequence (R312). -/
def pageIdx (q : Sequence) (l h x : Nat) : Nat := q.base + (l * q.heads + h) * q.pages + x
/-- A key lies within the dimensions of its sequence. -/
def inSeq (q : Sequence) (l h x : Nat) : Bool := decide (l < q.layers) && decide (h < q.heads) && decide (x < q.pages)

/-- Head dimension of a `kfmt`. -/
def kfmtDh (k : Nat) : Nat := 16 * (k / 16 + 1)
/-- Bytes of a page image (R301). -/
def imageBytes (k : Nat) : Nat := if k % 16 = 11 then 288 * kfmtDh k else 512 * kfmtDh k
/-- A page format is legal. -/
def kfmtOk (k : Nat) : Bool := [3, 4, 11].contains (k % 16)

/-- The resident states. -/
def resident (st : Nat) : Bool := [1, 2, 3, 4, 6].contains st
/-- The states that can be swapped out or taken: SEALED, SHIPPED, IMPORTED. -/
def settled (st : Nat) : Bool := st = 2 || st = 4 || st = 6

/-! ## Frames (R304, R314) -/

/-- The pieces of a range of a partition's offsets. -/
def partPieces (p : Partition) (x n : Nat) : List (Nat × Nat) :=
  let z := 52 * 2 ^ 30
  if x / z = (x + n - 1) / z then [(partAddr p x, n)] else [(partAddr p x, z - x % z), (partAddr p ((x / z + 1) * z), n - (z - x % z))]
/-- Partition offset of a frame. -/
def frameOff (p : Partition) (f : Nat) : Nat := p.frameBase + f * p.frameUnits * 128
/-- Local pieces of n bytes of a frame from byte a. -/
def framePieces (p : Partition) (f a n : Nat) : List (Nat × Nat) := if n = 0 then [] else partPieces p (frameOff p f + a) n
/-- Reads bytes of a frame. -/
def frameRead (s : State) (p : Partition) (f a n : Nat) : List Byte :=
  ((framePieces p f a n).map (fun x => localRead s x.1 x.2)).flatten
/-- The burst of the first uncorrectable word of a range of a frame. -/
def frameBad (s : State) (p : Partition) (f a n : Nat) : Option Nat :=
  (framePieces p f a n).findSome? (fun x => badBurst s x.1 x.2)
/-- Writes bytes of a frame. -/
def frameWrite (s : State) (p : Partition) (f a : Nat) (bs : List Byte) : State :=
  writePieces s (framePieces p f a bs.length) bs

/-- The partition whose pool holds a waybill index. -/
def poolOf (s : State) (i : Nat) : Option Partition :=
  partWhere s (fun p => decide (p.poolFirst ≤ i) && decide (i < p.poolFirst + p.poolCount))

/-- Frames of a partition that hold or await a page. -/
def usedFrames (s : State) (p : Partition) : List Nat :=
  ((s.kv.waybill.filter (fun x => decide (p.poolFirst ≤ x.1) && decide (x.1 < p.poolFirst + p.poolCount) &&
      resident (wayOf x.2).state)).map (fun x => (wayOf x.2).loc)) ++
    (s.kv.stalls.filter (fun t => t.part = p.part)).filterMap (·.frame) ++
    (s.kv.swaps.filter (fun w => w.part = p.part && w.inward)).map (·.frame)

/-- Inserts into an ascending list. -/
def insNat (x : Nat) : List Nat → List Nat
  | [] => [x]
  | y :: t => if x ≤ y then x :: y :: t else y :: insNat x t
/-- Ascending order. -/
def sortNat (l : List Nat) : List Nat := l.foldr insNat []
/-- The k-th number that is not in an ascending list. -/
def nthFree (k : Nat) (used : List Nat) : Nat := used.foldl (fun c u => if u ≤ c then c + 1 else c) k
/-- Free numbers below n. -/
def freeCount (n : Nat) (used : List Nat) : Nat := n - (sortNat used).eraseDups.length
/-- A free number below n, which one the spec leaves open. -/
def pickFree (s : State) (n : Nat) (used : List Nat) : Option Nat :=
  let c := freeCount n used
  if c = 0 then none else some (nthFree (Config.choice s.fresh % c) (sortNat used).eraseDups)

/-- Frames free in a partition. -/
def framesFree (s : State) (p : Partition) : Nat := freeCount p.frames (usedFrames s p)

/-- The trailer of R304. -/
def trailerBytes (s : State) (e : WayEntry) (crc restore : Nat) : List Byte :=
  leBytes 16 (keyOf s e) ++ leBytes 4 crc ++ leBytes 2 e.fill ++ leBytes 1 restore ++ zeros 105

/-- Fill and key of the trailer follow the entry; CRC and byte 22 as given. -/
def putTrailer (s : State) (p : Partition) (i crc restore : Nat) : State :=
  let e := getWay s i
  frameWrite s p e.loc (imageBytes e.kfmt) (trailerBytes s e crc restore)

/-- Byte 22 of the trailer of a resident page. -/
def keptState (s : State) (p : Partition) (e : WayEntry) : Nat := leNat (frameRead s p e.loc (imageBytes e.kfmt + 22) 1)
/-- Stored CRC of a resident page. -/
def keptCrc (s : State) (p : Partition) (e : WayEntry) : Nat := leNat (frameRead s p e.loc (imageBytes e.kfmt + 16) 4)

/-- Allocates a page in a frame: the whole frame zeroed, then FILLING with its key (R304, R310). -/
def allocPage (s : State) (p : Partition) (i frame : Nat) (e : WayEntry) : State :=
  let s1 := frameWrite s p frame 0 (zeros (p.frameUnits * 128))
  putTrailer (setWay s1 i { e with fill := 0, state := 1, ships := 0, loc := frame }) p i 0 0

/-! ## Readers and swap slots -/

/-- A reader names the page; `but` is a queue that does not count. -/
def hasReader (s : State) (i : Nat) (but : Option Nat) : Bool :=
  s.kv.readers.any (fun r => decide (r.2 = i) && decide (some r.1 ≠ but))
/-- Swap page of a partition. -/
def wayOff (p : Nat) : Nat := 0x608000 + 0x40 * p
/-- Swap slots of a partition. -/
def swapSlots (s : State) (p : Nat) : Nat := regField s (wayOff p + 0x28) 23 0
/-- Slots in use. -/
def swapUsedList (s : State) (p : Nat) : List Nat :=
  (s.kv.swapUsed.filter (fun x => x.1 / 2 ^ 24 = p)).map (fun x => x.1 % 2 ^ 24)
/-- Global address of a swap slot. -/
def swapAddr (s : State) (p : Partition) (n : Nat) : Nat :=
  regField s (wayOff p.part + 0x1C) 31 7 * 128 + regField s (wayOff p.part + 0x20) 23 0 * 2 ^ 32 + n * p.frameUnits * 128
/-- The page is being swapped. -/
def swapping (s : State) (i : Nat) : Bool := s.kv.swaps.any (fun w => w.index = i)

/-- A swap slot is freed when its page is no longer SWAPPED and `ships` is 0 (R310). -/
def freeSlots (s : State) : State :=
  { s with kv := { s.kv with swapUsed := s.kv.swapUsed.filter (fun x =>
    let e := getWay s x.2
    e.state = 5 || (decide (e.ships ≠ 0) && decide (e.state ≠ 0)) || swapping s x.2) } }

/-- The page can be swapped out. -/
def swappable (s : State) (i : Nat) (e : WayEntry) : Bool :=
  settled e.state && e.ships = 0 && !s.kv.noSwap.contains i && !swapping s i

/-- The pages of a sequence slot, ascending. -/
def seqPages (s : State) (n : Nat) : List (Nat × WayEntry) :=
  (s.kv.waybill.map (fun x => (x.1, wayOf x.2))).filter (fun x => decide (x.2.slot = n) && decide (x.2.state ≠ 0))

/-- Starts the swap-out of a page where a swap slot is free (R318). -/
def startSwap (s : State) (p : Partition) (q i : Nat) : State :=
  match pickFree s (swapSlots s p.part) (swapUsedList s p.part) with
  | none => s
  | some slot =>
    drawn { s with kv := { s.kv with
      swapUsed := tabSet s.kv.swapUsed (p.part * 2 ^ 24 + slot) (some i)
      swaps := s.kv.swaps ++ [⟨i, p.part, slot, (getWay s i).loc, false, q⟩] } }

/-- Readers of a queue end; pages that waited for them are swapped now (R318). -/
def endReaders (s : State) (q : Nat) : State :=
  let s1 := { s with kv := { s.kv with readers := s.kv.readers.filter (fun r => r.1 ≠ q) } }
  s1.kv.sequences.foldl (fun t x =>
    match getPart t x.2.part with
    | none => t
    | some p =>
      let go := x.2.swapping.filter (fun i => !hasReader t i none)
      let t1 := modSeq t x.1 (fun y => { y with swapping := y.swapping.filter (fun i => !go.contains i) })
      go.foldl (fun u i => if swappable u i (getWay u i) then startSwap u p q i else u) t1) s1

/-! ## Exhaustion (R316 to R319) -/

/-- Detail of WAYBILL_EXHAUSTED (R338). -/
def exhDetail (tag req outcome victim pages slot : Nat) : List Byte :=
  leBytes 4 tag ++ leBytes 1 req ++ leBytes 1 outcome ++ leBytes 2 victim ++ leBytes 4 pages ++ leBytes 2 slot ++ leBytes 2 0
/-- WAYBILL_EXHAUSTED. -/
def exhausted (s : State) (q tag req outcome victim pages slot : Nat) : State :=
  raiseEvent s 0x0501 (if outcome = 0 then 1 else if outcome = 4 then 0 else 2) (qCtx s q) (srcOf 3 q)
    (exhDetail tag req outcome victim pages slot)

/-- The order among candidates: context priority, stage of opening, slot (R317). -/
def beforeCand (s : State) (a b : Nat × Sequence) : Bool :=
  let pa := ctxPriority s a.2.ctx
  let pb := ctxPriority s b.2.ctx
  decide (pa < pb) || (decide (pa = pb) && (decide (a.2.opened.toNat < b.2.opened.toNat) ||
    (decide (a.2.opened = b.2.opened) && decide (a.1 < b.1))))

/-- The first of a list in an order. -/
def bestOf {α : Type} (lt : α → α → Bool) : List α → Option α
  | [] => none
  | x :: t => match bestOf lt t with
    | none => some x
    | some y => some (if lt y x then y else x)

/-- The victim sequence slot for a requester (R317). -/
def victimOf (s : State) (p : Partition) (q own : Nat) : Option Nat :=
  let cand := s.kv.sequences.filter (fun x => decide (x.2.part = p.part) && decide (x.1 ≠ own) &&
    decide (ctxPriority s x.2.ctx ≤ ctxPriority s (qCtx s q)) && x.2.swapping.isEmpty &&
    !(seqPages s x.1).any (fun y => swapping s y.1) && (seqPages s x.1).any (fun y => swappable s y.1 y.2))
  match bestOf (beforeCand s) cand with
  | some x => some x.1
  | none => if (seqPages s own).any (fun y => swappable s y.1 y.2 && !hasReader s y.1 none) then some own else none

/-- Schedules the swap-out of every swappable page of a victim. -/
def swapVictim (s : State) (p : Partition) (q v : Nat) : State :=
  let pages := ((seqPages s v).filter (fun y => swappable s y.1 y.2)).map (·.1)
  let s1 := modSeq s v (fun x => { x with swapping := pages.filter (fun i => hasReader s i none) })
  (pages.filter (fun i => !hasReader s i none)).foldl (fun t i => startSwap t p q i) s1

/-- A swap-out that could free a frame of the partition is in progress, or waits for its readers. -/
def swapPending (s : State) (p : Partition) : Bool :=
  s.kv.swaps.any (fun w => w.part = p.part && !w.inward) ||
  (decide ((swapUsedList s p.part).length < swapSlots s p.part) &&
    s.kv.sequences.any (fun x => decide (x.2.part = p.part) && !x.2.swapping.isEmpty))

/-- Chooses a victim for a stalled requester, or freezes its queue when nothing can be swapped (R316, R319). -/
def relieve (s : State) (p : Partition) (q tag kind own : Nat) (first : Bool) : State :=
  match victimOf s p q own with
  | some v =>
    let n := ((seqPages s v).filter (fun y => swappable s y.1 y.2)).length
    let s1 := swapVictim (if first then exhausted s q tag kind 0 v n own else s) p q v
    if swapPending s1 p then s1 else freeze (exhausted s1 q tag kind 1 0xFFFF 0 own) 8 q p.part 0x0501
  | none =>
    if swapPending s p then (if first then exhausted s q tag kind 0 0xFFFF 0 own else s)
    else freeze (exhausted s q tag kind 1 0xFFFF 0 own) 8 q p.part 0x0501

/-- A requester asks for a frame: the frame given to it, or the state with the requester stalled (R316). -/
def takeFrame (s : State) (p : Partition) (q tag kind i own : Nat) : Option Nat × State :=
  match s.kv.stalls.find? (fun t => t.queue = q && t.kind = kind && t.index = i) with
  | some t =>
    (match t.frame with
      | none => (none, s)
      | some f => (some f, { s with kv := { s.kv with stalls := s.kv.stalls.filter (fun u => !(u.queue = q && u.kind = kind && u.index = i)) } }))
  | none =>
    let others := s.kv.stalls.any (fun t => t.part = p.part && t.frame.isNone)
    match (if others then none else pickFree s p.frames (usedFrames s p)) with
    | some f => (some f, drawn s)
    | none =>
      (none, relieve { s with kv := { s.kv with stalls := s.kv.stalls ++ [⟨q, kind, i, own, p.part, none⟩] } } p q tag kind own true)

/-! ## Sealing (R28, R305, R310) -/

/-- How an action on a page ends. -/
inductive PageRes where
  | done (s : State)
  | wait (s : State)
  | replay (s : State)

/-- A page becomes eligible for the streams that have selected it: each notes its turn (R323). -/
def nowEligible (s : State) (i : Nat) : State :=
  let waits := fun (k : Pick) => k.index = i && !k.taken && k.turn = 0
  let turn := fun (x : Stream) => if x.picks.any waits then
      { x with turns := x.turns + 1, picks := x.picks.map (fun k => if waits k then { k with turn := x.turns + 1 } else k) }
    else x
  { s with kv := { s.kv with streams := tabMap {} (fun _ x => turn x) s.kv.streams } }

/-- Seals a FILLING page for a packet of queue q; a page sealed already is left. -/
def sealPage (s : State) (q tag i : Nat) : PageRes :=
  let e := getWay s i
  if e.state ≠ 1 then .done s
  else match poolOf s i with
    | none => .done s
    | some p =>
      match frameBad s p e.loc 0 (imageBytes e.kfmt) with
      | some b =>
        let r := uncorrectable s (qCtx s q) (srcOf 3 q) tag (some (.queue q)) b
        if r.1 then .wait r.2 else .replay r.2
      | none =>
        let crc := crc32c (frameRead s p e.loc 0 (imageBytes e.kfmt))
        .done (nowEligible (setWay (putTrailer s p i crc.toNat 0) i { e with state := 2 }) i)

/-- Seals a list of pages in order. -/
def sealAll (s : State) (q tag : Nat) : List Nat → PageRes
  | [] => .done s
  | i :: t => match sealPage s q tag i with
    | .done s1 => sealAll s1 q tag t
    | r => r

/-- Nothing of an earlier swap of a page counts any more: it has been released or renewed (R318). -/
def dropSwap (s : State) (i : Nat) : State :=
  freeSlots { s with kv := { s.kv with
    swaps := s.kv.swaps.filter (fun w => w.index ≠ i), noSwap := s.kv.noSwap.filter (· ≠ i) } }

/-- Frees a page: its entry reads zero, and its swap slot is freed. -/
def freePage (s : State) (i : Nat) : State := dropSwap (setWay s i ⟨0, 0, 0, 0, 0, 0, 0, 0, 0, 0⟩) i

end Sys2Proof.Machine
end

