-- ==== Sys2Proof/Machine/Packets.lean ====
section
/-! DEFINITION. What every packet shares: its header (R380), the gate of issue (R27, R97, R474), failed issue checks (R97,
R98), starting a packet, and completing one: journal, signals, record, interrupt (R27, R81, R385 to R390, R398). -/

namespace Sys2Proof.Machine

/-! ## Header (R380) -/

/-- Opcode of a packet. -/
def pkOp (p : List Byte) : Nat := fieldAt p 0 1
/-- `quiet`. -/
def pkQuiet (p : List Byte) : Bool := bitOf (fieldAt p 1 1) 0
/-- Length in 64-byte units. -/
def pkLen (p : List Byte) : Nat := fieldAt p 2 2
/-- Tag. -/
def pkTag (p : List Byte) : Nat := fieldAt p 4 4
/-- Queue sequence number. -/
def pkSeq (p : List Byte) : Nat := fieldAt p 8 8

/-- The length that an opcode must have; none for an opcode that is not listed, 0 for NOP, which takes any of 1 to 4
(R382). -/
def opLength (op : Nat) : Option Nat :=
  match op with
  | 0x01 => some 4 | 0x02 => some 4 | 0x03 => some 4 | 0x04 => some 3 | 0x05 => some 4
  | 0x08 => some 4 | 0x09 => some 1 | 0x10 => some 1 | 0x11 => some 1 | 0x12 => some 1 | 0x13 => some 1
  | 0x18 => some 2 | 0x20 => some 1 | 0x28 => some 2 | 0x29 => some 1 | 0x2A => some 1
  | 0x30 => some 1 | 0x38 => some 1 | 0x39 => some 1 | 0x3E => some 1 | 0x3F => some 0 | _ => none

/-! ## Failed checks (R98) -/

/-- A failed issue check: event code, and the fields of bytes 20 to 31 of R98. -/
structure CheckFail where
  code : Nat
  check : Nat
  item : Nat
  b22 : Nat
  req : Nat
  avail : Nat
  deriving DecidableEq, Repr

/-- Detail of R98; a COLLECTIVE_MISMATCH at issue has the layout of R297: group, cause, position, sequence number, local value. -/
def CheckFail.detail (f : CheckFail) (tag : Nat) : List Byte :=
  if f.code = 0x0401 then
    leBytes 4 tag ++ leBytes 1 f.item ++ leBytes 1 f.check ++ leBytes 2 f.b22 ++ leBytes 4 f.req ++ leBytes 4 f.avail
  else
    leBytes 4 tag ++ leBytes 1 f.check ++ leBytes 1 f.item ++ leBytes 1 f.b22 ++ leBytes 1 0 ++
    leBytes 4 f.req ++ leBytes 4 f.avail

/-- ILLEGAL_TILE_SHAPE of a field (check 2). -/
def fieldFail (item req avail : Nat) : CheckFail := ⟨0x0104, 2, item, 0, req, avail⟩
/-- ILLEGAL_TILE_SHAPE of the header or a reserved field (check 13) at a byte of the packet. -/
def headFail (item off : Nat) : CheckFail := ⟨0x0104, 13, item, 0, off, 0⟩
/-- FORMAT_UNSUPPORTED (check 1). -/
def fmtFail (item : Nat) : CheckFail := ⟨0x0105, 1, item, 0, 0, 0⟩
/-- WINDOW_VIOLATION of a placement or a permission (check 12). -/
def placeFail (item req : Nat) : CheckFail := ⟨0x0303, 12, item, 0, req, 0⟩

/-- The first failure of a list of checks. -/
def firstFail (l : List (Option CheckFail)) : Option CheckFail := l.findSome? id

/-- A check as an option: the failure where the condition does not hold. -/
def need (ok : Bool) (f : CheckFail) : Option CheckFail := if ok then none else some f

/-- Header faults (R379, R382): opcode, flags, length, in byte order, item 15. -/
def headerCheck (p : List Byte) : Option CheckFail :=
  match opLength (pkOp p) with
  | none => some (headFail 15 0)
  | some n =>
    if bitsOf (fieldAt p 1 1) 7 1 ≠ 0 then some (headFail 15 1)
    else if pkLen p = 0 || decide (4 < pkLen p) || (decide (n ≠ 0) && decide (pkLen p ≠ n)) ||
        decide (p.length < 64 * pkLen p) then some (headFail 15 2)
    else none

/-- A region of a packet whose bits under a mask must be zero, with the item of its failure. -/
structure Rsv where
  off : Nat
  len : Nat
  mask : Nat
  item : Nat
  deriving DecidableEq, Repr

/-- A wholly reserved region. -/
def rsvAll (off len item : Nat) : Rsv := ⟨off, len, 2 ^ (8 * len) - 1, item⟩

/-- Byte of the lowest non-zero byte of a number. -/
def lowByte : Nat → Nat → Nat
  | 0, _ => 0
  | k + 1, x => if x % 256 ≠ 0 then 0 else 1 + lowByte k (x / 256)

/-- The first non-zero reserved field. -/
def rsvCheck (p : List Byte) (l : List Rsv) : Option CheckFail :=
  l.findSome? (fun r =>
    let x := fieldAt p r.off r.len &&& r.mask
    if x = 0 then none else some (headFail r.item (r.off + lowByte r.len x)))

/-! ## Signal words (R81) -/

/-- A signal word's reserved bits. -/
def sigRsv (off : Nat) : Rsv := ⟨off, 4, 0x0F000000, 34⟩

/-- An enabled signal word whose amount is 0 (R98, item 34). -/
def sigCheck (p : List Byte) (off : Nat) : Option CheckFail :=
  let w := fieldAt p off 4
  need (!bitOf w 31 || bitsOf w 23 16 ≠ 0) (fieldFail 34 w 0)

/-- Offset of the first signal word of an opcode; 0 where the packet has none. The second follows it. -/
def sigOffset (op : Nat) : Nat :=
  match op with
  | 0x01 => 128 | 0x02 => 128 | 0x03 => 192 | 0x04 => 120 | 0x05 => 152 | 0x08 => 172 | 0x09 => 40 | 0x13 => 32
  | 0x18 => 44 | 0x20 => 48 | 0x28 => 64 | 0x29 => 40 | 0x2A => 48 | 0x38 => 40 | 0x39 => 32 | _ => 0

/-- The operation of an enabled signal word. -/
def sigOp (ctx tag w : Nat) (iss : Issuer) (ord : Nat) : TallyOp :=
  { code := 6, ctx := ctx, vid := bitsOf w 15 0, scope := bitsOf w 30 28, amount := BitVec.ofNat 32 (bitsOf w 23 16),
    issuer := iss, tag := BitVec.ofNat 32 tag, ord := ord, node := none, dest := 0 }

/-- Performs one signal word: its operation is applied at its home. -/
def doSignal (s : State) (ctx tag w : Nat) (iss : Issuer) : State :=
  if bitOf w 31 then applyOp s (sigOp ctx tag w iss 0) else s

/-- Performs the two signal words of a packet, `signal0` first. -/
def doSignals (s : State) (ctx : Nat) (p : List Byte) (iss : Issuer) : State :=
  let o := sigOffset (pkOp p)
  if o = 0 then s
  else doSignal (doSignal s ctx (pkTag p) (fieldAt p o 4) iss) ctx (pkTag p) (fieldAt p (o + 4) 4) iss

/-! ## Issue -/

/-- A context whose partition a configuration command is quiescing issues nothing (R440), nor one whose restore failed
(R442). -/
def quiescing (s : State) (ctx : Nat) : Bool :=
  s.cfg.kept.contains ctx || match s.cfg.apply with
  | none => false
  | some a => match partOfCtx s ctx with
    | none => false
    | some p => a.changed.contains p.part

/-- The device works: ready, powered, not frozen, not failed. -/
def devRuns (s : State) : Bool := s.dev.ready && s.dev.powered && !devFrozen s && !s.dev.failed

/-- The packet that queue q may issue now: its oldest accepted one, when nothing of the queue is in execution, the queue is
not stopped and neither it nor its context is frozen (R27, R395, R474). -/
def nextPacket (s : State) (q : Nat) : Option (List Byte) :=
  let u := getQ s q
  if devRuns s && u.run.isNone && !u.stopped && !isFrozen s 1 (qCtx s q) && !isFrozen s 8 q &&
      !quiescing s (qCtx s q) then
    match u.journal with
    | [] => none
    | e :: _ => if e.life = .accepted then some e.bytes else none
  else none

/-- A packet of queue q issues where the test names it; nothing happens otherwise (log 4). -/
def onIssue (s : State) (q : Nat) (test : List Byte → Bool) (f : List Byte → State) : Ans :=
  .next (match nextPacket s q with
    | none => s
    | some p => if test p then f p else s)

/-- A failed issue check (R97): one event whose source is the queue, the context frozen with the packet next. -/
def failIssue (s : State) (q : Nat) (p : List Byte) (f : CheckFail) : State :=
  freezeCtx (raiseEvent s f.code 2 (qCtx s q) (srcOf 3 q) (f.detail (pkTag p))) (qCtx s q) f.code

/-- A fresh run. -/
def newRun (s : State) (w : Work) : Run :=
  { work := w, bounds := [], table := [], descs := [], coll := none, collDone := true, seals := [], status := 0, ord := 0,
    issuedAt := s.stage, order := s.host.issues }

/-- The packet has issued: it is the queue's packet in execution. -/
def startRun (s : State) (q : Nat) (r : Run) : State :=
  modQ { s with
    host := { s.host with issues := s.host.issues + 1 }
    power := { s.power with phases := s.power.phases.map (fun x =>
      if x.awaits = some q then { x with awaits := none, start := s.stage } else x) } } q (fun u => { u with
    run := some r
    journal := match u.journal with | [] => [] | e :: t => { e with life := .issued } :: t })

/-- Issues after checks: the first failed check, or the state that `k` gives. -/
def issueChecked (s : State) (q : Nat) (p : List Byte) (c : Option CheckFail) (k : State) : State :=
  match c with
  | some f => failIssue s q p f
  | none => k

/-! ## Records (R385 to R390) -/

/-- A completion record without its phase. -/
def recordBytes (p : List Byte) (status q : Nat) : List Byte :=
  leBytes 8 (pkSeq p) ++ leBytes 4 (pkTag p) ++ leBytes 2 status ++ leBytes 1 0 ++ leBytes 1 q

/-- The record with its phase bit. -/
def withPhase (r : List Byte) (ph : Bool) : List Byte := putAt r 14 [BitVec.ofNat 8 (b2n ph)]

/-- Status of a record. -/
def recStatus (r : List Byte) : Nat := fieldAt r 12 2

/-- The completion ring is full: every entry holds a record that the host has not consumed. -/
def cqFull (s : State) (q : Nat) : Bool := decide (cqSize s q ≤ (getQ s q).posted.length)

/-- The completion vector fires when enough records are unsignalled, without delay when `coal_us` is 0, and at once for a
status other than success; queues attached to the fabric raise no interrupt (R390). -/
def coalesce (s : State) (q : Nat) (status : Nat) : State :=
  if qAttach s q = 2 then s
  else
    let n := max 1 (regField s (hqOff q + 0x18) 12 8)
    let u := (getQ s q).unsignalled
    if decide (n ≤ u) || decide (regField s (hqOff q + 0x18) 7 0 = 0) || decide (status ≠ 0) then
      fireMsix (modQ s q (fun v => { v with unsignalled := 0 })) (qFn s q) (regField s (hqOff q + 0x18) 21 13)
    else s

/-- Writes a record into the next entry (R387). -/
def writeRecord (s : State) (q : Nat) (r : List Byte) : State :=
  let u := getQ s q
  let rec' := withPhase r u.phase
  let t := (u.cqTail.toNat + 1) % cqSize s q
  let s1 := gWrite s (regAddr s (hqOff q + 8) 12 + 16 * u.cqTail.toNat) rec'
  let s2 := modQ s1 q (fun v => { v with
    cqTail := BitVec.ofNat 16 t
    phase := if t = 0 then !v.phase else v.phase
    doneSeq := BitVec.ofNat 64 (fieldAt r 0 8)
    posted := v.posted ++ [r]
    unsignalled := v.unsignalled + 1 })
  coalesce s2 q (recStatus r)

/-- A record is written, or waits in the device while the ring is full or other records wait (R387). -/
def postRecord (s : State) (q : Nat) (r : List Byte) : State :=
  if cqFull s q || !(getQ s q).waiting.isEmpty then modQ s q (fun u => { u with waiting := u.waiting ++ [r] })
  else writeRecord s q r

/-- Writes the records that wait while entries are free. -/
def drainRecords : Nat → State → Nat → State
  | 0, s, _ => s
  | k + 1, s, q =>
    match (getQ s q).waiting with
    | [] => s
    | r :: t =>
      if cqFull s q then s
      else drainRecords k (writeRecord (modQ s q (fun u => { u with waiting := t })) q r) q

/-! ## Fabric writes (R222, R248) -/

/-- Flow of a master's messages (R344); a master that the table of classes does not name uses class 4. -/
def flowOf (i : Issuer) : Nat :=
  match i with
  | .chan x => x % 4096
  | .convoy c => 0x1000 + c
  | .stream st => 0x2000 + st
  | _ => 0x4000

/-- The fabric writes that have come about since `before` belong to a master: its flow numbers them. -/
def tagSent (before s : State) (i : Issuer) : State :=
  let n := before.fab.sent.length
  let f := flowOf i
  { s with fab := { s.fab with
    sent := s.fab.sent.take n ++ (s.fab.sent.drop n).map (fun x => { x with who := some i, flow := BitVec.ofNat 16 f })
    flowSent := (s.fab.sent.drop n).foldl (fun t x => tabMod 0 t (x.dest.toNat * 65536 + f) (· + 1)) s.fab.flowSent } }

/-- Every fabric access of the queue's packet has been answered. -/
def acked (s : State) (q : Nat) : Bool :=
  !s.fab.sent.any (fun x => match x.who with | some i => decide (issuerQueue s i = some q) | none => false)

/-! ## Completion (R27, R395, R398) -/

/-- The packet in execution. -/
def curPacket (s : State) (q : Nat) : Option (List Byte) :=
  ((getQ s q).journal.find? (fun e => e.life = .issued)).map (·.bytes)

/-- Completes the packet in execution: the journal first, then its signals on success, then its record unless it is quiet
and successful; REPLAY_REQUIRED stops the queue (R395). -/
def completePacket (s : State) (q : Nat) (status : Nat) : State :=
  match curPacket s q with
  | none => s
  | some p =>
    let counted := addCtr s 8 q 1 1
    let s1 := modQ (endReaders (if status = 0x0010 then addCtr counted 8 q 3 1 else counted) q) q (fun u => { u with
      run := none
      journal := u.journal.filter (fun e => !(e.life = .issued))
      stopped := u.stopped || decide (status = 0x0010) })
    let s2 := if status = 0 then doSignals s1 (qCtx s1 q) p (.word q) else s1
    if pkQuiet p && decide (status = 0) then s2 else postRecord s2 q (recordBytes p status q)

/-- The slots that a manifest has filled are emptied: its next execution starts afresh (R236). -/
def rewindRing (start : Nat) (r : Ring) : Ring :=
  { r with
    head := BitVec.ofNat 8 start, filled := start, mark := 0
    states := (upFrom start (r.filled + 1 - start)).foldl (fun l j => listSet l (if r.slots = 0 then 0 else j % r.slots) 0) r.states }

/-- The units that work for a queue's packet stop: blocks leave their engines, channels are freed, operations on their way
and waits end, drover groups are released (R27, R396, R399). -/
def dropWork (s : State) (q : Nat) : State :=
  let mine := fun (i : Issuer) => decide (issuerQueue s i = some q)
  let isQ := fun (k : Nat) => decide ((getGrp s k).queue = some q)
  let stopEng := fun (e : Nat) (g : Engine) =>
    let g1 := match g.block with
      | some b => if issuerQueue s b.owner = some q then
          { g with block := none, form := 0, array := if g.array = 2 then 3 else g.array } else g
      | none => g
    { g1 with slots := (g1.slots.zip (upFrom 0 g1.slots.length)).map (fun x =>
        if x.1.state ≠ 0 && mine (.slot e x.2) then ({} : LaunchSlot) else x.1) }
  let ringOf := fun (c : Nat × Chan) => if bitOf (fieldAt c.2.bytes 140 4) 31 then
      (chanEngine s c.1).map (fun e => (16 * e + bitsOf (fieldAt c.2.bytes 140 4) 30 27, c.2.startFilled)) else none
  { s with
    comp := { s.comp with
      engines := tabMap {} stopEng s.comp.engines
      rings := (s.comp.chans.filter (fun x => mine x.2.owner)).foldl (fun t c => match ringOf c with
        | some k => tabMod {} t k.1 (rewindRing k.2)
        | none => t) s.comp.rings
      chans := s.comp.chans.filter (fun x => !mine x.2.owner)
      drovers := tabMap {} (fun d v => if isQ (grpOf d) then { v with st := .idle } else v) s.comp.drovers
      groups := tabMap {} (fun _ g => if g.queue = some q then ({} : Group) else g) s.comp.groups
      xferWait := s.comp.xferWait.filter (fun i => !mine i) }
    fab := { s.fab with sent := s.fab.sent.map (fun x => match x.who with | some i => if mine i then { x with who := none } else x | none => x) }
    sync := { s.sync with
      flight := s.sync.flight.filter (fun o => !mine o.issuer)
      waiters := s.sync.waiters.filter (fun w => !mine w.op.issuer) }
    kv := { s.kv with stalls := s.kv.stalls.filter (fun t => t.queue ≠ q) }
    frozen := s.frozen.filter (fun f => !(f.kind = 2 && isQ f.index.toNat) && !(f.kind = 8 && f.index.toNat = q)) }

/-- The packet in execution becomes the queue's next packet again (R274, R399). -/
def unissue (s : State) (q : Nat) : State :=
  modQ (endReaders (dropWork s q) q) q (fun u => { u with
    run := none
    journal := u.journal.map (fun e => if e.life = .issued then { e with life := .accepted } else e) })

/-- A packet that completes at issue. -/
def completeAtIssue (s : State) (q : Nat) : State :=
  completePacket (startRun s q (newRun s .finished)) q 0

end Sys2Proof.Machine
end

