-- ==== Sys2Proof/Machine/Plan.lean ====
section
/-! DEFINITION. Macro packets MATMUL, MATMUL_BATCHED, MATVEC and CONV: their fields (R74 to R86, R106, R107), forms (R71,
R72), line widths and capacities (R94 to R96, R108), and the issue checks of R93 in order. -/

namespace Sys2Proof.Machine

/-! ## Fields -/

/-- An operand of a macro packet. -/
structure Operand where
  addr : Nat
  stride : Nat
  fmt : Nat
  mode : Nat
  transposed : Bool
  plane : Nat
  scAddr : Nat
  scStride : Nat
  /-- bytes from problem to problem: elements and scales -/
  batch : Nat
  scBatch : Nat
  deriving DecidableEq, Repr

/-- A macro packet other than CONV, its fields named as in R74, R84 and R86. -/
structure Plan where
  op : Nat
  a : Operand
  b : Operand
  cAddr : Nat
  cStride : Nat
  cBatch : Nat
  bias : Nat
  biasBatch : Nat
  shape : Nat
  alpha : Nat
  mB : Nat
  nB : Nat
  kB : Nat
  pB : Nat
  mPlan : Nat
  nPlan : Nat
  kPlan : Nat
  pPlan : Nat
  bm : Nat
  bn : Nat
  outFmt : Nat
  outMode : Nat
  aop : Nat
  pass : Nat
  walk : Nat
  panel : Nat
  place : Nat
  table : Nat
  /-- offset of the collective block -/
  coll : Nat
  deriving DecidableEq, Repr

/-- An operand word (R75). -/
def mkOperand (word addr stride plane sc scStride batch scBatch : Nat) : Operand :=
  ⟨addr, stride, bitsOf word 31 28, bitsOf word 27 26, bitOf word 25, plane, sc, scStride, batch, scBatch⟩

/-- The plan of a MATMUL, MATMUL_BATCHED or MATVEC packet. -/
def planOf (p : List Byte) : Plan :=
  let f := fieldAt p
  if pkOp p = 4 then
    { op := 4
      a := mkOperand (f 96 4) (f 16 8) (f 56 4) 0 (f 128 8) (f 144 4) 0 0
      b := mkOperand (f 100 4) (f 24 8) (f 60 4) 0 (f 136 8) (f 148 4) 0 0
      cAddr := f 32 8, cStride := f 64 4, cBatch := 0, bias := f 40 8, biasBatch := 0, shape := f 48 8, alpha := f 68 4
      mB := f 72 4, nB := f 76 4, kB := f 80 4, pB := 1, mPlan := 4, nPlan := f 84 4, kPlan := f 88 4, pPlan := 1
      bm := 4, bn := f 92 2
      outFmt := bitsOf (f 104 4) 31 28, outMode := bitsOf (f 104 4) 27 26
      aop := bitsOf (f 104 4) 25 22, pass := bitsOf (f 104 4) 21 20
      walk := f 108 4, panel := f 112 4, place := f 116 4, table := 0, coll := 168 }
  else
    let bt := decide (pkOp p = 2)
    let g := fun o n => if bt then f o n else 0
    { op := pkOp p
      a := mkOperand (f 100 4) (f 16 8) (f 56 4) (f 136 8) (f 152 8) (f 160 4) (g 184 8) (g 216 4)
      b := mkOperand (f 104 4) (f 24 8) (f 60 4) (f 144 8) (f 168 8) (f 164 4) (g 192 8) (g 220 4)
      cAddr := f 32 8, cStride := f 64 4, cBatch := g 200 8, bias := f 40 8, biasBatch := g 224 8, shape := f 48 8
      alpha := f 68 4
      mB := f 72 4, nB := f 76 4, kB := f 80 4, pB := if bt then f 176 4 else 1
      mPlan := f 84 4, nPlan := f 88 4, kPlan := f 92 4, pPlan := if bt then f 180 4 else 1
      bm := f 96 2, bn := f 98 2
      outFmt := bitsOf (f 108 4) 31 28, outMode := bitsOf (f 108 4) 27 26
      aop := bitsOf (f 108 4) 25 22, pass := bitsOf (f 108 4) 21 20
      walk := f 112 4, panel := f 116 4, place := f 120 4, table := g 208 8, coll := 232 }

/-- Walk word fields (R79). -/
def wkOrder (w : Nat) : Nat := bitsOf w 31 30
/-- `anchor`: true when B is the anchor operand. -/
def wkAnchorB (w : Nat) : Bool := bitOf w 29
/-- `group_g`. -/
def wkGroup (w : Nat) : Nat := bitsOf w 28 24
/-- `drain_depth`. -/
def wkDepth (w : Nat) : Nat := bitsOf w 23 21
/-- `stream_ring`. -/
def wkStream (w : Nat) : Nat := bitsOf w 20 17
/-- `anchor_ring`. -/
def wkAnchorRing (w : Nat) : Nat := bitsOf w 16 13
/-- `slot_lines`. -/
def wkLines (w : Nat) : Nat := bitsOf w 12 4
/-- `anchor_single`. -/
def wkSingle (w : Nat) : Bool := bitOf w 3

/-! ## Formats (R34, R38, R39, R40, R54, R58, R72) -/

/-- Depth per cycle of a format (R34); FP32 reaches the array as BF16 planes (R59). -/
def depth1 (c : Nat) : Nat := if c = 7 ∨ c = 9 then 8 else if c = 0 ∨ c = 1 ∨ c = 2 then 2 else 4
/-- Depth of a pair: the smaller of the two. -/
def depthOf (a b : Nat) : Nat := min (depth1 a) (depth1 b)
/-- Array input formats (R18). -/
def isInput (c : Nat) : Bool := decide (c ≤ 9)
/-- Floating-point array inputs other than FP32. -/
def isFpIn (c : Nat) : Bool := decide (1 ≤ c) && decide (c ≤ 7)
/-- A scale mode is legal on an operand format (R39). -/
def scaleOk (c mode : Nat) : Bool :=
  decide (mode = 0) || (decide (mode = 1) && decide (3 ≤ c) && decide (c ≤ 8)) ||
  (decide (mode = 2) && decide (3 ≤ c) && decide (c ≤ 7))
/-- A pair of R38 other than FP32. -/
def pairOk (a b : Nat) : Bool := (isFpIn a && isFpIn b) || ((a = 8 || a = 9) && (b = 8 || b = 9))
/-- Operation, pass mode, formats and scale modes agree (R38, R54, R58). -/
def opOk (aop pass fa fb sa sb : Nat) : Bool :=
  if aop = 0 then
    (if pass = 1 then fa = 0 && fb = 0 else if pass = 2 then fa = 8 && fb = 8 else pairOk fa fb)
  else if pass ≠ 0 then false
  else if aop = 1 ∨ aop = 2 then fa = 2 && fb = 2 && sa = 0 && sb = 0
  else if aop = 3 then
    (fa = 1 && fb = 1 && sa = 0 && sb = 0) || ((fa = 3 || fa = 4) && (fb = 3 || fb = 4))
  else if aop = 4 then fa = 8 && fb = 8 && sa = 0 && sb = 0
  else false
/-- Output format and scale mode (R40). -/
def outOk (c mode : Nat) : Bool :=
  (mode = 0 && (c = 0 || c = 1 || c = 2 || c = 3 || c = 4 || c = 8 || c = 11)) || (mode = 1 && (c = 3 || c = 4 || c = 7))
/-- The pair is legal on the side path (R72). -/
def sideOk (fa fb sa sb : Nat) : Bool :=
  [1, 2, 3, 4, 8].contains fa && [1, 2, 3, 4, 7, 8, 9].contains fb && pairOk fa fb && scaleOk fa sa && scaleOk fb sb
/-- The form of a block (R72): 1 square, 2 16 × 64, 3 8 × 128, 4 side path. -/
def formOf (mHat : Nat) (latency : Bool) (fa fb sa sb aop pass : Nat) : Nat :=
  if aop ≠ 0 ∨ pass ≠ 0 then 1
  else if mHat ≤ 4 && latency && sideOk fa fb sa sb then 4
  else if mHat ≤ 8 then 3
  else if mHat ≤ 16 then 2
  else 1
/-- Tile rows of a form (R71). -/
def tileRows (form : Nat) : Nat := match form with | 2 => 16 | 3 => 8 | 4 => 4 | _ => 32
/-- Tile columns of a form (R71). -/
def tileCols (form : Nat) : Nat := match form with | 2 => 64 | 3 => 128 | 4 => 256 | _ => 32
/-- skew_A of a form. -/
def skewA (form : Nat) : Nat := if form = 1 then 7 else 0
/-- skew_B of a form. -/
def skewB (form : Nat) : Nat := if form = 4 then 0 else 7
/-- Planes of a pass mode (R94). -/
def planesOf (pass : Nat) : Nat := match pass with | 0 => 1 | 1 => 3 | _ => 2
/-- Element bits in a line: FP6 occupies 8 bits, FP32 travels as BF16 planes (R94). -/
def lineBits (c : Nat) : Nat := if c = 0 then 16 else if c = 5 ∨ c = 6 then 8 else fmtBits c
/-- Scale part of a line (R94). -/
def lineScale (mode r d : Nat) : Nat :=
  match scaleSpan mode with
  | 0 => 0
  | n => if r * d % n = 0 then r * d / n else r
/-- Line width of an operand (R94). -/
def lineWidth (q c mode r d : Nat) : Nat := q * (r * ceilDiv (d * lineBits c) 8 + lineScale mode r d)

/-! ## Placement (R80) -/

/-- The clusters of a placement word. -/
def placeClusters (w : Nat) : List Nat := upFrom (bitsOf w 31 25) (bitsOf w 24 18)
/-- A cluster may be named by a context: present, and in its partition. -/
def cluAllowed (s : State) (ctx c : Nat) : Bool :=
  cluPresent s c && (match partOfCtx s ctx with | none => false | some p => p.clusters.contains c)
/-- The count of R80. -/
def placeCountCheck (w : Nat) : Option CheckFail :=
  need (decide (1 ≤ bitsOf w 24 18) && decide (bitsOf w 24 18 ≤ 80)) (fieldFail 33 (bitsOf w 24 18) 80)
/-- Placement check: the first cluster of the range that fails. -/
def placeCheck (s : State) (ctx w : Nat) : Option CheckFail :=
  ((placeClusters w).find? (fun c => !cluAllowed s ctx c)).map (placeFail 33)
/-- The engines of a range. -/
def placeEngines (w : Nat) : List Nat := ((placeClusters w).map (fun c => upFrom (16 * c) 16)).flatten

/-! ## Capacities (R94 to R96) -/

/-- What a form needs of the scratchpad: the anchor panel region (offset, bytes, item) and rings (number, slot bytes, slots,
item). -/
structure SpadNeed where
  form : Nat
  panel : Nat × Nat
  panelItem : Nat
  rings : List (Nat × Nat × Nat × Nat)
  acc : Nat
  deriving DecidableEq, Repr

/-- Size of the macro area in bytes. -/
def macroArea (s : State) (e : Nat) : Nat :=
  match partOfClu s (cluOf e) with | none => 524288 | some p => (512 - 16 * p.droverRsv) * 1024
/-- Accumulator share of an engine (R101). -/
def accShare (s : State) (e : Nat) : Nat := match partOfClu s (cluOf e) with | none => 32 | some p => p.accShare

/-- SCRATCH_CAPACITY with the fields of R95 and R98. -/
def spadFail (check item form ring req avail : Nat) : CheckFail := ⟨0x0103, check, item, form + 16 * ring, req, avail⟩

/-- One named ring (R95): placement, slot size, slot count. `i14` is the item of check 14. -/
def ringCheck (s : State) (e form i14 : Nat) (r : Nat × Nat × Nat × Nat) : Option CheckFail :=
  let g := getRing s e r.1
  let area := macroArea s e
  let fin := g.base + g.slots * g.slotBytes
  if g.mem ≠ 1 then some (spadFail 14 i14 form r.1 0xFFFFFFFF area)
  else if area < fin then some (spadFail 14 i14 form r.1 fin area)
  else if g.slotBytes < r.2.1 then some (spadFail 4 r.2.2.2 form r.1 r.2.1 g.slotBytes)
  else if g.slots < r.2.2.1 then some (spadFail 5 r.2.2.2 form r.1 r.2.2.1 g.slots)
  else none

/-- Regions in ascending start: (start, end, item, ring). -/
def insRegion (x : Nat × Nat × Nat × Nat) : List (Nat × Nat × Nat × Nat) → List (Nat × Nat × Nat × Nat)
  | [] => [x]
  | y :: t => if x.1 < y.1 then x :: y :: t else y :: insRegion x t
/-- The first overlap of neighbouring regions. -/
def overlapOf (form : Nat) : List (Nat × Nat × Nat × Nat) → Option CheckFail
  | x :: y :: t => if y.1 < x.2.1 then some (spadFail 6 y.2.2.1 form y.2.2.2 y.1 x.2.1) else overlapOf form (y :: t)
  | _ => none

/-- The scratchpad check of one engine (R95). -/
def spadCheck (s : State) (i14 : Nat) (n : SpadNeed) (e : Nat) : Option CheckFail :=
  let area := macroArea s e
  let fin := n.panel.1 + n.panel.2
  if n.panel.2 ≠ 0 ∧ area < fin then some (spadFail 3 n.panelItem n.form 0 fin area)
  else match n.rings.findSome? (ringCheck s e n.form i14) with
    | some f => some f
    | none =>
      let rs := n.rings.map (fun r => let g := getRing s e r.1; (g.base, g.base + g.slots * g.slotBytes, r.2.2.2, r.1))
      let l := if n.panel.2 = 0 then rs else (n.panel.1, fin, n.panelItem, 0) :: rs
      overlapOf n.form (l.foldl (fun acc x => insRegion x acc) [])

/-- The accumulator check of one engine (R96). -/
def accCheck (s : State) (n : SpadNeed) (e : Nat) : Option CheckFail :=
  if accShare s e < n.acc then some ⟨0x0102, 7, 13, n.form, n.acc, accShare s e⟩ else none

/-- Checks 5 and 6 over every form and every engine of the range. -/
def capacityCheck (s : State) (i14 : Nat) (ns : List SpadNeed) (es : List Nat) : Option CheckFail :=
  match ns.findSome? (fun n => es.findSome? (spadCheck s i14 n)) with
  | some f => some f
  | none => ns.findSome? (fun n => es.findSome? (accCheck s n))

/-- What a form of a plan needs (R94, R96). -/
def planNeed (p : Plan) (form : Nat) : SpadNeed :=
  let d := depthOf p.a.fmt p.b.fmt
  let q := planesOf p.pass
  let S := ceilDiv p.kPlan d
  let lA := lineWidth q p.a.fmt p.a.mode (tileRows form) d
  let lB := lineWidth q p.b.fmt p.b.mode (tileCols form) d
  let anc := if wkAnchorB p.walk then (lB, skewB form, 1) else (lA, skewA form, 0)
  let str := if wkAnchorB p.walk then (lA, skewA form, 0) else (lB, skewB form, 1)
  let L := wkLines p.walk
  let kc := L - 7
  let nk := ceilDiv S kc
  let c := if p.pass = 3 then 2 else 1
  if wkOrder p.walk = 0 then
    { form := form, panel := (p.panel, (if wkSingle p.walk then 1 else 2) * round128 (anc.1 * (S + anc.2.1))),
      panelItem := anc.2.2, rings := [(wkStream p.walk, round128 (str.1 * L), ceilDiv (S + str.2.1) L, str.2.2)],
      acc := if form = 4 then 1 + wkDepth p.walk else c * (2 + wkDepth p.walk) }
  else
    { form := form, panel := (0, 0), panelItem := anc.2.2,
      rings := [(wkAnchorRing p.walk, round128 (anc.1 * (kc + anc.2.1)), nk, anc.2.2),
        (wkStream p.walk, round128 (str.1 * (kc + str.2.1)), wkGroup p.walk * nk, str.2.2)],
      acc := if form = 4 then 1 + wkDepth p.walk else c * (wkGroup p.walk + wkDepth p.walk) }

/-- The forms a plan may use (R93): in table mode every thinner form too. -/
def planForms (p : Plan) (latency : Bool) : List Nat :=
  if p.op = 4 then [4]
  else
    let f := fun m => formOf m latency p.a.fmt p.b.fmt p.a.mode p.b.mode p.aop p.pass
    if p.table = 0 then [f p.bm]
    else ((p.bm :: [1, 5, 9].filter (fun h => decide (h < p.bm))).map f).eraseDups

/-! ## Checks 1 to 3 (R93) -/

/-- Reserved fields of MATMUL, MATMUL_BATCHED and MATVEC, in byte order. -/
def planRsv (p : List Byte) : List Rsv :=
  if pkOp p = 4 then
    [rsvAll 94 2 15, ⟨96, 4, 0x1FFFFFF, 0⟩, ⟨100, 4, 0x1FFFFFF, 1⟩, ⟨104, 4, 0xFFFFF, 2⟩, ⟨108, 4, 7, 13⟩,
     ⟨116, 4, 0x3FFFF, 33⟩, sigRsv 120, sigRsv 124, rsvAll 152 16 15]
  else
    [⟨100, 4, 0x1FFFFFF, 0⟩, ⟨104, 4, 0x1FFFFFF, 1⟩, ⟨108, 4, 0xFFFFF, 2⟩, ⟨112, 4, 7, 13⟩, ⟨120, 4, 0x3FFFF, 33⟩,
     sigRsv 128, sigRsv 132] ++ (if pkOp p = 1 then [rsvAll 176 56 7] else [])

/-- Check 2. -/
def planFormats (p : Plan) : Option CheckFail :=
  firstFail [
    need (isInput p.a.fmt && scaleOk p.a.fmt p.a.mode) (fmtFail 0),
    need (isInput p.b.fmt && scaleOk p.b.fmt p.b.mode) (fmtFail 1),
    need (outOk p.outFmt p.outMode) (fmtFail 2),
    need (opOk p.aop p.pass p.a.fmt p.b.fmt p.a.mode p.b.mode) (fmtFail 2),
    need (p.op ≠ 4 || (p.aop = 0 && p.pass = 0 && sideOk p.a.fmt p.b.fmt p.a.mode p.b.mode)) (fmtFail 2)]

/-- A bound word is legal (R78). -/
def boundOk (w : Nat) : Bool :=
  bitsOf w 31 30 = 0 || (bitsOf w 31 30 = 1 && bitsOf w 29 6 = 0) || (bitsOf w 31 30 = 2 && bitsOf w 29 16 = 0)

/-- The walk word (R79, R86) and the panel offset. -/
def walkOk (p : Plan) : Bool :=
  let w := p.walk
  decide (wkOrder w ≤ 1) && decide (1 ≤ wkDepth w) && decide (8 ≤ wkLines w) && decide (p.panel % 128 = 0) &&
  (if wkOrder w = 0 then wkGroup w = 0 && wkAnchorRing w = 0
   else decide (2 ≤ wkGroup w) && decide (wkGroup w ≤ 30) && decide (wkAnchorRing w ≠ wkStream w) && !wkSingle w && p.panel = 0) &&
  (p.op ≠ 4 || (wkOrder w = 0 && !wkAnchorB w))

/-- An output that comes in blocks of 32 (R92). -/
def blocked32 (p : Plan) : Bool := p.outFmt = 7 || p.outFmt = 11 || p.outMode = 1

/-- A 56-bit address field (R74). -/
def addrOk (x : Nat) : Bool := decide (x < 2 ^ 56)

/-- Check 3. -/
def planFields (bytes : List Byte) (p : Plan) (batched : Bool) : Option CheckFail :=
  let so := sigOffset (pkOp bytes)
  let bat := decide (p.op = 2)
  firstFail [
    need (p.op = 4 || fieldAt bytes 124 4 = 0) (fieldFail 15 (fieldAt bytes 124 4) 0),
    need (walkOk p) (fieldFail 13 p.walk 0),
    need (addrOk p.a.addr && addrOk p.a.scAddr) (fieldFail 0 0 0),
    need (addrOk p.b.addr && addrOk p.b.scAddr) (fieldFail 1 0 0),
    need (addrOk p.cAddr) (fieldFail 2 0 0),
    need (addrOk p.bias) (fieldFail 3 0 0),
    need (addrOk p.shape) (fieldFail 4 0 0),
    need (addrOk p.table) (fieldFail 8 0 0),
    need (decide (1 ≤ p.bm)) (fieldFail 4 p.bm 0),
    need (decide (1 ≤ p.bn)) (fieldFail 5 p.bn 0),
    need (decide (1 ≤ p.kPlan)) (fieldFail 6 p.kPlan 0),
    need (boundOk p.mB) (fieldFail 4 p.mB 0),
    need (boundOk p.nB) (fieldFail 5 p.nB 0),
    need (boundOk p.kB) (fieldFail 6 p.kB 0),
    need (!bat || boundOk p.pB) (fieldFail 7 p.pB 0),
    need (decide (2 ≤ p.pass) || (p.a.plane = 0)) (fieldFail 0 0 0),
    need (decide (2 ≤ p.pass) || (p.b.plane = 0)) (fieldFail 1 0 0),
    need (p.a.mode ≠ 0 || p.a.scAddr = 0) (fieldFail 0 0 0),
    need (p.b.mode ≠ 0 || p.b.scAddr = 0) (fieldFail 1 0 0),
    sigCheck bytes so, sigCheck bytes (so + 4),
    need (!bat || batched) (fieldFail 15 2 0),
    need (!bat || (decide (1 ≤ p.pPlan) && decide (p.pPlan ≤ 65535))) (fieldFail 7 p.pPlan 65535),
    need (p.table = 0 || p.mB = 0) (fieldFail 4 p.mB 0),
    need (p.table = 0 || !p.a.transposed) (fieldFail 0 0 0),
    need (!blocked32 p || p.bn % 32 = 0) ⟨0x0104, 9, 5, 0, p.bn, 32⟩]

/-- Checks 1 to 6 of a macro packet for a context, on the engines of its range. -/
def planStatic (s : State) (bytes : List Byte) (ctx : Nat) (latency batched : Bool) (engines : Option (List Nat)) :
    Option CheckFail :=
  let p := planOf bytes
  let forms := planForms p latency
  let es := match engines with | some l => l | none => placeEngines p.place
  firstFail [
    headerCheck bytes,
    rsvCheck bytes (planRsv bytes),
    planFormats p,
    planFields bytes p batched,
    (if engines.isSome then none else placeCountCheck p.place),
    (if engines.isSome then none else placeCheck s ctx p.place),
    capacityCheck s 13 (forms.map (planNeed p)) es]

/-! ## Bounds (R78, R87) -/

/-- One bound read at issue for a packet of queue q. -/
def readBound (s : State) (q ctx shape w : Nat) : Except AccFail Nat :=
  match bitsOf w 31 30 with
  | 0 => .ok (bitsOf w 29 0)
  | 1 => .ok (regWord s (hqOff q + 0x800 + 4 * bitsOf w 5 0)).toNat
  | _ => match xRead s ctx (shape + 4 * bitsOf w 15 0) 4 with
    | .error f => .error f
    | .ok b => .ok (leNat b)

/-- Several bounds in order. -/
def readBounds (s : State) (q ctx shape : Nat) : List Nat → Except AccFail (List Nat)
  | [] => .ok []
  | w :: t => match readBound s q ctx shape w with
    | .error f => .error f
    | .ok x => match readBounds s q ctx shape t with
      | .error f => .error f
      | .ok l => .ok (x :: l)

/-- SHAPE_EXCEEDS_PLAN (check 8). -/
def overPlan (item x plan : Nat) : Option CheckFail :=
  if plan < x then some ⟨0x0101, 8, item, 0, x, plan⟩ else none

/-- The shape table: exactly P entries (R85). -/
def readTable (s : State) (ctx table n : Nat) : Except AccFail (List (Nat × Nat)) :=
  match xRead s ctx table (8 * n) with
  | .error f => .error f
  | .ok b => .ok ((upFrom 0 n).map (fun i => (fieldAt b (8 * i) 4, fieldAt b (8 * i + 4) 4)))

/-- What check 8 and the reads of check 7 give: a failed access, a failed check, or bounds [M, N, K, P] and the table. -/
inductive BoundRes where
  | access (f : AccFail)
  | fail (f : CheckFail)
  | ok (bounds : List Nat) (table : List (Nat × Nat))
  deriving DecidableEq, Repr

/-- Checks 7 to 9 of a macro packet. -/
def planBounds (s : State) (q ctx : Nat) (p : Plan) : BoundRes :=
  let ws := [p.mB, p.nB, p.kB] ++ (if p.op = 2 then [p.pB] else [])
  match readBounds s q ctx p.shape ws with
  | .error f => .access f
  | .ok l =>
    let g := fun i => (l[i]?).getD 1
    let m := g 0
    let n := g 1
    let k := g 2
    let pp := g 3
    match firstFail [overPlan 4 m p.mPlan, overPlan 5 n p.nPlan, overPlan 6 k p.kPlan, overPlan 7 pp p.pPlan] with
    | some f => .fail f
    | none =>
      match (if p.table = 0 then .ok [] else readTable s ctx p.table pp : Except AccFail (List (Nat × Nat))) with
      | .error f => .access f
      | .ok tb =>
        match (tb.zip (upFrom 0 pp)).find? (fun e => decide (p.mPlan < e.1.2)) with
        | some e => .fail ⟨0x0101, 8, 8, 0, e.2, p.mPlan⟩
        | none =>
          if blocked32 p && n % 32 ≠ 0 then .fail ⟨0x0104, 9, 5, 0, n, 32⟩ else .ok [m, n, k, pp] tb

/-! ## Problems and blocks (R69, R85) -/

/-- Rows of problem i. -/
def probM (p : Plan) (bounds : List Nat) (table : List (Nat × Nat)) (i : Nat) : Nat :=
  if p.table = 0 then (bounds[0]?).getD 0 else (((table[i]?).getD (0, 0)).2)
/-- Rows from the base to the rows of problem i in table mode. -/
def probRow (p : Plan) (table : List (Nat × Nat)) (i : Nat) : Nat :=
  if p.table = 0 then 0 else (((table[i]?).getD (0, 0)).1)
/-- Blocks of problem i: ⌈M / block_m⌉ × ⌈N / block_n⌉. -/
def probBlocks (p : Plan) (bounds : List Nat) (table : List (Nat × Nat)) (i : Nat) : Nat :=
  ceilDiv (probM p bounds table i) p.bm * ceilDiv ((bounds[1]?).getD 0) p.bn
/-- Blocks of the packet. -/
def planBlocks (p : Plan) (bounds : List Nat) (table : List (Nat × Nat)) : Nat :=
  listSum ((upFrom 0 ((bounds[3]?).getD 1)).map (probBlocks p bounds table))
/-- The problem and the number within it of a block, problem-major (R85). -/
def findBlock (p : Plan) (bounds : List Nat) (table : List (Nat × Nat)) : Nat → Nat → Nat → Nat × Nat
  | 0, i, n => (i, n)
  | k + 1, i, n =>
    let c := probBlocks p bounds table i
    if n < c then (i, n) else findBlock p bounds table k (i + 1) (n - c)

/-! ## CONV (R106 to R108) -/

/-- Fields of a CONV packet. -/
structure ConvPlan where
  inp : Operand
  filt : Operand
  outAddr : Nat
  bias : Nat
  shape : Nat
  inRow : Nat
  inPix : Nat
  outRow : Nat
  outPix : Nat
  alpha : Nat
  /-- bound words h_out, w_out, c_out, c_in, h_in, w_in -/
  words : List Nat
  /-- plans h_out, w_out, c_out, c_in -/
  plans : List Nat
  kernel : Nat
  bh : Nat
  bw : Nat
  bn : Nat
  outFmt : Nat
  outMode : Nat
  aop : Nat
  pass : Nat
  walk : Nat
  panel : Nat
  place : Nat
  halo : Nat
  deriving DecidableEq, Repr

/-- The plan of a CONV packet. -/
def convOf (p : List Byte) : ConvPlan :=
  let f := fieldAt p
  { inp := mkOperand (f 124 4) (f 16 8) (f 60 4) 0 (f 160 8) (f 176 4) 0 0
    filt := mkOperand (f 128 4) (f 24 8) (f 72 4) 0 (f 168 8) (f 180 4) 0 0
    outAddr := f 32 8, bias := f 40 8, shape := f 48 8, inRow := f 56 4, inPix := f 60 4, outRow := f 64 4, outPix := f 68 4
    alpha := f 76 4, words := [f 80 4, f 84 4, f 88 4, f 92 4, f 96 4, f 100 4]
    plans := [f 104 2, f 106 2, f 108 2, f 110 2], kernel := f 112 4, bh := f 116 2, bw := f 118 2, bn := f 120 2
    outFmt := bitsOf (f 132 4) 31 28, outMode := bitsOf (f 132 4) 27 26
    aop := bitsOf (f 132 4) 25 22, pass := bitsOf (f 132 4) 21 20
    walk := f 136 4, panel := f 140 4, place := f 144 4, halo := f 148 4 }

/-- kh, kw, sh, sw, dh, dw of a kernel word, each 1 to 8 (R107). -/
def kernelFields (w : Nat) : List Nat :=
  [bitsOf w 31 28, bitsOf w 27 24, bitsOf w 23 20, bitsOf w 19 16, bitsOf w 15 12, bitsOf w 11 8]
/-- Kernel field i. -/
def kf (w i : Nat) : Nat := ((kernelFields w)[i]?).getD 1
/-- pad_top. -/
def padTop (w : Nat) : Nat := bitsOf w 7 4
/-- pad_left. -/
def padLeft (w : Nat) : Nat := bitsOf w 3 0

/-- Reserved fields of CONV. -/
def convRsv : List Rsv :=
  [rsvAll 122 2 15, ⟨124, 4, 0x1FFFFFF, 9⟩, ⟨128, 4, 0x1FFFFFF, 10⟩, ⟨132, 4, 0xFFFFF, 2⟩, ⟨136, 4, 7, 13⟩,
   ⟨144, 4, 0x3FFFF, 33⟩, ⟨148, 4, 0xFFFFFFFC, 14⟩, sigRsv 152, sigRsv 156, rsvAll 184 48 15]

/-- What CONV needs of an engine (R108). -/
def convNeed (c : ConvPlan) : SpadNeed :=
  let d := depthOf c.inp.fmt c.filt.fmt
  let w := c.kernel
  let cin := ceilDiv ((c.plans[3]?).getD 0) d
  let rows := (c.bh - 1) * kf w 2 + (kf w 0 - 1) * kf w 4 + 1
  let cols := (c.bw - 1) * kf w 3 + (kf w 1 - 1) * kf w 5 + 1
  let sIn := match scaleSpan c.inp.mode with | 0 => 0 | n => ceilDiv (rows * (cols + 7) * cin * d) n
  let buf := round128 (rows * (cols + 7) * cin * ceilDiv (d * lineBits c.inp.fmt) 8 + sIn)
  let set := 1024 + (match scaleSpan c.filt.mode with | 0 => 0 | n => 256 * d / n)
  let L := wkLines c.walk
  { form := 5, panel := (c.panel, (if wkSingle c.walk then 1 else 2) * buf), panelItem := 9,
    rings := [(wkStream c.walk, round128 (L * set), ceilDiv (kf w 0 * kf w 1 * cin) L, 10)], acc := 2 + wkDepth c.walk }

/-- Checks 2 and 3 of CONV. -/
def convFields (bytes : List Byte) (c : ConvPlan) : Option CheckFail :=
  let w := c.walk
  firstFail ([
    need (isInput c.inp.fmt && scaleOk c.inp.fmt c.inp.mode) (fmtFail 9),
    need (isInput c.filt.fmt && scaleOk c.filt.fmt c.filt.mode && pairOk c.inp.fmt c.filt.fmt) (fmtFail 10),
    need (outOk c.outFmt c.outMode && c.aop = 0 && c.pass = 0) (fmtFail 2),
    need (!c.inp.transposed) (fieldFail 9 0 0),
    need (!c.filt.transposed) (fieldFail 10 0 0),
    need (wkOrder w = 0 && !wkAnchorB w && decide (1 ≤ wkDepth w) && decide (8 ≤ wkLines w) && c.panel % 128 = 0 &&
      wkGroup w = 0 && wkAnchorRing w = 0) (fieldFail 13 w 0),
    need ((kernelFields c.kernel).all (fun x => decide (1 ≤ x) && decide (x ≤ 8))) (fieldFail 14 c.kernel 0),
    need (addrOk c.inp.addr && addrOk c.inp.scAddr) (fieldFail 9 0 0),
    need (addrOk c.filt.addr && addrOk c.filt.scAddr) (fieldFail 10 0 0),
    need (addrOk c.outAddr) (fieldFail 2 0 0),
    need (addrOk c.bias) (fieldFail 3 0 0),
    need (addrOk c.shape) (fieldFail 4 0 0),
    need (decide (1 ≤ c.bh) && decide (c.bh ≤ 4095)) (fieldFail 11 c.bh 4095),
    need (decide (1 ≤ c.bw) && decide (c.bw ≤ 4095)) (fieldFail 12 c.bw 4095),
    need (decide (1 ≤ c.bn)) (fieldFail 5 c.bn 0),
    need (c.inp.mode ≠ 0 || c.inp.scAddr = 0) (fieldFail 9 0 0),
    need (c.filt.mode ≠ 0 || c.filt.scAddr = 0) (fieldFail 10 0 0)] ++
    (c.words.zip [11, 12, 5, 6, 9, 9]).map (fun x => need (boundOk x.1) (fieldFail x.2 x.1 0)) ++
    [sigCheck bytes 152, sigCheck bytes 156,
     need (!(c.outFmt = 7 || c.outFmt = 11 || c.outMode = 1) || c.bn % 32 = 0) ⟨0x0104, 9, 5, 0, c.bn, 32⟩])

/-- Checks 1 to 6 of CONV. -/
def convStatic (s : State) (bytes : List Byte) (ctx : Nat) (engines : Option (List Nat)) : Option CheckFail :=
  let c := convOf bytes
  let es := match engines with | some l => l | none => placeEngines c.place
  firstFail [
    headerCheck bytes,
    rsvCheck bytes convRsv,
    convFields bytes c,
    (if engines.isSome then none else placeCountCheck c.place),
    (if engines.isSome then none else placeCheck s ctx c.place),
    capacityCheck s 13 [convNeed c] es]

/-- Checks 7 to 9 of CONV: bounds h_out, w_out, c_out, c_in, h_in, w_in. -/
def convBounds (s : State) (q ctx : Nat) (c : ConvPlan) : BoundRes :=
  match readBounds s q ctx c.shape c.words with
  | .error f => .access f
  | .ok l =>
    let g := fun i => (l[i]?).getD 0
    let pl := fun i => (c.plans[i]?).getD 0
    match firstFail [overPlan 11 (g 0) (pl 0), overPlan 12 (g 1) (pl 1), overPlan 5 (g 2) (pl 2), overPlan 6 (g 3) (pl 3)] with
    | some f => .fail f
    | none =>
      if (c.outFmt = 7 || c.outFmt = 11 || c.outMode = 1) && g 2 % 32 ≠ 0 then .fail ⟨0x0104, 9, 5, 0, g 2, 32⟩
      else .ok l []

/-- Blocks of a CONV, the channel block innermost: grid sizes along H, W and channels. -/
def convGrid (c : ConvPlan) (l : List Nat) : Nat × Nat × Nat :=
  (ceilDiv ((l[0]?).getD 0) c.bh, ceilDiv ((l[1]?).getD 0) c.bw, ceilDiv ((l[2]?).getD 0) c.bn)

end Sys2Proof.Machine
end

