-- ==== Sys2Proof/Machine/Tiles.lean ====
section
/-! DEFINITION. One tile: its operand values (R43, R52, R59 to R61, R74), its accumulation (R35, R54 to R57, R102), its check
(R62, R63, R103), its epilogue and output places (R77, R92), and the pre-skewed lines of R41, R43 and R219. -/

namespace Sys2Proof.Machine

/-! ## Reading operands -/

/-- The results of a list of accesses, or the first failure. -/
def seqE {α : Type} : List (Except AccFail α) → Except AccFail (List α)
  | [] => .ok []
  | .error f :: _ => .error f
  | .ok x :: t => match seqE t with
    | .error f => .error f
    | .ok l => .ok (x :: l)

/-- `bits` bits that start `off` bits into a byte row. -/
def bitsIn (row : List Byte) (off bits : Nat) : Nat := (leNat ((row.drop (off / 8)).take 5) / 2 ^ (off % 8)) % 2 ^ bits

/-- n elements of `bits` bits that start `bit` bits after an address. -/
def readElems (s : State) (ctx addr bit bits n : Nat) : Except AccFail (List Nat) :=
  if n = 0 then .ok []
  else match xRead s ctx (addr + bit / 8) (ceilDiv (bit % 8 + n * bits) 8) with
    | .error f => .error f
    | .ok b => .ok ((upFrom 0 n).map (fun j => bitsIn b (bit % 8 + j * bits) bits))

/-- Element i of a list, 0 outside. -/
def nth0 (l : List Nat) (i : Nat) : Nat := (l[i]?).getD 0

/-- The element patterns of rows r0 to r0 + n − 1 of an operand, K elements each. `kInner` says that memory keeps the elements
of one row along K together. -/
def readOperand (s : State) (ctx base stride bits r0 n K : Nat) (kInner : Bool) : Except AccFail (List (List Nat)) :=
  if kInner then seqE ((upFrom 0 n).map (fun i => readElems s ctx (base + (r0 + i) * stride) 0 bits K))
  else match seqE ((upFrom 0 K).map (fun k => readElems s ctx (base + k * stride) (r0 * bits) bits n)) with
    | .error f => .error f
    | .ok cols => .ok ((upFrom 0 n).map (fun i => cols.map (fun c => nth0 c i)))

/-- The scale bytes of rows r0 to r0 + n − 1 (R74). -/
def readScales (s : State) (ctx addr stride mode r0 n K : Nat) : Except AccFail (List (List Nat)) :=
  if mode = 0 then .ok (List.replicate n [])
  else seqE ((upFrom 0 n).map (fun i => readElems s ctx (addr + (r0 + i) * stride) 0 8 (ceilDiv K (scaleSpan mode))))

/-- The exact values of a row, scales applied (R35). -/
def rowVals (c mode : Nat) (row scales : List Nat) : List FpVal :=
  (row.zip (upFrom 0 row.length)).map (fun x =>
    if mode = 0 then decodeElem c 0 x.1
    else mulV (decodeElem c mode x.1) (decodeScale mode (nth0 scales (x.2 / scaleSpan mode))))

/-- What is known of one operand of a tile: element patterns by plane and row, scale bytes by plane and row, and values by
plane and row. -/
structure OperandTile where
  bits : Nat
  pats : List (List (List Nat))
  scales : List (List (List Nat))
  vals : List (List (List FpVal))

/-- BF16 pattern of a value. -/
def bf16Bits (v : FpVal) : Nat := (toIeee bf16 v).1

/-- Reads an operand of a tile: its planes by pass mode (R59 to R61). -/
def readTileOperand (s : State) (ctx : Nat) (o : Operand) (pass base scBase r0 n K : Nat) (kInner : Bool) :
    Except AccFail OperandTile :=
  let b := fmtBits o.fmt
  let one := fun (a : Nat) => readOperand s ctx a o.stride b r0 n K kInner
  match readScales s ctx scBase o.scStride o.mode r0 n K with
  | .error f => .error f
  | .ok sc =>
    match one base with
    | .error f => .error f
    | .ok p0 =>
      let v0 := (p0.zip sc).map (fun x => rowVals o.fmt o.mode x.1 x.2)
      if pass = 0 then .ok ⟨b, [p0], [sc], [v0]⟩
      else if pass = 1 then
        let tr := v0.map (fun row => row.map split3)
        let pl := [tr.map (fun row => row.map (·.1)), tr.map (fun row => row.map (·.2.1)), tr.map (fun row => row.map (·.2.2))]
        .ok ⟨16, pl.map (fun p => p.map (fun row => row.map bf16Bits)), [[], [], []], pl⟩
      else match one (base + o.plane) with
        | .error f => .error f
        | .ok p1 =>
          let v1 := if pass = 2 then p1.map (fun row => row.map (fun (x : Nat) => ofInt (x : Int)))
            else (p1.zip sc).map (fun x => rowVals o.fmt o.mode x.1 x.2)
          .ok ⟨b, [p0, p1], [sc, sc], [v0, v1]⟩

/-! ## Slices -/

/-- A list extended to n entries. -/
def padTo {α : Type} (n : Nat) (x : α) (l : List α) : List α := l ++ List.replicate (n - l.length) x

/-- Padding value of an array operation (R54). -/
def padVal (aop : Nat) : FpVal :=
  match aop with | 1 => .inf true | 2 => .inf false | 4 => ofInt (-128) | _ => fzero
/-- Initial accumulator value of an array operation (R54). -/
def initVal (aop : Nat) : FpVal := match aop with | 1 => .inf true | 2 => .inf false | _ => fzero

/-- The rows of one plane as slices of depth d, padded to S slices and to `rows` rows (R52). -/
def sliceRows (aop d S rows : Nat) (l : List (List FpVal)) : List (List (List FpVal)) :=
  let row := fun (r : List FpVal) => if d * S = 0 then [] else chunksOf d (padTo (d * S) (padVal aop) r)
  padTo rows (row []) (l.map row)

/-- An INT32 value wrapped modulo 2³² (R35). -/
def wrapV (v : FpVal) : FpVal :=
  match v with
  | .fin s m e => ofInt (signedOf 32 (wrapInt 32 (toIntRne s m e).1))
  | v => v
/-- What an accumulator keeps of a total. -/
def narrow (int : Bool) (v : FpVal) : FpVal := if int then wrapV v else rnd32 v

/-- One slice of an element (R35, R55 to R57); `f` is the factor of the pass. -/
def sliceStep (aop : Nat) (int : Bool) (f acc : FpVal) (x y : List FpVal) : FpVal :=
  let xy := x.zip y
  match aop with
  | 1 => xy.foldl (fun c p => maxV c (rnd32 (addV p.1 p.2))) acc
  | 2 => xy.foldl (fun c p => minV c (rnd32 (addV p.1 p.2))) acc
  | 3 => rnd32 (sumV acc (xy.map (fun p => let e := rnd32 (addV p.1 p.2.neg); rnd32 (mulV e e))))
  | 4 => wrapV (addV acc (ofInt ((xy.filter (fun p => eqV p.1 p.2 && !eqV p.1 (ofInt (-128)))).length : Int)))
  | _ => narrow int (sumV acc (xy.map (fun p => mulV (mulV p.1 p.2) f)))

/-- The passes of an output part: planes of A and B and the factor of their products (R59 to R61). -/
def passList (pass part : Nat) : List (Nat × Nat × FpVal) :=
  let one : FpVal := .fin false 1 0
  match pass with
  | 1 => [(2, 0, one), (0, 2, one), (1, 1, one), (1, 0, one), (0, 1, one), (0, 0, one)]
  | 2 => [(0, 0, .fin false 1 16), (0, 1, .fin false 1 8), (1, 0, .fin false 1 8), (1, 1, one)]
  | 3 => if part = 0 then [(0, 0, one), (1, 1, .fin true 1 0)] else [(0, 1, one), (1, 0, one)]
  | _ => [(0, 0, one)]

/-- Entry i of a list of lists. -/
def nthL {α : Type} (l : List (List α)) (i : Nat) : List α := (l[i]?).getD []

/-- One element: every pass a full sweep of the slices in ascending k. `x` and `y` give the slices by plane. -/
def elemOf (aop : Nat) (int : Bool) (ps : List (Nat × Nat × FpVal)) (x y : List (List (List FpVal))) : FpVal :=
  ps.foldl (fun acc p => ((nthL x p.1).zip (nthL y p.2.1)).foldl (fun c z => sliceStep aop int p.2.2 c z.1 z.2) acc)
    (initVal aop)

/-- One multiply-add element that starts from a reloaded partial. -/
def elemFrom (acc : FpVal) (x y : List (List FpVal)) : FpVal :=
  (x.zip y).foldl (fun c z => sliceStep 0 false (.fin false 1 0) c z.1 z.2) acc

/-- The planes of row i. -/
def rowPlanes (l : List (List (List (List FpVal)))) (i : Nat) : List (List (List FpVal)) := l.map (fun p => nthL p i)

/-- A tile of accumulators: rows of elements. -/
def tileVals (aop : Nat) (int : Bool) (ps : List (Nat × Nat × FpVal)) (a b : List (List (List (List FpVal))))
    (tm tn : Nat) : List (List FpVal) :=
  (upFrom 0 tm).map (fun i => (upFrom 0 tn).map (fun j => elemOf aop int ps (rowPlanes a i) (rowPlanes b j)))

/-! ## The check (R62, R63, R103) -/

/-- Exact sums of rows of slices, position by position. -/
def sumSlices (rows : List (List (List FpVal))) : List (List FpVal) :=
  match rows with
  | [] => []
  | r :: t => t.foldl (fun acc q => (acc.zip q).map (fun z => (z.1.zip z.2).map (fun w => addV w.1 w.2))) r

/-- FP32 sum in ascending order, rounded at each addition; INT32 wraps. -/
def drainSum (int : Bool) (l : List FpVal) : FpVal := l.foldl (fun a v => narrow int (addV a v)) fzero

/-- One column, or row, passes (R63). -/
def linePasses (int : Bool) (chk sum mag : FpVal) : Bool :=
  match chk, sum with
  | .nan _, .nan _ => true
  | .inf s, .inf t => s = t
  | .fin _ _ _, .fin _ _ _ =>
    if int then eqV chk sum
    else
      let d := (addV chk sum.neg).abs
      match mag with
      | .fin _ m e => !ltV (.fin false m (e - 10)) d
      | .inf _ => true
      | .nan _ => false
  | _, _ => false

/-- The number of lines of a multiply-add tile that fail: columns, or rows in the wide-shallow forms and the side path. -/
def failCount (int byRows : Bool) (ps : List (Nat × Nat × FpVal)) (a b : List (List (List (List FpVal))))
    (c : List (List FpVal)) (tm tn : Nat) : Nat :=
  let line := fun (chk : FpVal) (l : List FpVal) =>
    linePasses int chk (drainSum int l) (drainSum int (l.map FpVal.abs))
  if byRows then
    let sb := b.map sumSlices
    ((upFrom 0 tm).filter (fun i => !line (elemOf 0 int ps (rowPlanes a i) sb) (nthL c i))).length
  else
    let sa := a.map sumSlices
    ((upFrom 0 tn).filter (fun j =>
      !line (elemOf 0 int ps sa (rowPlanes b j)) ((upFrom 0 tm).map (fun i => ((nthL c i)[j]?).getD fzero)))).length

/-! ## Epilogue (R77) and accumulator memory -/

/-- One element through the epilogue. -/
def epilogue (alpha : Nat) (bias : Option Nat) (v : FpVal) : FpVal :=
  let x := rnd32 (mulV (v32 alpha) (rnd32 v))
  match bias with
  | none => x
  | some b => rnd32 (addV x (v32 b))

/-- The word an accumulator holds. -/
def accWord (int : Bool) (v : FpVal) : Nat :=
  if int then (match v with | .fin s m e => wrapInt 32 (toIntRne s m e).1 | _ => 0) else (toIeee fp32 v).1

/-- Writes a drained tile into an accumulator tile of the engine. Which tile it is the spec leaves open: `Config.choice`. -/
def putAcc (s : State) (e : Nat) (int : Bool) (c : List (List FpVal)) : State :=
  let slot := Config.choice s.fresh % max 1 (accShare s e)
  let bs := (c.flatten.map (fun v => leBytes 4 (accWord int v))).flatten
  drawn { s with comp := { s.comp with acc := putCells s.comp.acc ((32 * e + slot) * 4096) bs } }

/-- The pieces of an output row: in-bounds elements from column j0 on, and the scales that follow the row's n elements
(R303; for scale mode 1 a design choice of the model). -/
def rowWrites (fmt mode row n j0 : Nat) (l : List FpVal) : List (Nat × List Byte) :=
  let r := outRow fmt mode l
  let g := if fmt = 11 then 16 else 32
  (row + j0 * fmtBits fmt / 8, r.1) :: (if r.2.isEmpty then [] else [(row + n * fmtBits fmt / 8 + j0 / g, r.2)])

/-! ## Pre-skewed lines (R41, R43, R219) -/

/-- Bits of an element inside a segment. -/
def segBits (c bits : Nat) : Nat := if c = 0 then 16 else bits

/-- One segment: four rows of slice k. -/
def segment (bits d size : Nat) (transposed : Bool) (rows : List (List Nat)) (k : Nat) : List Byte :=
  let el := fun i j => nth0 (nthL rows i) (k * d + j)
  let l := if transposed then ((upFrom 0 d).map (fun j => (upFrom 0 4).map (fun i => el i j))).flatten
    else ((upFrom 0 4).map (fun i => (upFrom 0 d).map (fun j => el i j))).flatten
  let b := if transposed || bits = 6 then packElems bits l
    else ((chunksOf d l).map (packElems bits)).flatten
  bytesAt b 0 size

/-- The scale part of line t of a plane (R219). -/
def scalePart (mode d r t : Nat) (skew7 : Bool) (nblocks : Nat) (scales : List (List Nat)) : List Byte :=
  match scaleSpan mode with
  | 0 => []
  | n =>
    if r * d % n = 0 then
      (upFrom (t * (r * d / n)) (r * d / n)).map (fun x =>
        BitVec.ofNat 8 (if x / r < nblocks then nth0 (nthL scales (x % r)) (x / r) else 0))
    else
      (upFrom 0 r).map (fun i =>
        let sh := if skew7 then i / 4 % 8 else 0
        BitVec.ofNat 8 (if sh ≤ t then nth0 (nthL scales i) ((t - sh) * d / n) else 0))

/-- Line t of a panel of S slices, r rows: plane parts in order, each with its segments and its scale part. -/
def panelLine (c bits mode d r S : Nat) (skew7 transposed : Bool) (pats scales : List (List (List Nat))) (t : Nat) :
    List Byte :=
  let size := 4 * ceilDiv (d * lineBits c) 8
  ((pats.zip scales).map (fun p =>
    ((upFrom 0 (r / 4)).map (fun i =>
      let sh := if skew7 then i % 8 else 0
      if t < sh ∨ S ≤ t - sh then zeros size
      else segment bits d size transposed ((p.1.drop (4 * i)).take 4) (t - sh))).flatten ++
    scalePart mode d r t skew7 (ceilDiv (S * d) (max 1 (scaleSpan mode))) p.2)).flatten

/-- The lines of a panel. -/
def panelLines (c bits mode d r S skew : Nat) (transposed : Bool) (pats scales : List (List (List Nat))) : List (List Byte) :=
  (upFrom 0 (S + skew)).map (panelLine c bits mode d r S (decide (skew ≠ 0)) transposed pats scales)

/-! ## Rings of a sequencer (R220, R228) -/

/-- Slots entered and released since configuration move on by n; every slot passed is EMPTY again. -/
def passSlots (s : State) (e n k : Nat) : State :=
  modRing s e n (fun r => { r with
    head := r.head + BitVec.ofNat 8 k, tail := r.tail + BitVec.ofNat 8 k, filled := r.filled + k })

/-- Writes the contents of slots into a scratchpad ring, slot after slot, and passes them. -/
def fillSlots (s : State) (e n : Nat) : List (List Byte) → State
  | [] => s
  | b :: t =>
    let r := getRing s e n
    let j := if r.slots = 0 then 0 else r.filled % r.slots
    fillSlots (passSlots (memWrite s (spadAddr e (r.base + j * r.slotBytes)) (b.take r.slotBytes)) e n 1) e n t

/-- Lines laid L to a slot. -/
def slotsOf (L : Nat) (lines : List (List Byte)) : List (List Byte) := (chunksOf L lines).map List.flatten

/-! ## A tile of a plan -/

/-- What a tile gives: failing lines of its data, indices and byte 25 of R67, what it writes, and what its fills and its
drain do to the engine. -/
structure TileDone where
  fails : Nat
  idxM : Nat
  idxN : Nat
  kind : Nat
  writes : List (Nat × List Byte)
  fill : State → State
  drain : State → State

/-- The geometry of a block of a plan. -/
structure BlockGeo where
  prob : Nat
  row0 : Nat
  col0 : Nat
  rows : Nat
  cols : Nat
  form : Nat
  K : Nat
  N : Nat
  deriving DecidableEq, Repr

/-- The geometry of block no of a packet. -/
def blockGeo (p : Plan) (bounds : List Nat) (table : List (Nat × Nat)) (latency : Bool) (no : Nat) : BlockGeo :=
  let f := findBlock p bounds table ((bounds[3]?).getD 1) 0 no
  let N := (bounds[1]?).getD 0
  let gn := max 1 (ceilDiv N p.bn)
  let bi := f.2 / gn
  let bj := f.2 % gn
  let M := probM p bounds table f.1
  let rows := min p.bm (M - bi * p.bm)
  { prob := f.1, row0 := bi * p.bm, col0 := bj * p.bn, rows := rows, cols := min p.bn (N - bj * p.bn)
    form := if p.op = 4 then 4
      else formOf (if p.table = 0 then p.bm else rows) latency p.a.fmt p.b.fmt p.a.mode p.b.mode p.aop p.pass
    K := (bounds[2]?).getD 0, N := N }

/-- Output parts of a pass mode. -/
def partsOf (pass : Nat) : Nat := if pass = 3 then 2 else 1

/-- Tiles of a block, parts counted. -/
def geoTiles (p : Plan) (g : BlockGeo) : Nat :=
  ceilDiv g.rows (tileRows g.form) * ceilDiv g.cols (tileCols g.form) * partsOf p.pass

/-- The n-th tile to finish: (tile row, tile column, part), by R90 and R91, and whether it is the first of its anchor row, or
of its group, with the number of tiles in the group. -/
def tileAt (p : Plan) (g : BlockGeo) (n : Nat) : Nat × Nat × Nat × Bool × Nat :=
  let tm := max 1 (ceilDiv g.rows (tileRows g.form))
  let tn := max 1 (ceilDiv g.cols (tileCols g.form))
  let inner := if wkAnchorB p.walk then tm else tn
  let q := partsOf p.pass
  let o := n / (inner * q)
  let x := n % (inner * q)
  if wkOrder p.walk = 0 then
    let i := x / q
    if wkAnchorB p.walk then (i, o, x % q, x = 0, 1) else (o, i, x % q, x = 0, 1)
  else
    let gg := max 1 (wkGroup p.walk)
    let gi := x / (gg * q)
    let sz := max 1 (min gg (inner - gi * gg))
    let y := x - gi * gg * q
    let i := gi * gg + y % sz
    if wkAnchorB p.walk then (i, o, y / sz, y = 0, sz) else (o, i, y / sz, y = 0, sz)

/-- Element (row 0, k 0) of A for a problem, and of its scales (R85). -/
def aBase (p : Plan) (table : List (Nat × Nat)) (i : Nat) : Nat × Nat :=
  if p.table = 0 then (p.a.addr + i * p.a.batch, p.a.scAddr + i * p.a.scBatch)
  else (p.a.addr + probRow p table i * p.a.stride, p.a.scAddr + probRow p table i * p.a.scStride)

/-- Output row i of a problem, in the real or the imaginary plane (R92). -/
def cRow (p : Plan) (bounds : List Nat) (table : List (Nat × Nat)) (prob i part : Nat) : Nat :=
  if p.table = 0 then p.cAddr + prob * p.cBatch + (part * (bounds[0]?).getD 0 + i) * p.cStride
  else p.cAddr + (part * listSum (table.map (·.2)) + probRow p table prob + i) * p.cStride

/-- Operand A of tile row mt. -/
def tileA (s : State) (ctx : Nat) (p : Plan) (table : List (Nat × Nat)) (g : BlockGeo) (mt : Nat) : Except AccFail OperandTile :=
  let b := aBase p table g.prob
  let t := tileRows g.form
  readTileOperand s ctx p.a p.pass b.1 b.2 (g.row0 + mt * t) (min t (g.rows - mt * t)) g.K (!p.a.transposed)

/-- Operand B of tile column nt. -/
def tileB (s : State) (ctx : Nat) (p : Plan) (g : BlockGeo) (nt : Nat) : Except AccFail OperandTile :=
  let t := tileCols g.form
  readTileOperand s ctx p.b p.pass (p.b.addr + g.prob * p.b.batch) (p.b.scAddr + g.prob * p.b.scBatch) (g.col0 + nt * t)
    (min t (g.cols - nt * t)) g.K p.b.transposed

/-- The lines of an operand of a tile from slice k0 on: `S` slices. -/
def planLines (p : Plan) (form d k0 S : Nat) (isB : Bool) (o : OperandTile) : List (List Byte) :=
  let op := if isB then p.b else p.a
  let r := if isB then tileCols form else tileRows form
  let sp := scaleSpan op.mode
  panelLines op.fmt o.bits op.mode d r S (if isB then skewB form else skewA form)
    (if isB then !op.transposed else op.transposed)
    (o.pats.map (fun pl => pl.map (fun row => row.drop (k0 * d))))
    (o.scales.map (fun pl => pl.map (fun row => if sp = 0 then row else row.drop (k0 * d / sp))))

/-- The fills of a tile in reduction-inner order: the anchor panel with the first tile of its row, then the stream panel. -/
def fillInner (p : Plan) (g : BlockGeo) (d S : Nat) (anchorNo : Nat) (first : Bool) (a b : OperandTile) (e : Nat) (s : State) : State :=
  let bAnchor := wkAnchorB p.walk
  let anc := planLines p g.form d 0 S bAnchor (if bAnchor then b else a)
  let str := planLines p g.form d 0 S (!bAnchor) (if bAnchor then a else b)
  let nbuf := if wkSingle p.walk then 1 else 2
  let need := planNeed p g.form
  let s1 := if first then
      memWrite s (spadAddr e (p.panel + anchorNo % nbuf * (need.panel.2 / nbuf))) anc.flatten
    else s
  fillSlots s1 e (wkStream p.walk) (slotsOf (wkLines p.walk) str)

/-- The fills of a group: its anchor slots, then its stream slots, k-step by k-step. -/
def fillGroup (p : Plan) (g : BlockGeo) (d S : Nat) (anchor : OperandTile) (streams : List OperandTile) (e : Nat) (s : State) : State :=
  let bAnchor := wkAnchorB p.walk
  let kc := wkLines p.walk - 7
  let nk := ceilDiv S kc
  let step := fun (isB : Bool) (o : OperandTile) (ks : Nat) =>
    (planLines p g.form d (ks * kc) (min kc (S - ks * kc)) isB o).flatten
  let s1 := fillSlots s e (wkAnchorRing p.walk) ((upFrom 0 nk).map (step bAnchor anchor))
  fillSlots s1 e (wkStream p.walk) ((upFrom 0 nk).map (fun ks => streams.map (fun o => step (!bAnchor) o ks))).flatten

/-- An accumulator of a pair is INT32 (R38, R54). -/
def pairInt (aop fa fb ma mb : Nat) : Bool :=
  decide (aop = 4) || (fmtIsInt fa && fmtIsInt fb && decide (ma = 0) && decide (mb = 0))

/-- Bias word of column j. -/
def readBias (s : State) (ctx addr j0 n : Nat) : Except AccFail (List Nat) :=
  if addr = 0 then .ok [] else readElems s ctx (addr + 4 * j0) 0 32 n

/-- Tile n of block no of a plan on engine e. -/
def planTile (s : State) (ctx : Nat) (p : Plan) (bounds : List Nat) (table : List (Nat × Nat)) (latency : Bool)
    (e no n : Nat) : Except AccFail TileDone :=
  let g := blockGeo p bounds table latency no
  let t := tileAt p g n
  let mt := t.1
  let nt := t.2.1
  let part := t.2.2.1
  let tm := tileRows g.form
  let tn := tileCols g.form
  let nr := min tm (g.rows - mt * tm)
  let nc := min tn (g.cols - nt * tn)
  let d := depthOf p.a.fmt p.b.fmt
  let S := ceilDiv g.K d
  let int := pairInt p.aop p.a.fmt p.b.fmt p.a.mode p.b.mode
  let ps := passList p.pass part
  match (if g.K = 0 then .ok ⟨0, [], [], []⟩ else tileA s ctx p table g mt : Except AccFail OperandTile) with
  | .error f => .error f
  | .ok a =>
    match (if g.K = 0 then .ok ⟨0, [], [], []⟩ else tileB s ctx p g nt : Except AccFail OperandTile) with
    | .error f => .error f
    | .ok b =>
      let anchorNo := if wkAnchorB p.walk then nt else mt
      let inner := if wkAnchorB p.walk then mt else nt
      let group := (upFrom inner t.2.2.2.2).map (fun i =>
        if wkAnchorB p.walk then tileA s ctx p table g i else tileB s ctx p g i)
      match (if g.K = 0 ∨ wkOrder p.walk = 0 ∨ !t.2.2.2.1 then .ok [] else seqE group : Except AccFail (List OperandTile)) with
      | .error f => .error f
      | .ok streams =>
        match readBias s ctx (if p.bias = 0 then 0 else p.bias + g.prob * p.biasBatch) (g.col0 + nt * tn) nc with
        | .error f => .error f
        | .ok bias =>
          let sa := a.vals.map (sliceRows p.aop d S tm)
          let sb := b.vals.map (sliceRows p.aop d S tn)
          let c := tileVals p.aop int ps sa sb tm tn
          let out := (upFrom 0 nr).map (fun i =>
            rowWrites p.outFmt p.outMode (cRow p bounds table g.prob (g.row0 + mt * tm + i) part) g.N (g.col0 + nt * tn)
              ((((nthL c i).take nc).zip (upFrom 0 nc)).map (fun x => epilogue p.alpha (bias[x.2]?) x.1)))
          .ok {
            fails := if g.K = 0 ∨ p.aop ≠ 0 then 0
              else failCount int (decide (g.form = 2 ∨ g.form = 3 ∨ g.form = 4)) ps sa sb c tm tn
            idxM := mt, idxN := nt, kind := p.aop + 16 * p.pass
            writes := out.flatten
            fill := fun u => if g.K = 0 ∨ part ≠ 0 then u
              else if wkOrder p.walk = 0 then fillInner p g d S anchorNo t.2.2.2.1 a b e u
              else if t.2.2.2.1 then fillGroup p g d S (if wkAnchorB p.walk then b else a) streams e u
              else u
            drain := fun u => putAcc u e int c }

/-! ## A tile of a convolution (R106 to R110) -/

/-- Rows, columns and channels of a CONV block and its origin: (y0, x0, n0, h, w, c). -/
def convGeo (c : ConvPlan) (l : List Nat) (no : Nat) : Nat × Nat × Nat × Nat × Nat × Nat :=
  let g := convGrid c l
  let gn := max 1 g.2.2
  let gw := max 1 g.2.1
  let bn := no % gn
  let bw := no / gn % gw
  let bh := no / gn / gw
  (bh * c.bh, bw * c.bw, bn * c.bn, min c.bh (nth0 l 0 - bh * c.bh), min c.bw (nth0 l 1 - bw * c.bw),
    min c.bn (nth0 l 2 - bn * c.bn))

/-- Tiles of a CONV block: 32 positions of one output row by 32 channels. -/
def convTiles (c : ConvPlan) (l : List Nat) (no : Nat) : Nat :=
  let g := convGeo c l no
  g.2.2.2.1 * ceilDiv g.2.2.2.2.1 32 * ceilDiv g.2.2.2.2.2 32

/-- The channels of one input position, with their scales; zeros outside the input. -/
def convPixel (s : State) (ctx : Nat) (c : ConvPlan) (l : List Nat) (y x : Int) : Except AccFail (List FpVal) :=
  let cin := nth0 l 3
  let hin := nth0 l 4
  let win := nth0 l 5
  if y < 0 ∨ x < 0 ∨ (hin : Int) ≤ y ∨ (win : Int) ≤ x then .ok (List.replicate cin fzero)
  else
    let yn := y.toNat
    let xn := x.toNat
    match readElems s ctx (c.inp.addr + yn * c.inRow + xn * c.inPix) 0 (fmtBits c.inp.fmt) cin with
    | .error f => .error f
    | .ok e =>
      match readScales s ctx c.inp.scAddr c.inp.scStride c.inp.mode (yn * win + xn) 1 cin with
      | .error f => .error f
      | .ok sc => .ok (rowVals c.inp.fmt c.inp.mode e (nthL sc 0))

/-- The input channels of one filter tap of an output channel. -/
def convTap (s : State) (ctx : Nat) (c : ConvPlan) (l : List Nat) (n tap : Nat) : Except AccFail (List FpVal) :=
  let cin := nth0 l 3
  let b := fmtBits c.filt.fmt
  let taps := kf c.kernel 0 * kf c.kernel 1
  match readElems s ctx (c.filt.addr + n * c.filt.stride) (tap * cin * b) b cin with
  | .error f => .error f
  | .ok e =>
    match readScales s ctx c.filt.scAddr c.filt.scStride c.filt.mode (n * taps + tap) 1 cin with
    | .error f => .error f
    | .ok sc => .ok (rowVals c.filt.fmt c.filt.mode e (nthL sc 0))

/-- Slices of a position or an output channel in the order of R107: channel slices outermost, then taps. -/
def convSlices (d S : Nat) (taps : List (List FpVal)) : List (List FpVal) :=
  ((upFrom 0 S).map (fun k => taps.map (fun t => padTo d fzero ((t.drop (k * d)).take d)))).flatten

/-- Tile n of block no of a convolution on engine e. -/
def convTile (s : State) (ctx : Nat) (c : ConvPlan) (l : List Nat) (e no n : Nat) : Except AccFail TileDone :=
  let g := convGeo c l no
  let tw := max 1 (ceilDiv g.2.2.2.2.1 32)
  let tn := max 1 (ceilDiv g.2.2.2.2.2 32)
  let mt := n / tn
  let nt := n % tn
  let y := g.1 + mt / tw
  let x0 := g.2.1 + mt % tw * 32
  let np := min 32 (g.2.2.2.2.1 - mt % tw * 32)
  let n0 := g.2.2.1 + nt * 32
  let nc := min 32 (g.2.2.2.2.2 - nt * 32)
  let w := c.kernel
  let kh := kf w 0
  let kw := kf w 1
  let d := depthOf c.inp.fmt c.filt.fmt
  let S := ceilDiv (nth0 l 3) d
  let int := pairInt 0 c.inp.fmt c.filt.fmt c.inp.mode c.filt.mode
  let pix := fun (x : Nat) => seqE (((upFrom 0 (kh * kw)).map (fun t =>
    convPixel s ctx c l ((y * kf w 2 + t / kw * kf w 4 : Nat) - (padTop w : Int))
      ((x * kf w 3 + t % kw * kf w 5 : Nat) - (padLeft w : Int)))))
  match seqE ((upFrom x0 np).map (fun x => if S = 0 then .ok [] else pix x)) with
  | .error f => .error f
  | .ok px =>
    match seqE ((upFrom n0 nc).map (fun m => if S = 0 then .ok [] else
        seqE ((upFrom 0 (kh * kw)).map (convTap s ctx c l m)))) with
    | .error f => .error f
    | .ok fl =>
      match readBias s ctx c.bias n0 nc with
      | .error f => .error f
      | .ok bias =>
        let zeroRow := convSlices d S (List.replicate (kh * kw) [])
        let a := [padTo 32 zeroRow (px.map (convSlices d S))]
        let b := [padTo 32 zeroRow (fl.map (convSlices d S))]
        let ps := passList 0 0
        let v := tileVals 0 int ps a b 32 32
        let out := (upFrom 0 np).map (fun i =>
          rowWrites c.outFmt c.outMode (c.outAddr + y * c.outRow + (x0 + i) * c.outPix) (nth0 l 2) n0
            ((((nthL v i).take nc).zip (upFrom 0 nc)).map (fun z => epilogue c.alpha (bias[z.2]?) z.1)))
        .ok {
          fails := if S = 0 then 0 else failCount int false ps a b v 32 32
          idxM := mt, idxN := nt, kind := 0
          writes := out.flatten
          fill := fun u => if S = 0 then u else
            passSlots u e (wkStream c.walk) (ceilDiv (kh * kw * S) (max 1 (wkLines c.walk)))
          drain := fun u => putAcc u e int v }

end Sys2Proof.Machine
end

