-- ==== Sys2Proof/Machine/Attend.lean ====
section
/-! DEFINITION. ATTEND: its fields (R112 to R118), descriptors (R119), checks (R140, R141), append units (R123 to R127), and the
tiles of its blocks with the softmax state of their rows (R128 to R137). -/

namespace Sys2Proof.Machine

/-! ## Fields -/

/-- The fields of an ATTEND packet. -/
structure Attn where
  q : Nat
  o : Nat
  stOut : Nat
  stIn : Nat
  desc : Nat
  kn : Nat
  vn : Nat
  rope : Nat
  shape : Nat
  seqWord : Nat
  qPos : Nat
  qHead : Nat
  qGroup : Nat
  oPos : Nat
  oHead : Nat
  oGroup : Nat
  nPos : Nat
  nGroup : Nat
  descHead : Nat
  scale : Nat
  words : List Nat
  nqPlan : Nat
  nkbPlan : Nat
  kvHead0 : Nat
  nHeads : Nat
  gLog : Nat
  dh16 : Nat
  qf : Nat
  kvf : Nat
  pf : Nat
  oF : Nat
  knf : Nat
  maskMode : Nat
  window : Nat
  ropeMode : Nat
  ropeDim : Nat
  walk : Nat
  blockQ : Nat
  panel : Nat
  place : Nat
  flags : Nat
  deriving DecidableEq, Repr

/-- Reads the fields of R112 to R118. -/
def attnOf (p : List Byte) : Attn :=
  let f := fieldAt p
  { q := f 16 8, o := f 24 8, stOut := f 32 8, stIn := f 40 8, desc := f 48 8, kn := f 56 8, vn := f 64 8, rope := f 72 8
    shape := f 80 8, seqWord := f 88 8, qPos := f 96 4, qHead := f 100 4, qGroup := f 104 4, oPos := f 108 4, oHead := f 112 4
    oGroup := f 116 4, nPos := f 120 4, nGroup := f 124 4, descHead := f 128 4, scale := f 132 4
    words := [f 136 4, f 140 4, f 144 4], nqPlan := f 148 4, nkbPlan := f 152 4
    kvHead0 := bitsOf (f 156 4) 31 20, nHeads := bitsOf (f 156 4) 19 11, gLog := bitsOf (f 156 4) 10 8
    dh16 := bitsOf (f 156 4) 7 3, qf := bitsOf (f 160 4) 31 28, kvf := bitsOf (f 160 4) 27 24, pf := bitsOf (f 160 4) 23 20
    oF := bitsOf (f 160 4) 19 16, knf := bitsOf (f 160 4) 15 12, maskMode := bitsOf (f 164 4) 31 30
    window := bitsOf (f 164 4) 29 0, ropeMode := bitsOf (f 168 4) 31 30, ropeDim := bitsOf (f 168 4) 29 21, walk := f 172 4
    blockQ := f 176 2, panel := f 180 4, place := f 184 4, flags := f 188 4 }

/-- Head dimension. -/
def Attn.dh (a : Attn) : Nat := 16 * a.dh16
/-- Query heads per KV head. -/
def Attn.g (a : Attn) : Nat := 2 ^ a.gLog
/-- drain_depth. -/
def Attn.depth (a : Attn) : Nat := bitsOf a.walk 31 29
/-- Score buffers. -/
def Attn.nsb (a : Attn) : Nat := bitsOf a.walk 28 28 + 1
/-- kv_ring. -/
def Attn.ring (a : Attn) : Nat := bitsOf a.walk 27 24
/-- Query tiles of a group. -/
def Attn.qt (a : Attn) : Nat := bitsOf a.walk 23 21 + 1
/-- Lines per slot. -/
def Attn.lines (a : Attn) : Nat := bitsOf a.walk 20 12
/-- Sequence handle. -/
def Attn.handle (a : Attn) : Nat := bitsOf a.seqWord 47 0
/-- Layer. -/
def Attn.layer (a : Attn) : Nat := bitsOf a.seqWord 59 48
/-- The `kfmt` of the packet's pages. -/
def Attn.kfmt (a : Attn) : Nat := a.kvf + 16 * (a.dh16 - 1)
/-- The array format and scale mode of K and V: K4 is FP4 with scale mode 2 (R114). -/
def Attn.kvFmt (a : Attn) : Nat × Nat := if a.kvf = 11 then (7, 2) else (a.kvf, 0)
/-- Slice depth of the score product. -/
def Attn.dqk (a : Attn) : Nat := depthOf a.qf a.kvFmt.1
/-- Slice depth of the value product. -/
def Attn.dpv (a : Attn) : Nat := depthOf a.pf a.kvFmt.1
/-- Slices of a score tile. -/
def Attn.sqk (a : Attn) : Nat := ceilDiv a.dh a.dqk
/-- Slices of a value tile. -/
def Attn.spv (a : Attn) : Nat := 256 / a.dpv
/-- Value tiles of a step. -/
def Attn.pvTiles (a : Attn) : Nat := ceilDiv a.dh 32
/-- Bytes of a state row (R135). -/
def Attn.stateRow (a : Attn) : Nat := round128 (4 + 4 * a.dh)

/-! ## Checks 1 to 6 (R140) -/

/-- Reserved fields of ATTEND. -/
def attnRsv : List Rsv :=
  [⟨88, 8, 0xF000000000000000, 15⟩, ⟨156, 4, 7, 15⟩, ⟨160, 4, 0xFFF, 15⟩, ⟨168, 4, 0x1FFFFF, 21⟩, ⟨172, 4, 0xFFF, 13⟩,
   rsvAll 178 2 15, ⟨184, 4, 0x3FFFF, 33⟩, ⟨188, 4, 0xFFFFFFFC, 15⟩, sigRsv 192, sigRsv 196, rsvAll 200 32 15]

/-- Check 2 (R114). -/
def attnFormats (a : Attn) : Option CheckFail :=
  firstFail [
    need ([1, 2, 3, 4].contains a.qf) (fmtFail 36),
    need ([3, 4, 11].contains a.kvf) (fmtFail 37),
    need ([1, 2, 3].contains a.pf) (fmtFail 38),
    need ([0, 1, 2, 3, 4].contains a.oF) (fmtFail 39),
    need (a.kn = 0 || [0, 1, 2].contains a.knf) (fmtFail 40)]

/-- Check 3 (R112, R113, R115 to R118). -/
def attnFields (bytes : List Byte) (a : Attn) : Option CheckFail :=
  let ok := need
  firstFail ([
    ok ([a.q, a.o, a.stOut, a.stIn, a.desc, a.kn, a.vn, a.rope, a.shape].all addrOk) (fieldFail 15 0 0),
    ok ((a.kn = 0) == (a.vn = 0)) (fieldFail 20 0 0),
    ok (a.ropeMode ≠ 0 || a.rope = 0) (fieldFail 21 0 0)] ++
    (a.words.map (fun w => ok (boundOk w) (fieldFail 4 w 0))) ++ [
    ok (decide (1 ≤ a.nkbPlan) && decide (a.nkbPlan ≤ 262144)) (fieldFail 19 a.nkbPlan 262144),
    ok (decide (1 ≤ a.nHeads) && decide (a.nHeads ≤ 256)) (fieldFail 15 a.nHeads 256),
    ok (decide (a.gLog ≤ 5)) (fieldFail 15 a.gLog 5),
    ok (decide (1 ≤ a.dh16) && decide (a.dh16 ≤ 16)) (fieldFail 15 a.dh16 16),
    ok (if a.maskMode ≤ 1 then a.window = 0 else decide (1 ≤ a.window)) (fieldFail 15 a.window 0),
    ok (if a.ropeMode = 0 then a.ropeDim = 0
        else decide (a.ropeMode ≤ 2) && a.ropeDim % 2 = 0 && decide (2 ≤ a.ropeDim) && decide (a.ropeDim ≤ a.dh))
      (fieldFail 21 a.ropeDim 0),
    ok (decide (1 ≤ a.depth) && decide (8 ≤ a.lines)) (fieldFail 13 a.walk 0),
    ok (decide (1 ≤ a.blockQ)) (fieldFail 15 a.blockQ 0),
    ok (a.panel % 128 = 0) (fieldFail 16 a.panel 0),
    ok (a.o ≠ 0 || a.stOut ≠ 0) (fieldFail 2 0 0),
    sigCheck bytes 192, sigCheck bytes 196])

/-- Line widths of Q, K, P and V (R139). -/
def Attn.lineQ (a : Attn) : Nat := lineWidth 1 a.qf 0 32 a.dqk
/-- Line width of P. -/
def Attn.lineP (a : Attn) : Nat := lineWidth 1 a.pf 0 32 a.dpv
/-- Line width of the stream of K and V. -/
def Attn.lineKV (a : Attn) : Nat :=
  max (lineWidth 1 a.kvFmt.1 a.kvFmt.2 32 a.dqk) (lineWidth 1 a.kvFmt.1 a.kvFmt.2 32 a.dpv)
/-- Bytes of a Q tile region. -/
def Attn.qTile (a : Attn) : Nat := round128 (a.lineQ * (a.sqk + 7))
/-- Bytes of a P buffer. -/
def Attn.pBuf (a : Attn) : Nat := round128 (a.lineP * (a.spv + 7))
/-- Lines of a key block. -/
def Attn.nkbLines (a : Attn) : Nat := 8 * (a.sqk + 7) + a.pvTiles * (a.spv + 7)

/-- Checks 5 and 6 (R139). -/
def attnCapacity (s : State) (a : Attn) (es : List Nat) : Option CheckFail :=
  let qb := 2 * a.qt * a.qTile
  let pb := a.nsb * a.pBuf
  let ring := (a.ring, round128 (a.lineKV * a.lines), ceilDiv a.nkbLines a.lines, 18)
  let acc := a.qt * a.pvTiles + 8 * a.nsb + a.depth
  let whole : SpadNeed := { form := 1, panel := (a.panel, qb + pb), panelItem := 16, rings := [ring], acc := acc }
  match es.findSome? (fun e => firstFail [
      spadCheck s 18 { whole with panel := (a.panel, qb), rings := [] } e,
      spadCheck s 18 { whole with panel := (a.panel + qb, pb), panelItem := 17 } e,
      spadCheck s 18 whole e]) with
  | some f => some f
  | none => es.findSome? (accCheck s whole)

/-- Checks 1 to 6. -/
def attnStatic (s : State) (bytes : List Byte) (ctx : Nat) : Option CheckFail :=
  let a := attnOf bytes
  firstFail [headerCheck bytes, rsvCheck bytes attnRsv, attnFormats a, attnFields bytes a, placeCountCheck a.place,
    placeCheck s ctx a.place, attnCapacity s a (placeEngines a.place)]

/-! ## Descriptors (R119 to R126) -/

/-- Fields of a descriptor. -/
def dSrc (d : List Byte) : Nat := fieldAt d 0 8
/-- pos0. -/
def dPos (d : List Byte) : Nat := fieldAt d 8 4
/-- valid. -/
def dValid (d : List Byte) : Nat := fieldAt d 12 2
/-- Kind 1, a relay block. -/
def dRelay (d : List Byte) : Bool := fieldAt d 14 1 = 1
/-- wait. -/
def dWait (d : List Byte) : Bool := bitOf (fieldAt d 15 1) 0
/-- append. -/
def dAppend (d : List Byte) : Bool := bitOf (fieldAt d 15 1) 1
/-- alloc. -/
def dAlloc (d : List Byte) : Bool := bitOf (fieldAt d 15 1) 2

/-- The first position a descriptor receives and the position after the last. -/
def appendRange (qpos nq : Nat) (d : List Byte) : Nat × Nat := (max qpos (dPos d), min (qpos + nq) (dPos d + 256))

/-- The waybill index that a descriptor names: its `src`, or with `alloc` the index of its page key (R312). -/
def descIdx (s : State) (a : Attn) (h : Nat) (d : List Byte) : Option Nat :=
  if dAlloc d then
    match seqOf s a.handle with
    | none => none
    | some x => if inSeq x.2 a.layer (a.kvHead0 + h) (dPos d / 256) then some (pageIdx x.2 a.layer (a.kvHead0 + h) (dPos d / 256))
      else none
  else some (bitsOf (dSrc d) 23 0)

/-- A descriptor fault (R141). -/
def descFail (code item h k : Nat) (way : Option Nat) : CheckFail :=
  ⟨code, 10, item, 0, h % 4096 * 2 ^ 20 + k % 2 ^ 20, way.getD 0xFFFFFFFF⟩

/-- An entry holds the page slot of a key, at any generation. -/
def sameSlot (s : State) (a : Attn) (h : Nat) (d : List Byte) (e : WayEntry) : Bool :=
  slotHandle s e.slot = a.handle && e.layer = a.layer && e.head = a.kvHead0 + h && e.page = dPos d / 256 && e.kfmt = a.kfmt

/-- The checks of one descriptor: its own form, then R120, then R124. -/
def descCheck (s : State) (ctx : Nat) (a : Attn) (qpos nq h k : Nat) (d : List Byte) : Option CheckFail :=
  let its := descFail 0x0104 19 h k (if dRelay d then none else some (bitsOf (dSrc d) 23 0))
  let idx := descIdx s a h d
  let mine := match partOfCtx s ctx, idx with
    | some p, some i => decide (p.poolFirst ≤ i) && decide (i < p.poolFirst + p.poolCount)
    | _, _ => false
  let e := getWay s (idx.getD 0)
  let win := descFail 0x0303 19 h k idx
  let fmt := descFail 0x0105 19 h k idx
  let r := appendRange qpos nq d
  let fill := if dAlloc d then 0 else e.fill
  firstFail [
    need (decide (fieldAt d 14 1 ≤ 1) && decide (fieldAt d 15 1 < 8) && decide (dValid d ≤ 256) && fieldAt d 24 8 = 0 &&
      fieldAt d 19 1 = 0 && decide (fieldAt d 18 1 < 8)) its,
    need (if dRelay d then dSrc d % 128 = 0 && addrOk (dSrc d) && !dAppend d && !dAlloc d
      else decide (dSrc d < 2 ^ 24) && dPos d % 256 = 0) its,
    need (!dAppend d || a.kn ≠ 0) { its with item := 20 },
    need (!dAlloc d || dAppend d) { its with item := 20 },
    (if dRelay d then none
     else if dAlloc d then
       if nq = 0 then none
       else firstFail [
         need (mine && (match seqOf s a.handle with | some x => x.2.ctx = ctx | none => false)) win,
         need (match partOfCtx s ctx with | some p => decide (imageBytes a.kfmt + 128 ≤ p.frameUnits * 128) | none => false) fmt,
         need (e.state = 0 || (sameSlot s a h d e && ((e.state = 1 && e.fill = 0) || e.fill = dValid d))) win]
     else firstFail [
       need (mine && decide (e.state ≠ 0) && slotHandle s e.slot = a.handle && e.layer = a.layer && e.head = a.kvHead0 + h &&
         e.page = dPos d / 256) win,
       need (e.kfmt = a.kfmt) fmt]),
    (if !dAppend d || nq = 0 then none
     else firstFail [
       need (dAlloc d || e.state = 1) { win with item := 20 },
       need (a.kvf ≠ 11 || (qpos % 16 = 0 && (nq % 16 = 0 || bitOf a.flags 1))) { its with item := 20 },
       need (decide (r.1 < r.2) && r.1 = dPos d + fill && dValid d = fill + (r.2 - r.1)) { its with item := 20 }])]

/-- Every appended position falls in exactly one append descriptor of the head (R124). -/
def appendCover (a : Attn) (qpos nq h nkb : Nat) (l : List (List Byte)) : Option CheckFail :=
  if a.kn = 0 ∨ nq = 0 then none
  else
    let rs := (l.filter dAppend).map (appendRange qpos nq)
    need (listSum (rs.map (fun r => r.2 - r.1)) = nq && (rs.map dPosPage).eraseDups.length = rs.length)
      (descFail 0x0104 20 h nkb none)
where
  /-- the page of a range -/
  dPosPage (r : Nat × Nat) : Nat := r.1 / 256

/-- Reads the descriptors of every head. -/
def readDescs (s : State) (ctx : Nat) (a : Attn) (nkb : Nat) : Except AccFail (List (List (List Byte))) :=
  seqE ((upFrom 0 a.nHeads).map (fun h =>
    if nkb = 0 then .ok [] else match xRead s ctx (a.desc + h * a.descHead) (32 * nkb) with
    | .error f => .error f
    | .ok b => .ok (chunksOf 32 b)))

/-- The descriptor checks in ascending head and index. -/
def descChecks (s : State) (ctx : Nat) (a : Attn) (qpos nq nkb : Nat) (l : List (List (List Byte))) : Option CheckFail :=
  (l.zip (upFrom 0 l.length)).findSome? (fun x =>
    match (x.1.zip (upFrom 0 nkb)).findSome? (fun y => descCheck s ctx a qpos nq x.2 y.2 y.1) with
    | some f => some f
    | none => appendCover a qpos nq x.2 nkb x.1)

/-- Checks 7 to 9: bounds [qpos, nq, nkb] and descriptors, head-major. -/
inductive AttnRes where
  | access (f : AccFail)
  | fail (f : CheckFail)
  | ok (bounds : List Nat) (descs : List (List Byte))
  deriving DecidableEq, Repr

/-- Checks 7 to 9 of ATTEND. -/
def attnBounds (s : State) (q ctx : Nat) (a : Attn) : AttnRes :=
  match readBounds s q ctx a.shape a.words with
  | .error f => .access f
  | .ok l =>
    let nq := nth0 l 1
    let nkb := nth0 l 2
    match firstFail [overPlan 4 nq a.nqPlan, overPlan 19 nkb a.nkbPlan] with
    | some f => .fail f
    | none => match readDescs s ctx a nkb with
      | .error f => .access f
      | .ok ds => match descChecks s ctx a (nth0 l 0) nq nkb ds with
        | some f => .fail f
        | none => .ok l ds.flatten

/-- Append units: head × nkb + descriptor, in ascending head and `pos0`. -/
def appendUnits (a : Attn) (nkb : Nat) (descs : List (List Byte)) : List Nat :=
  ((upFrom 0 a.nHeads).map (fun h =>
    let u := (upFrom (h * nkb) nkb).filter (fun i => dAppend (nthL descs i))
    (u.foldr (fun i acc => insBy (fun j => dPos (nthL descs j)) i acc) []))).flatten
where
  /-- inserts by a key -/
  insBy (key : Nat → Nat) (x : Nat) : List Nat → List Nat
    | [] => [x]
    | y :: t => if key x ≤ key y then x :: y :: t else y :: insBy key x t

/-- Blocks of an ATTEND. -/
def attnBlocks (a : Attn) (nq : Nat) : Nat := a.nHeads * ceilDiv nq a.blockQ

/-! ## Rotary embedding (R123) -/

/-- Frequency table of a packet. -/
def ropeTable (s : State) (ctx : Nat) (a : Attn) : Except AccFail (List Nat) :=
  if a.ropeMode = 0 then .ok [] else readElems s ctx a.rope 0 32 (a.ropeDim / 2)

/-- Rotates a row at a position. -/
def rotate (a : Attn) (tab : List Nat) (pos : Nat) (row : List FpVal) : List FpVal :=
  if a.ropeMode = 0 then row
  else
    let g := fun i => (row[i]?).getD fzero
    let half := a.ropeDim / 2
    let cs := (upFrom 0 half).map (fun i => cosSin pos (v32 (nth0 tab i)))
    (upFrom 0 row.length).map (fun j =>
      if a.ropeDim ≤ j then g j
      else
        let i := if a.ropeMode = 1 then j / 2 else j % half
        let first := if a.ropeMode = 1 then j % 2 = 0 else decide (j < half)
        let c := (cs[i]?).getD (fzero, fzero)
        let xa := if a.ropeMode = 1 then g (2 * i) else g i
        let xb := if a.ropeMode = 1 then g (2 * i + 1) else g (i + half)
        if first then rnd32 (addV (mulV xa c.1) (mulV xb c.2).neg)
        else rnd32 (addV (mulV xa c.2) (mulV xb c.1)))

/-! ## Append units (R125 to R127, R301, R302) -/

/-- The bytes that an append writes: (offset in the page image, bytes), for tokens t0 on. -/
def appendWrites (a : Attn) (t0 : Nat) (ks vs : List (List FpVal)) : List (Nat × List Byte) :=
  let dh := a.dh
  let n := upFrom 0 ks.length
  if a.kvf ≠ 11 then
    (ks.zip n).map (fun x => ((t0 + x.2) * dh, packElems 8 (x.1.map (fun v => (convOut a.kvf v).1)))) ++
    (vs.zip n).map (fun x => ((256 + t0 + x.2) * dh, packElems 8 (x.1.map (fun v => (convOut a.kvf v).1))))
  else
    let w := 9 * dh / 16
    let krows := (ks.zip n).map (fun x => let r := outRow 11 0 x.1; ((t0 + x.2) * w, r.1 ++ r.2))
    let groups := chunksOf 16 vs
    let vparts := (groups.zip (upFrom 0 groups.length)).map (fun gx =>
      let cols := (upFrom 0 dh).map (fun j => fineGroup e2m1 (gx.1.map (fun row => (row[j]?).getD fzero)))
      let rows := (upFrom 0 gx.1.length).map (fun i =>
        (144 * dh + (t0 + 16 * gx.2 + i) * (dh / 2), packElems 4 (cols.map (fun c => nth0 c.2.1 i))))
      let scs := (cols.zip (upFrom 0 dh)).map (fun c => (272 * dh + 16 * c.2 + (t0 / 16 + gx.2), [BitVec.ofNat 8 c.1.1]))
      rows ++ scs)
    krows ++ vparts.flatten

/-- New rows of a head: K rotated, and V. -/
def newRows (s : State) (ctx : Nat) (a : Attn) (tab : List Nat) (qpos h lo n : Nat) :
    Except AccFail (List (List FpVal) × List (List FpVal)) :=
  let row := fun (base p : Nat) =>
    readElems s ctx (base + h * a.nGroup + (p - qpos) * a.nPos) 0 (fmtBits a.knf) a.dh
  match seqE ((upFrom lo n).map (row a.kn)) with
  | .error f => .error f
  | .ok k => match seqE ((upFrom lo n).map (row a.vn)) with
    | .error f => .error f
    | .ok v =>
      let dec := fun (l : List Nat) => l.map (decodeElem a.knf 0)
      .ok ((k.zip (upFrom lo n)).map (fun x => rotate a tab x.2 (dec x.1)), v.map dec)

/-- Takes the unit off the run: its page joins the pages that may be sealed. -/
def unitDone (s : State) (q u i : Nat) : State :=
  modRun s q (fun r => { r with
    seals := if r.seals.contains i then r.seals else r.seals ++ [i]
    work := match r.work with | .attend us t n => .attend (us.filter (· ≠ u)) t n | w => w })

/-- Writes the tokens of a unit into its page and sets its fill count (R125, R127). -/
def appendWrite (s : State) (q ctx tag : Nat) (a : Attn) (qpos nq u h i : Nat) (d : List Byte) : State :=
  let e := getWay s i
  let r := appendRange qpos nq d
  if e.state ≠ 1 ∨ r.2 - dPos d ≤ e.fill then unitDone s q u i
  else match poolOf s i with
    | none => s
    | some p =>
      match ropeTable s ctx a with
      | .error f => waitFault s ctx (srcOf 3 q) tag f
      | .ok tab => match newRows s ctx a tab qpos h r.1 (r.2 - r.1) with
        | .error f => waitFault s ctx (srcOf 3 q) tag f
        | .ok kv =>
          let s1 := (appendWrites a (r.1 - dPos d) kv.1 kv.2).foldl (fun t w => frameWrite t p e.loc w.1 w.2) s
          let s2 := setWay s1 i { e with fill := r.2 - dPos d }
          unitDone (putTrailer s2 p i 0 0) q u i

/-- The descriptor of a unit gets its waybill index (R125); `k` goes on with the state. -/
def writeIndex (s : State) (q ctx tag : Nat) (a : Attn) (nkb u i : Nat) (k : State → State) : State :=
  match xWrite s ctx (a.desc + (u / nkb) * a.descHead + u % nkb * 32) (leBytes 3 i) with
  | .error f => waitFault s ctx (srcOf 3 q) tag f
  | .ok s1 => k (tagSent s s1 (.queue q))

/-- One append unit of the packet of queue q. -/
def appendUnit (s : State) (q : Nat) (p : List Byte) (r : Run) (u : Nat) : State :=
  let a := attnOf p
  let ctx := qCtx s q
  let qpos := nth0 r.bounds 0
  let nq := nth0 r.bounds 1
  let nkb := nth0 r.bounds 2
  let d := nthL r.descs u
  let h := u / nkb
  if heldBack s ctx (srcOf 3 q) (pkTag p) then s
  else match descIdx s a h d with
  | none => s
  | some i =>
    let fin := fun t => appendWrite t q ctx (pkTag p) a qpos nq u h i d
    if !dAlloc d then fin s
    else if (getWay s i).state ≠ 0 then writeIndex s q ctx (pkTag p) a nkb u i fin
    else match poolOf s i, seqOf s a.handle with
      | some pt, some sq =>
        let f := takeFrame s pt q (pkTag p) 1 i sq.1
        (match f.1 with
          | none => f.2
          | some fr => writeIndex
              (allocPage f.2 pt i fr ⟨sq.1, a.layer, a.kvHead0 + h, dPos d / 256, 0, a.kfmt, 0, 1, 0, fr⟩)
              q ctx (pkTag p) a nkb u i fin)
      | _, _ => s

/-! ## Blocks (R122, R129) -/

/-- A token at distance is visible to a row (R115). -/
def visible (a : Attn) (d : List Byte) (t pq : Nat) : Bool :=
  let pk := dPos d + t
  decide (t < dValid d) &&
  (match a.maskMode with
    | 0 => true
    | 1 => decide (pk ≤ pq)
    | 2 => decide (pk ≤ pq) && decide (pq - pk < a.window)
    | _ => decide ((if pk ≤ pq then pq - pk else pk - pq) < a.window))

/-- What is fixed of a block: head, first row within the head, its rows. -/
structure AttnBlock where
  h : Nat
  row0 : Nat
  rows : Nat
  deriving DecidableEq, Repr

/-- Block no of an ATTEND. -/
def attnBlock (a : Attn) (nq no : Nat) : AttnBlock :=
  let g := max 1 (ceilDiv nq a.blockQ)
  let i0 := no % g * a.blockQ
  ⟨no / g, i0 * a.g, min a.blockQ (nq - i0) * a.g⟩

/-- Rows of query tile qt of a block. -/
def qtRows (b : AttnBlock) (qt : Nat) : List Nat := upFrom (b.row0 + 32 * qt) (min 32 (b.rows - 32 * qt))
/-- Query tiles of a block. -/
def qtCount (b : AttnBlock) : Nat := ceilDiv b.rows 32
/-- A key block is skipped for a query tile (R129). -/
def skipped (a : Attn) (qpos : Nat) (b : AttnBlock) (d : List Byte) (qt : Nat) : Bool :=
  !((qtRows b qt).any (fun r => (upFrom 0 256).any (fun t => visible a d t (qpos + r / a.g))))

/-- The steps of a query group in order: (key block, query tile), key blocks outermost, the skipped ones left out. -/
def groupSteps (a : Attn) (qpos nkb : Nat) (b : AttnBlock) (descs : List (List Byte)) (g0 : Nat) : List (Nat × Nat) :=
  ((upFrom 0 nkb).map (fun k =>
    ((upFrom g0 (min a.qt (qtCount b - g0))).filter (fun qt => !skipped a qpos b (nthL descs (b.h * nkb + k)) qt)).map
      (fun qt => (k, qt)))).flatten

/-- A fresh row (R130). -/
def freshRow (dh : Nat) : AttnRow := ⟨0xFF800000, 0, List.replicate dh 0, []⟩

/-! ## Page images (R301) -/

/-- Element patterns and scales of K by token. -/
def imageK (a : Attn) (img : List Byte) : List (List Nat) × List (List Nat) :=
  let dh := a.dh
  if a.kvf = 11 then
    let w := 9 * dh / 16
    let rows := (upFrom 0 256).map (fun t => (img.drop (t * w)).take w)
    (rows.map (fun r => (upFrom 0 dh).map (fun j => bitsIn r (4 * j) 4)), rows.map (fun r => (r.drop (dh / 2)).map (·.toNat)))
  else
    ((upFrom 0 256).map (fun t => ((img.drop (t * dh)).take dh).map (·.toNat)), List.replicate 256 [])

/-- Element patterns and scales of V by column. -/
def imageV (a : Attn) (img : List Byte) : List (List Nat) × List (List Nat) :=
  let dh := a.dh
  let rows := (upFrom 0 256).map (fun t =>
    if a.kvf = 11 then
      let r := (img.drop (144 * dh + t * (dh / 2))).take (dh / 2)
      (upFrom 0 dh).map (fun j => bitsIn r (4 * j) 4)
    else ((img.drop ((256 + t) * dh)).take dh).map (·.toNat))
  ((upFrom 0 dh).map (fun j => rows.map (fun r => nth0 r j)),
   (upFrom 0 dh).map (fun j => if a.kvf = 11 then ((img.drop (272 * dh + 16 * j)).take 16).map (·.toNat) else []))

/-- The image of a key block, or why it cannot be read: none while a page is not resident. -/
def blockImage (s : State) (ctx : Nat) (a : Attn) (d : List Byte) (idx : Option Nat) : Option (Except AccFail (List Byte)) :=
  let n := imageBytes a.kfmt
  if dRelay d then some (xRead s ctx (dSrc d) n)
  else match idx with
    | none => none
    | some i => match poolOf s i with
      | none => none
      | some p =>
        let e := getWay s i
        if resident e.state then
          some (match frameBad s p e.loc 0 n with | some b => .error (.bad b) | none => .ok (frameRead s p e.loc 0 n))
        else none

/-- Patterns and values of an operand of 32 rows: rows beyond the bounds are zero. -/
def kvOperand (a : Attn) (pats scales : List (List Nat)) : OperandTile :=
  let f := a.kvFmt
  ⟨fmtBits f.1, [pats], [scales], [(pats.zip scales).map (fun x => rowVals f.1 f.2 x.1 x.2)]⟩

/-- K rows of a score tile: tokens at or beyond `valid` are zero (R128). -/
def scoreK (a : Attn) (d : List Byte) (img : List Byte) (t : Nat) : OperandTile :=
  let k := imageK a img
  let live := fun (x : List Nat × Nat) => if x.2 < dValid d then x.1 else x.1.map (fun _ => 0)
  kvOperand a ((((k.1.drop (32 * t)).take 32).zip (upFrom (32 * t) 32)).map live) ((k.2.drop (32 * t)).take 32)

/-- V columns of a value tile: tokens at or beyond `valid` are zero. -/
def valueV (a : Attn) (d : List Byte) (img : List Byte) (v : Nat) : OperandTile :=
  let c := imageV a img
  kvOperand a (((c.1.drop (32 * v)).take 32).map (fun col =>
    (col.zip (upFrom 0 256)).map (fun x => if x.2 < dValid d then x.1 else 0))) ((c.2.drop (32 * v)).take 32)

/-- The rotated and converted query row r of a head (R122, R123): element patterns. -/
def queryRow (s : State) (ctx : Nat) (a : Attn) (tab : List Nat) (qpos h r : Nat) : Except AccFail (List Nat) :=
  match readElems s ctx (a.q + h * a.qGroup + r / a.g * a.qPos + r % a.g * a.qHead) 0 (fmtBits a.qf) a.dh with
  | .error f => .error f
  | .ok e => .ok (if a.ropeMode = 0 then e
      else (rotate a tab (qpos + r / a.g) (e.map (decodeElem a.qf 0))).map (fun v => (convOut a.qf v).1))

/-- The query rows of a tile. -/
def queryTile (s : State) (ctx : Nat) (a : Attn) (qpos : Nat) (b : AttnBlock) (qt : Nat) : Except AccFail (List (List Nat)) :=
  match ropeTable s ctx a with
  | .error f => .error f
  | .ok tab => seqE ((qtRows b qt).map (queryRow s ctx a tab qpos b.h))

/-! ## The state update (R130, R131) -/

/-- NaN pattern. -/
def nanW : Word := 0x7FC00000
/-- FP32 pattern of a value. -/
def toW (v : FpVal) : Word := BitVec.ofNat 32 (toIeee fp32 v).1
/-- The value of an FP32 pattern. -/
def ofW (w : Word) : FpVal := v32 w.toNat
/-- Two to a value (R133). -/
def exp2W (v : FpVal) : FpVal := v32 (exp2V v).1
/-- Logarithm (R133). -/
def log2W (v : FpVal) : FpVal := v32 (log2V v).1

/-- After the eight score tiles: reference, rescale, probabilities (as values of `p_format`, in `s`) and the running sum. -/
def softRow (a : Attn) (d : List Byte) (pq : Nat) (w : AttnRow) : AttnRow :=
  let sc := (w.s.zip (upFrom 0 256)).map (fun x => if visible a d x.2 pq then ofW x.1 else .inf true)
  if sc.any (fun v => v.isNaN || v = .inf false) then
    ⟨nanW, nanW, w.o.map (fun _ => nanW), List.replicate 256 0⟩
  else
    let mb := sc.foldl maxV (.inf true)
    let m := ofW w.mref
    let up := ltV (rnd32 (addV m (.fin false 8 0))) mb
    let f := exp2W (rnd32 (addV m mb.neg))
    let o := if up then w.o.map (fun x => toW (rnd32 (mulV (ofW x) f))) else w.o
    let l := if up then rnd32 (mulV (ofW w.l) f) else ofW w.l
    let m1 := if up then mb else m
    let p := sc.map (fun v => if v = .inf true then fzero
      else decodeElem a.pf 0 (convOut a.pf (exp2W (rnd32 (addV v m1.neg)))).1)
    ⟨toW m1, toW (p.foldl (fun x y => rnd32 (addV x y)) l), o, p.map toW⟩

/-- m := max of LSEs etc.: LSE_MERGE of two state rows (R136). -/
def lseMerge (la : FpVal) (oa : List FpVal) (lb : FpVal) (ob : List FpVal) : FpVal × List FpVal :=
  if la.isNaN || lb.isNaN then (qnan, oa.map (fun _ => qnan))
  else
    let m := maxV la lb
    if m = .inf true then (.inf true, oa.map (fun _ => fzero))
    else
      let wa := exp2W (rnd32 (addV la m.neg))
      let wb := exp2W (rnd32 (addV lb m.neg))
      let z := rnd32 (addV wa wb)
      (rnd32 (addV m (log2W z)), (oa.zip ob).map (fun x =>
        v32 (divV fp32 (rnd32 (addV (rnd32 (mulV x.1 wa)) (rnd32 (mulV x.2 wb)))) z).1))

/-- Output and LSE of a row after its last key block (R132). -/
def finalRow (w : AttnRow) : FpVal × List FpVal :=
  if (ofW w.l).isZero then (.inf true, w.o.map (fun _ => fzero))
  else (rnd32 (addV (ofW w.mref) (log2W (ofW w.l))), w.o.map (fun x => v32 (divV fp32 (ofW x) (ofW w.l)).1))

/-- The writes that finalise row r of a head (R132, R135, R137). -/
def finalWrites (s : State) (ctx : Nat) (a : Attn) (nq h r : Nat) (w : AttnRow) : Except AccFail (List (Nat × List Byte)) :=
  let off := (h * nq * a.g + r) * a.stateRow
  let fin := finalRow w
  match (if a.stIn = 0 then .ok fin
    else match readElems s ctx (a.stIn + off) 0 32 (a.dh + 1) with
      | .error f => .error f
      | .ok e => .ok (lseMerge fin.1 fin.2 (v32 (nth0 e 0)) ((e.drop 1).map v32)) : Except AccFail (FpVal × List FpVal)) with
  | .error f => .error f
  | .ok x => .ok (
    (if a.o = 0 then [] else [(a.o + h * a.oGroup + r / a.g * a.oPos + r % a.g * a.oHead,
      packElems (fmtBits a.oF) (x.2.map (fun v => (convOut a.oF v).1)))]) ++
    (if a.stOut = 0 then [] else [(a.stOut + off, bytesAt (((x.1 :: x.2).map (fun v => leBytes 4 (toIeee fp32 v).1)).flatten) 0 a.stateRow)]))

/-! ## One tile of an attention block -/

/-- A tile of a step and what follows it: the rows after it, and the block's place. -/
structure AttnStep where
  done : TileDone
  block : BlockRun
  ended : Bool

/-- The tally wait of a descriptor (R121). -/
def waitOp (ctx tag e : Nat) (d : List Byte) : TallyOp :=
  { code := 7, ctx := ctx, vid := fieldAt d 16 2, scope := fieldAt d 18 1 % 8, amount := BitVec.ofNat 32 (fieldAt d 20 4),
    issuer := .block e, tag := BitVec.ofNat 32 tag, ord := 0, node := none, dest := 0 }

/-- The block already has an operation on its way or waits. -/
def blockWaits (s : State) (e : Nat) : Bool :=
  s.sync.flight.any (fun o => o.issuer = .block e) || s.sync.waiters.any (fun w => w.op.issuer = .block e)

/-- Rows of a query tile within the rows kept for the group. -/
def rowsAt (g0 qt : Nat) (rows : List AttnRow) : List AttnRow := (rows.drop (32 * (qt - g0))).take 32
/-- Replaces them. -/
def putRows (g0 qt : Nat) (rows new : List AttnRow) : List AttnRow :=
  rows.take (32 * (qt - g0)) ++ new ++ rows.drop (32 * (qt - g0) + new.length)

/-- Rows of the group of a block from query tile g0 on. -/
def groupRows (a : Attn) (b : AttnBlock) (g0 : Nat) : List AttnRow :=
  List.replicate (min (32 * a.qt) (b.rows - 32 * g0)) (freshRow a.dh)

/-- Lines of the K and V panels of a key block (R139, R220). -/
def kvLines (a : Attn) (d : List Byte) (img : List Byte) : List (List Byte) :=
  let f := a.kvFmt
  ((upFrom 0 8).map (fun t => let k := scoreK a d img t
    panelLines f.1 k.bits f.2 a.dqk 32 a.sqk 7 true k.pats k.scales)).flatten ++
  ((upFrom 0 a.pvTiles).map (fun v => let k := valueV a d img v
    panelLines f.1 k.bits f.2 a.dpv 32 a.spv 7 false k.pats k.scales)).flatten

/-- Tile t of the step (k, qt) of a block on engine e: a score tile, or a value tile from 8 on. -/
def attnTile (s : State) (ctx : Nat) (a : Attn) (qpos : Nat) (b : AttnBlock) (d : List Byte) (img : List Byte)
    (e k qt t g0 stepNo : Nat) (rows : List AttnRow) : Except AccFail (TileDone × List AttnRow) :=
  let mine := rowsAt g0 qt rows
  let kb := k / 65536 % 4
  let base := fun (fails : Nat) (fill drain : State → State) => 
    (⟨fails, qt, k % 65536, t % 16 + 16 * kb, [], fill, drain⟩ : TileDone)
  if t < 8 then
    match queryTile s ctx a qpos b qt with
    | .error f => .error f
    | .ok qp =>
      let qv := qp.map (fun r => r.map (decodeElem a.qf 0))
      let kt := scoreK a d img t
      let sa := [sliceRows 0 a.dqk a.sqk 32 qv]
      let sb := kt.vals.map (sliceRows 0 a.dqk a.sqk 32)
      let ps := passList 0 0
      let c := tileVals 0 false ps sa sb 32 32
      let sc := fun (v : FpVal) => toW (rnd32 (mulV (v32 a.scale) v))
      let scored := (mine.zip c).map (fun x =>
        { x.1 with s := (if t = 0 then [] else x.1.s) ++ x.2.map sc })
      let rows1 := if t = 7 then (scored.zip (qtRows b qt)).map (fun x => softRow a d (qpos + x.2 / a.g) x.1) else scored
      let fillQ := fun (u : State) => if t ≠ 0 then u else
        memWrite u (spadAddr e (a.panel + (g0 / a.qt % 2 * a.qt + (qt - g0)) * a.qTile))
          (panelLines a.qf (fmtBits a.qf) 0 a.dqk 32 a.sqk 7 false [qp] [[]]).flatten
      let fillP := fun (u : State) => if t ≠ 7 then u else
        memWrite u (spadAddr e (a.panel + 2 * a.qt * a.qTile + stepNo % a.nsb * a.pBuf))
          (panelLines a.pf (fmtBits a.pf) 0 a.dpv 32 a.spv 7 false
            [rows1.map (fun r => r.s.map (fun w => (convOut a.pf (ofW w)).1))] [[]]).flatten
      let fillKV := fun (u : State) => if t ≠ 0 ∨ qt ≠ g0 then u else fillSlots u e a.ring (slotsOf a.lines (kvLines a d img))
      .ok (base (failCount false false ps sa sb c 32 32) (fun u => fillKV (fillQ u)) (fun u => fillP (putAcc u e false c)),
        putRows g0 qt rows rows1)
  else
    let v := t - 8
    let vt := valueV a d img v
    let nc := min 32 (a.dh - 32 * v)
    let pv := (mine.map (fun r => r.s.map ofW))
    let sp := sliceRows 0 a.dpv a.spv 32 pv
    let sv := (nthL vt.vals 0).map (fun col => chunksOf a.dpv col)
    let start := fun (r : AttnRow) (j : Nat) => ofW ((r.o[32 * v + j]?).getD 0)
    let c := (mine.zip sp).map (fun x => (upFrom 0 nc).map (fun j => elemFrom (start x.1 j) x.2 (nthL sv j)))
    let sums := sumSlices sp
    let fails := ((upFrom 0 nc).filter (fun j =>
      let col := c.map (fun r => (r[j]?).getD fzero)
      !linePasses false (elemFrom (rnd32 (sumV fzero (mine.map (fun r => start r j)))) sums (nthL sv j))
        (drainSum false col) (drainSum false (col.map FpVal.abs)))).length
    let rows1 := (mine.zip c).map (fun x =>
      { x.1 with o := x.1.o.take (32 * v) ++ x.2.map toW ++ x.1.o.drop (32 * v + nc) })
    .ok (base fails (fun u => u) (fun u => putAcc u e false c), putRows g0 qt rows rows1)

/-- The writes that finalise every row of a group. -/
def groupFinal (s : State) (ctx : Nat) (a : Attn) (nq : Nat) (b : AttnBlock) (g0 : Nat) (rows : List AttnRow) :
    Except AccFail (List (Nat × List Byte)) :=
  match seqE ((rows.zip (upFrom (b.row0 + 32 * g0) rows.length)).map (fun x => finalWrites s ctx a nq b.h x.2 x.1)) with
  | .error f => .error f
  | .ok l => .ok l.flatten

/-- The block moves past its group: to the next group, or to its end. -/
def nextGroup (a : Attn) (b : AttnBlock) (g0 : Nat) (br : BlockRun) : BlockRun × Bool :=
  let g1 := g0 + a.qt
  if g1 < qtCount b then ({ br with tile := 0, kb := 0, qt := g1, rows := groupRows a b g1, waited := false }, false)
  else (br, true)

/-- The step of a group that follows (k, qt). -/
def stepAfter (l : List (Nat × Nat)) (k qt : Nat) : Option (Nat × Nat) :=
  (l.dropWhile (fun x => !(x.1 = k && x.2 = qt))).tail.head?

end Sys2Proof.Machine
end

