-- ==== Sys2Proof/Machine/Convoy.lean ====
section
/-! DEFINITION. Collectives: the collective block (R275 to R280), its checks (R281), sequence numbers (R271, R294), starting
and opening an operation (R270, R273, R274, R286, R287), the pieces that travel (R282, R284, R289), reductions (R283), and
the completion of the local part (R285). -/

namespace Sys2Proof.Machine

/-! ## The collective block -/

/-- Fields of a collective block at an offset of a packet. -/
structure CollBlock where
  group : Nat
  cop : Nat
  red : Nat
  ctype : Nat
  doneTally : Nat
  doneScope : Nat
  dst : Nat
  count : Nat
  peer : Nat
  peer2 : Nat
  zero : Bool
  rsvOk : Bool
  deriving DecidableEq, Repr

/-- Reads a collective block (R275). -/
def collOf (p : List Byte) (off : Nat) : CollBlock :=
  let f := fun a n => fieldAt p (off + a) n
  { group := f 0 1, cop := bitsOf (f 1 1) 3 0, red := bitsOf (f 1 1) 7 4, ctype := bitsOf (f 2 1) 3 0, doneTally := f 4 2
    doneScope := bitsOf (f 6 1) 2 0, dst := f 8 8, count := f 16 4, peer := f 20 2, peer2 := f 22 2
    zero := f 0 24 = 0
    rsvOk := bitsOf (f 2 1) 7 4 = 0 && f 3 1 = 0 && bitsOf (f 6 1) 7 3 = 0 && f 7 1 = 0 }

/-- Where the collective block of an opcode lies (R82, R280). -/
def collOffset (op : Nat) : Nat := if op = 4 then 168 else if op = 0x18 then 104 else 232

/-- What a fused collective sends: the source region (R278). -/
structure Region where
  addr : Nat
  bytes : Nat
  /-- contiguous, as R278 asks -/
  ok : Bool
  fmt : Nat
  scaled : Bool
  /-- the packet writes nothing (R279) -/
  empty : Bool
  /-- bytes of a state row for ATTEND, else 0 -/
  row : Nat
  deriving DecidableEq, Repr

/-- Bytes of an element: of `ctype`, a state row, or 1. -/
def elemSize (red ctype row dh : Nat) : Nat :=
  if red = 0 then 1 else if row ≠ 0 then row else if red = 4 then round128 (4 + 4 * dh) else max 1 (fmtBits ctype / 8)

/-- Types that a reduction accepts (R277). -/
def redTypeOk (red ctype : Nat) : Bool :=
  if red = 0 then ctype = 0
  else if red ≤ 3 then [0, 1, 2, 10].contains ctype
  else if red = 4 then ctype = 0
  else [8, 10].contains ctype
/-- Types reduced in switches. -/
def inSwitch (red : Nat) : Bool := decide (1 ≤ red) && decide (red ≤ 4)

/-- Fields of a COLLECTIVE packet (R280). -/
structure CollPacket where
  src : Nat
  counts : Nat
  capacity : Nat
  pitch : Nat
  dh : Nat
  kind : Nat
  deriving DecidableEq, Repr

/-- Reads them; a fused collective has none. -/
def collPacketOf (p : List Byte) : CollPacket :=
  if pkOp p = 0x18 then
    ⟨fieldAt p 16 8, fieldAt p 24 8, fieldAt p 32 4, fieldAt p 36 4, fieldAt p 40 2, fieldAt p 42 1⟩
  else ⟨0, 0, 0, 0, 0, 0⟩

/-- A failure of check 11 (R281). -/
def collFail (code item : Nat) : CheckFail := ⟨code, 11, item, 0, 0, 0⟩

/-- Check 1 of R281. -/
def collCodes (fused : Bool) (b : CollBlock) (c : CollPacket) (row : Nat) : Option CheckFail :=
  let its := collFail 0x0104 27
  firstFail [
    need (!b.zero && b.rsvOk) its,
    need (if fused then [1, 2, 3, 7].contains b.cop else decide (1 ≤ b.cop) && decide (b.cop ≤ 10)) its,
    need (if b.cop ≤ 2 then decide (1 ≤ b.red) && decide (b.red ≤ 6) else b.red = 0) its,
    need (addrOk b.dst && boundOk b.count) its,
    need ([6, 7, 8, 9].contains b.cop || b.peer = 0) its,
    need (b.cop = 9 || b.peer2 = 0) its,
    need (!fused || (b.red = 0 || ((b.red = 4) == decide (row ≠ 0)))) its,
    need (fused || firstFail [
      need (bitsOf b.count 31 30 ≠ 2) its,
      need (addrOk c.src && addrOk c.counts) its,
      need (b.cop = 5 || c.counts = 0) its,
      need ([4, 5, 8, 9].contains b.cop || c.capacity = 0) its,
      need (c.pitch % 128 = 0 && ([8, 9].contains b.cop || c.pitch = 0)) its,
      need (if b.red = 4 then c.dh % 16 = 0 && decide (16 ≤ c.dh) && decide (c.dh ≤ 256) else c.dh = 0) its,
      need (c.kind = 0 || (c.kind = 1 && [7, 9].contains b.cop)) its,
      need ([1, 2].contains b.cop || b.dst ≠ 0) its] = none) its,
    need (redTypeOk b.red b.ctype) (collFail 0x0105 27)]

/-- Format of the source region (R278). -/
def regionFmt (b : CollBlock) (r : Region) : Option CheckFail :=
  need (if b.red = 0 then r.fmt ≠ 7 && r.fmt ≠ 11 && !r.scaled else !r.scaled && (r.fmt = b.ctype || decide (r.row ≠ 0)))
    (collFail 0x0105 29)

/-- The collective checks of a packet that has a collective (R281). -/
def collCheck (s : State) (ctx : Nat) (p : List Byte) (count : Nat) (region : Option Region) : Option CheckFail :=
  let b := collOf p (collOffset (pkOp p))
  let c := collPacketOf p
  let row := match region with | some r => r.row | none => 0
  let es := elemSize b.red b.ctype row c.dh
  firstFail [
    collCodes region.isSome b c row,
    (match region with | some r => regionFmt b r | none => none),
    (match getGroup s b.group with
      | none => some (collFail 0x0303 28)
      | some g =>
        if g.ctx ≠ ctx then some (collFail 0x0303 28)
        else if g.broken then some ⟨0x0401, 8, b.group, g.selfPos, g.seq.toNat, 0⟩
        else
          let its := collFail 0x0104 27
          let n := g.members.length
          firstFail [
            need (!([6, 7, 8, 9].contains b.cop) || decide (b.peer < n)) its,
            need (b.cop ≠ 9 || decide (b.peer2 < n)) its,
            need (!([7, 8, 9].contains b.cop) || b.peer ≠ g.selfPos) its,
            need (b.cop ≠ 9 || b.peer2 ≠ g.selfPos) its,
            need (b.cop ≠ 2 || count % max 1 n = 0) (collFail 0x0104 27),
            (match region with
              | none => none
              | some r => need (r.empty || (r.ok && r.bytes = count * es)) (collFail 0x0104 29))])]

/-! ## Sequence numbers (R271, R294) -/

/-- A pair sequence number. -/
def pairSeq (t : Tab Word) (pos : Nat) : Word := tabGet 0 t pos
/-- Operations matched pair by pair. -/
def isPair (cop : Nat) : Bool := [7, 8, 9].contains cop

/-- The numbers that an operation takes: kind 0 group, 1 send, 2 receive, with the peer position. -/
def seqKinds (b : CollBlock) : List (Nat × Nat) :=
  match b.cop with
  | 7 => [(1, b.peer)]
  | 8 => [(2, b.peer)]
  | 9 => [(1, b.peer), (2, b.peer2)]
  | _ => [(0, 0)]

/-- Takes one number from a group entry. -/
def takeSeq (g : GroupEntry) (k : Nat × Nat) : Word × GroupEntry :=
  match k.1 with
  | 1 => (pairSeq g.sendSeq k.2, { g with sendSeq := tabPut 0 g.sendSeq k.2 (pairSeq g.sendSeq k.2 + 1) })
  | 2 => (pairSeq g.recvSeq k.2, { g with recvSeq := tabPut 0 g.recvSeq k.2 (pairSeq g.recvSeq k.2 + 1) })
  | _ => (g.seq, { g with seq := g.seq + 1 })

/-- Takes the numbers in order. -/
def takeSeqs (g : GroupEntry) : List (Nat × Nat) → List (Nat × Nat × Word) × GroupEntry
  | [] => ([], g)
  | k :: t =>
    let r := takeSeq g k
    let q := takeSeqs r.2 t
    ((k.1, k.2, r.1) :: q.1, q.2)

/-- Gives a number back: the group's, or the pair's, returns to the number taken (R291). -/
def giveSeq (g : GroupEntry) (k : Nat × Nat × Word) : GroupEntry :=
  match k.1 with
  | 1 => { g with sendSeq := tabPut 0 g.sendSeq k.2.1 k.2.2 }
  | 2 => { g with recvSeq := tabPut 0 g.recvSeq k.2.1 k.2.2 }
  | _ => { g with seq := k.2.2 }

/-! ## Pieces (R282, R284, R289) -/

/-- Cuts n bytes into chunks: (chunk, offset, length). -/
def cuts (n e : Nat) : List (Nat × Nat × Nat) :=
  if e = 0 then [] else (upFrom 0 (ceilDiv n e)).map (fun k => (k, k * e, min e (n - k * e)))
/-- Bytes of a chunk of an operation: whole elements. -/
def chunkBytes (g : GroupEntry) (o : CollOp) : Nat := 2 ^ g.chunkLog2 / max 1 o.elemBytes * o.elemBytes
/-- Bytes a member contributes. -/
def opBytes (o : CollOp) : Nat := o.count * o.elemBytes
/-- Positions of the group. -/
def positions (g : GroupEntry) : List Nat := upFrom 0 g.members.length
/-- The other positions. -/
def others (g : GroupEntry) : List Nat := (positions g).filter (· ≠ g.selfPos)

/-- The operation travels whole on the small path (R286). -/
def onSmallPath (g : GroupEntry) (o : CollOp) : Bool :=
  let c := opBytes o
  (o.cop = 1 || o.cop = 6 || o.cop = 3) && decide (c ≤ 256) && (o.cop ≠ 3 || decide (g.members.length * c ≤ 256))

/-- Keys of the openings awaited: a position, or 65536 + position for the receiver of what this device sends. -/
def awaited (g : GroupEntry) (o : CollOp) : List Nat :=
  match o.cop with
  | 7 => [65536 + o.peer]
  | 8 => [o.peer]
  | 9 => [65536 + o.peer, o.peer2]
  | _ => others g

/-- Count in the opening of a key. -/
def openCount (p : CollProg) (k : Nat) : Nat := match p.opens.find? (fun x => x.1 = k) with | some x => x.2.1 | none => 0
/-- Every awaited opening has arrived. -/
def allOpen (g : GroupEntry) (o : CollOp) (p : CollProg) : Bool :=
  p.opened && (awaited g o).all (fun k => p.opens.any (fun x => x.1 = k))

/-- The reduction is performed in the switches (R289). -/
def inNetwork (g : GroupEntry) (o : CollOp) (p : CollProg) : Bool :=
  inSwitch o.red && decide (g.members.length > 1) && bitOf g.flags.toNat 0 && p.opens.all (fun x => x.2.2.1) &&
    Config.switchAccepts o.group o.seq.toNat

/-- Units that this device sends: source offset, length, destinations (n for the switch), label. -/
def outUnits (g : GroupEntry) (o : CollOp) (p : CollProg) : List (Nat × Nat × List Nat × Nat) :=
  let e := chunkBytes g o
  let n := g.members.length
  match o.cop with
  | 1 => (cuts (opBytes o) e).map (fun c => (c.2.1, c.2.2, [if inNetwork g o p then n else c.1 % max 1 n], c.1))
  | 2 =>
    let part := opBytes o / max 1 n
    if inNetwork g o p then (cuts (opBytes o) e).map (fun c => (c.2.1, c.2.2, [n], c.1))
    else ((positions g).map (fun q => (cuts part e).map (fun c => (q * part + c.2.1, c.2.2, [q], c.1)))).flatten
  | 3 => (cuts (opBytes o) e).map (fun c => (c.2.1, c.2.2, positions g, c.1))
  | 4 => (cuts (opBytes o) e).map (fun c => (c.2.1, c.2.2, positions g, c.1))
  | 5 => ((positions g).map (fun q =>
      (cuts (nth0 o.counts q) e).map (fun c => (listSum (o.counts.take q) + c.2.1, c.2.2, [q], c.1)))).flatten
  | 6 => if o.peer = g.selfPos then (cuts (opBytes o) e).map (fun c => (c.2.1, c.2.2, positions g, c.1)) else []
  | 7 => if o.pages.isEmpty then (cuts (opBytes o) e).map (fun c => (c.2.1, c.2.2, [o.peer], c.1))
      else (upFrom 0 o.pages.length).map (fun i => (i, 0, [o.peer], i))
  | 9 => if o.pages.isEmpty then (cuts (opBytes o) e).map (fun c => (c.2.1, c.2.2, [o.peer], c.1))
      else (upFrom 0 o.pages.length).map (fun i => (i, 0, [o.peer], i))
  | _ => []

/-- Bytes that each position contributes to a gathered result. -/
def gatherCounts (g : GroupEntry) (o : CollOp) (p : CollProg) : List Nat :=
  (positions g).map (fun q =>
    if q = g.selfPos then (if o.cop = 5 then nth0 o.counts q else opBytes o)
    else if o.cop = 3 then opBytes o else openCount p q)

/-- Bytes received in all. -/
def resultBytes (g : GroupEntry) (o : CollOp) (p : CollProg) : Nat :=
  match o.cop with
  | 1 => opBytes o
  | 2 => opBytes o / max 1 g.members.length
  | 3 => listSum (gatherCounts g o p)
  | 4 => listSum (gatherCounts g o p)
  | 5 => listSum (gatherCounts g o p)
  | 6 => opBytes o
  | 8 => openCount p o.peer * max 1 o.pitch
  | 9 => openCount p o.peer2 * max 1 o.pitch
  | _ => 0

/-- The pieces this device writes: chunk, source position (own for its own reductions and copies), offset, length. -/
def inUnits (g : GroupEntry) (o : CollOp) (p : CollProg) : List ((Nat × Nat) × Nat × Nat) :=
  let e := chunkBytes g o
  let n := g.members.length
  let gather := ((positions g).map (fun q =>
    (cuts (nth0 (gatherCounts g o p) q) e).map (fun c =>
      ((c.1, q), listSum ((gatherCounts g o p).take q) + c.2.1, c.2.2)))).flatten
  let pieces := fun (from_ cnt : Nat) =>
    if o.pitch = 0 then (cuts cnt e).map (fun c => ((c.1, from_), c.2.1, c.2.2))
    else (upFrom 0 cnt).map (fun i => ((i, from_), i * o.pitch, o.pitch))
  match o.cop with
  | 1 => (cuts (opBytes o) e).map (fun c => ((c.1, if inNetwork g o p then n else c.1 % max 1 n), c.2.1, c.2.2))
  | 2 => (cuts (opBytes o / max 1 n) e).map (fun c => ((c.1, if inNetwork g o p then n else g.selfPos), c.2.1, c.2.2))
  | 3 => gather
  | 4 => gather
  | 5 => gather
  | 6 => (cuts (opBytes o) e).map (fun c => ((c.1, o.peer), c.2.1, c.2.2))
  | 8 => pieces o.peer (openCount p o.peer)
  | 9 => pieces o.peer2 (openCount p o.peer2)
  | _ => []

/-- Result chunks of the operation on this device: what its done signals count (R285). -/
def signalCount (g : GroupEntry) (o : CollOp) (p : CollProg) : Nat :=
  if o.cop = 10 then 1
  else if (inUnits g o p).isEmpty then (outUnits g o p).length
  else if o.pitch ≠ 0 then (inUnits g o p).length
  else ceilDiv (resultBytes g o p) (max 1 (chunkBytes g o))

/-- An outbound unit has been acknowledged by every receiver other than this device. -/
def unitAcked (g : GroupEntry) (p : CollProg) (u : Nat × Nat × List Nat × Nat) : Bool :=
  u.2.2.1.all (fun d => decide (d = g.selfPos) || p.acks.contains (u.2.2.2, d))

/-- Result chunk j may be signalled. -/
def chunkReady (g : GroupEntry) (o : CollOp) (p : CollProg) (j : Nat) : Bool :=
  let ins := inUnits g o p
  if o.cop = 10 then allOpen g o p
  else if ins.isEmpty then (match (outUnits g o p)[j]? with | some u => unitAcked g p u | none => false)
  else if o.pitch ≠ 0 then ins.all (fun u => decide (u.1.1 ≠ j) || p.written.contains u.1)
  else
    let e := chunkBytes g o
    ins.all (fun u => decide ((j + 1) * e ≤ u.2.1) || decide (u.2.1 + u.2.2 ≤ j * e) || p.written.contains u.1)

/-- Owner results that others have not acknowledged yet (ALL_REDUCE, end to end). -/
def ownerPending (g : GroupEntry) (o : CollOp) (p : CollProg) : Bool :=
  o.cop = 1 && !onSmallPath g o && p.reduced.any (fun k => (others g).any (fun d => !p.acks.contains (k, d)))

/-- The local part is complete (R285). -/
def localDone (g : GroupEntry) (o : CollOp) (p : CollProg) : Bool :=
  allOpen g o p && (inUnits g o p).all (fun u => p.written.contains u.1) &&
  (o.doneTally = 0 || decide (signalCount g o p ≤ p.signals)) &&
  (onSmallPath g o || (outUnits g o p).all (unitAcked g p)) && !ownerPending g o p

/-! ## Reductions (R279, R283) -/

/-- Combines two patterns of a type. -/
def redPat (red ctype a b : Nat) : Nat :=
  match fmtOf ctype with
  | some f =>
    let x := decodeFp f a
    let y := decodeFp f b
    (toIeee f (if red = 1 then addV x y else if red = 2 then maxV x y else minV x y)).1
  | none =>
    let w := fmtBits ctype
    if red = 5 then a &&& b
    else if red = 6 then a ||| b
    else
      let x := signedOf w a
      let y := signedOf w b
      wrapInt w (if red = 1 then x + y else if red = 2 then max x y else min x y)

/-- LSE_MERGE of two state rows as bytes (R136). -/
def mergeRows (merge : FpVal → List FpVal → FpVal → List FpVal → FpVal × List FpVal) (a b : List Byte) : List Byte :=
  let w := fun (l : List Byte) => (words32 l).map (fun x => v32 x.toNat)
  let x := w a
  let y := w b
  let r := merge ((x[0]?).getD fzero) (x.drop 1) ((y[0]?).getD fzero) (y.drop 1)
  bytesAt (((r.1 :: r.2).map (fun v => leBytes 4 (toIeee fp32 v).1)).flatten) 0 a.length

/-- Combines two chunks, `a` the first operand. For LSE_MERGE only the words of LSE and output count; `dh` says how many. -/
def combine (merge : FpVal → List FpVal → FpVal → List FpVal → FpVal × List FpVal) (red ctype es : Nat) (a b : List Byte) :
    List Byte :=
  if red = 4 then (((chunksOf es a).zip (chunksOf es b)).map (fun x => mergeRows merge x.1 x.2)).flatten
  else
    let n := max 1 (fmtBits ctype / 8)
    (((chunksOf n a).zip (chunksOf n b)).map (fun x => leBytes n (redPat red ctype (leNat x.1) (leNat x.2)))).flatten

/-- One level of the tree. -/
def treeLevel {α : Type} (f : α → α → α) : List α → List α
  | a :: b :: t => f a b :: treeLevel f t
  | l => l
/-- The pairwise tree T. -/
def treeAll {α : Type} (f : α → α → α) : Nat → List α → Option α
  | 0, l => l.head?
  | k + 1, l => match l with
    | [] => none
    | [x] => some x
    | l => treeAll f k (treeLevel f l)

/-- An identity element (R279). -/
def identityElem (red ctype es : Nat) : List Byte :=
  let w := fmtBits ctype / 8
  match red with
  | 1 => if ctype = 10 then zeros 4 else leBytes w (2 ^ (8 * w - 1))
  | 2 => if ctype = 10 then leBytes 4 (2 ^ 31) else match fmtOf ctype with | some f => leBytes w (infBits f true) | none => zeros w
  | 3 => if ctype = 10 then leBytes 4 (2 ^ 31 - 1) else match fmtOf ctype with | some f => leBytes w (infBits f false) | none => zeros w
  | 4 => leBytes 4 0xFF800000 ++ zeros (es - 4)
  | 5 => List.replicate w 0xFF
  | 6 => zeros w
  | _ => zeros es

/-! ## Messages -/

/-- The control part of a message of an operation (R287). -/
def ctlOf (g : GroupEntry) (o : CollOp) (kind : Nat) (seq : Word) (count : Nat) (dataLen cause : Nat) : ConvoyCtl :=
  let op := decide (kind = 1)
  { seq := seq, group := BitVec.ofNat 8 o.group, cop := BitVec.ofNat 8 (o.cop + 16 * o.red)
    ctype := if op then BitVec.ofNat 8 o.ctype else 0
    chunkLog2 := if op then BitVec.ofNat 8 g.chunkLog2 else 0
    elemBytes := if op then BitVec.ofNat 16 o.elemBytes else 0
    cflags := if op then BitVec.ofNat 8 (g.flags.toNat % 2) else 0
    mkind := BitVec.ofNat 8 kind
    count := BitVec.ofNat 32 count
    listCrc := if op then g.listCrc else 0
    root := if op && o.cop = 6 then BitVec.ofNat 16 o.peer else 0
    fromPos := BitVec.ofNat 16 g.selfPos
    dataBytes := BitVec.ofNat 16 dataLen
    abortCause := BitVec.ofNat 8 cause }

/-- Fabric ID of a position. -/
def fidAt (g : GroupEntry) (pos : Nat) : Nat := match g.members[pos]? with | some f => f.toNat | none => 0

/-- Stamps progress on a channel (R296). -/
def progressed (s : State) (ch : Nat) : State :=
  modConv s ch (fun c => { c with silent := 0, lastStage := BitVec.ofNat 32 s.stage.toNat })
/-- Changes the progress of the operation that holds a channel. -/
def modProg (s : State) (ch : Nat) (f : CollProg → CollProg) : State := modConv s ch (fun c => { c with prog := c.prog.map f })

/-- Number under which a member matches the message to a key. -/
def seqFor (o : CollOp) (k : Nat) : Word := if o.cop = 9 && decide (k < 65536) then o.seq2 else o.seq

/-- Openings to send: destination position, count, key of the number used. -/
def openingsOf (g : GroupEntry) (o : CollOp) : List (Nat × Nat × Word) :=
  match o.cop with
  | 7 => [(o.peer, o.count, o.seq)]
  | 8 => [(o.peer, 0, o.seq)]
  | 9 => [(o.peer, o.count, o.seq), (o.peer2, 0, o.seq2)]
  | 5 => (others g).map (fun q => (q, nth0 o.counts q, o.seq))
  | _ => (others g).map (fun q => (q, o.count, o.seq))

/-- Sends the openings, with the data of an operation that travels on the small path. -/
def sendOpenings (s : State) (ch : Nat) (g : GroupEntry) (o : CollOp) (data : List Byte) : State :=
  let d := if onSmallPath g o && (o.cop ≠ 6 || o.peer = g.selfPos) then data else []
  let s1 := (openingsOf g o).foldl (fun t x => emit t (.convoy (fidAt g x.1) (ctlOf g o 1 x.2.2 x.2.1 d.length 0) d)) s
  progressed (modProg s1 ch (fun p => { p with opened := true })) ch

/-! ## Ending an operation -/

/-- An empty progress. -/
def freshProg : CollProg := ⟨[], 0, [], [], [], [], [], 0, false⟩

/-- Tag of the packet of an operation. -/
def opTag (s : State) (o : CollOp) : Nat := match curPacket s o.queue with | some p => pkTag p | none => 0

/-- Frozen channel. -/
def chanFrozen (s : State) (ch : Nat) : Bool := isFrozen s 4 ch

/-- COLLECTIVE_MISMATCH (R297). -/
def mismatchEvent (s : State) (ctx ch tag group cause pos seq val : Nat) : State :=
  raiseEvent s 0x0401 2 ctx (srcOf 5 ch) (leBytes 4 tag ++ leBytes 1 group ++ leBytes 1 cause ++ leBytes 2 pos ++
    leBytes 4 seq ++ leBytes 4 val)

/-- Reads a source unit of an operation: identity elements for an empty packet, a page image, or source memory. None while
a page is not yet sealed or not resident. -/
def readUnit (s : State) (ctx : Nat) (o : CollOp) (off len : Nat) : Option (Except AccFail (List Byte)) :=
  if o.empty then some (.ok ((List.replicate (len / max 1 o.elemBytes) (identityElem o.red o.ctype o.elemBytes)).flatten))
  else if !o.pages.isEmpty then
    let i := nth0 o.pages off
    let e := getWay s i
    match poolOf s i with
    | none => none
    | some p =>
      if resident e.state && decide (e.state ≠ 1) then
        some (match frameBad s p e.loc 0 (imageBytes e.kfmt) with
          | some b => .error (.bad b)
          | none => .ok (frameRead s p e.loc 0 (imageBytes e.kfmt)))
      else none
  else some (xRead s ctx (o.src + off) len)

/-- The head of the channel's list. -/
def holder (s : State) (ch : Nat) : Option (CollOp × CollProg × GroupEntry) :=
  match (getConv s ch).ops, (getConv s ch).prog with
  | o :: _, some p => (getGroup s o.group).map (fun g => (o, p, g))
  | _, _ => none

/-- The next operation of the channel takes hold: its progress starts, and its openings go out at once unless they carry
data of a packet that is still computing (R270, R273, R286). -/
def hold (s : State) (ch : Nat) : State :=
  match (getConv s ch).ops, (getConv s ch).prog with
  | o :: _, none =>
    (match getGroup s o.group with
      | none => s
      | some g =>
        let saved := match (getQ s o.queue).journal.find? (fun e => e.life = .issued) with | some e => e.coll | none => none
        let pr := match saved with | some p => { p with opened := false, taken := 0 } | none => freshProg
        let s1 := progressed (modConv s ch (fun c => { c with prog := some pr })) ch
        if onSmallPath g o && (o.cop ≠ 6 || o.peer = g.selfPos) then
          if o.fused && !o.empty then s1
          else match readUnit s1 g.ctx o 0 (opBytes o) with
            | some (.ok d) => sendOpenings (modProg s1 ch (fun p => { p with kept := tabSet p.kept 0 (some d), taken := 1 })) ch g o d
            | some (.error f) => waitFault s1 g.ctx (srcOf 5 ch) (opTag s o) f
            | none => s1
        else sendOpenings s1 ch g o [])
  | _, _ => s

/-- The operation that holds a channel leaves it, and the next one takes hold. -/
def releaseChan (s : State) (ch : Nat) : State :=
  hold (modConv s ch (fun c => { c with ops := c.ops.drop 1, prog := none, silent := 0 })) ch

/-- Drops every operation of a queue from the channels; those behind take hold. -/
def dropColl (s : State) (q : Nat) : State :=
  s.conv.chans.foldl (fun t x =>
    if x.2.ops.any (fun o => o.queue = q) then
      let head := match x.2.ops with | o :: _ => decide (o.queue = q) | [] => false
      let t1 := modConv t x.1 (fun c => { c with ops := c.ops.filter (fun o => o.queue ≠ q)
                                                 prog := if head then none else c.prog })
      if head then hold t1 x.1 else t1
    else t) s

/-- The operation is abandoned for a mismatch (R274): its group is broken, its packet is the next of its queue again, and
the owning context is frozen. -/
def abandon (s : State) (ch : Nat) (o : CollOp) (g : GroupEntry) : State :=
  let s1 := setGroup s o.group (some { g with broken := true })
  let s2 := dropColl s1 o.queue
  let s3 := unissue s2 o.queue
  let s4 := modQ s3 o.queue (fun u => { u with journal := u.journal.map (fun e => { e with coll := none }) })
  if ch < 32 then freezeCtx s4 g.ctx 0x0401 else s4

/-- A member detects a difference: event, aborts to every member, abandonment. -/
def mismatch (s : State) (ch : Nat) (o : CollOp) (g : GroupEntry) (cause pos val : Nat) : State :=
  let s1 := mismatchEvent s g.ctx ch (opTag s o) o.group cause pos o.seq.toNat val
  let dests := if isPair o.cop then ((awaited g o).map (fun k => k % 65536)).eraseDups else others g
  let s2 := dests.foldl (fun t q => emit t (.convoy (fidAt g q) (ctlOf g o 2 o.seq 0 0 cause) [])) s1
  abandon s2 ch o g

/-- Ends the local part when it is complete (R285): its packet may complete, and the channel is free for the next. The journal
keeps what has been done, for a re-run (R294). -/
def finishColl (s : State) (ch : Nat) : State :=
  match holder s ch with
  | none => s
  | some (o, p, g) =>
    if localDone g o p then
      releaseChan (journalAt (modRun (addCtr s 9 ch 0 1) o.queue (fun r => { r with collDone := true })) o.queue (fun e => { e with coll := some p })) ch
    else s

/-- Address of the result buffer. -/
def resultAddr (o : CollOp) : Nat := if o.dst = 0 then o.src else o.dst

/-- Writes result pieces and marks them. -/
def writePiece (s : State) (ch : Nat) (g : GroupEntry) (o : CollOp) (key : Nat × Nat) (off : Nat) (d : List Byte) : Except AccFail State :=
  match xWrite s g.ctx (resultAddr o + off) d with
  | .error f => .error f
  | .ok s1 => .ok (progressed (modProg (tagSent s s1 (.queue o.queue)) ch (fun p =>
      { p with written := if p.written.contains key then p.written else p.written ++ [key] })) ch)

/-- Data of each position of an operation on the small path. -/
def smallData (g : GroupEntry) (p : CollProg) (q : Nat) : List Byte :=
  if q = g.selfPos then (tabFind p.kept 0).getD [] else match p.opens.find? (fun x => x.1 = q) with | some x => x.2.2.2 | none => []

/-- The result of an operation on the small path (R286). -/
def smallResult (merge : FpVal → List FpVal → FpVal → List FpVal → FpVal × List FpVal) (g : GroupEntry) (o : CollOp) (p : CollProg) :
    List Byte :=
  let l := (positions g).map (smallData g p)
  match o.cop with
  | 1 => (treeAll (combine merge o.red o.ctype o.elemBytes) 13 l).getD []
  | 3 => l.flatten
  | _ => smallData g p o.peer

/-- After the last opening: receive capacity, the small path's result, and completion (R273, R286). -/
def afterOpen (merge : FpVal → List FpVal → FpVal → List FpVal → FpVal × List FpVal) (s : State) (ch : Nat) : State :=
  match holder s ch with
  | none => s
  | some (o, p, g) =>
    if !allOpen g o p then s
    else if [4, 5, 8, 9].contains o.cop && decide (o.capacity < resultBytes g o p) then
      mismatch s ch o g 7 g.selfPos o.capacity
    else if onSmallPath g o then
      if (inUnits g o p).all (fun u => p.written.contains u.1) then finishColl s ch
      else if heldBack s g.ctx (srcOf 5 ch) (opTag s o) then s
      else match xWrite s g.ctx (resultAddr o) (smallResult merge g o p) with
        | .error f => waitFault s g.ctx (srcOf 5 ch) (opTag s o) f
        | .ok s1 => finishColl (modProg (tagSent s s1 (.queue o.queue)) ch (fun x => { x with written := (inUnits g o x).map (·.1) })) ch
    else finishColl s ch

/-- The difference between an opening and the local operation: cause and local value (R273, R297). -/
def openingDiff (g : GroupEntry) (o : CollOp) (m : ConvoyCtl) : Option (Nat × Nat) :=
  let mc := m.cop.toNat % 16
  let copOk := if isPair o.cop then isPair mc else decide (mc = o.cop)
  if !copOk then some (1, o.cop)
  else if m.cop.toNat / 16 ≠ o.red then some (2, o.red)
  else if m.ctype.toNat ≠ o.ctype then some (2, o.ctype)
  else if m.elemBytes.toNat ≠ o.elemBytes then some (2, o.elemBytes)
  else if !([4, 5].contains o.cop || isPair o.cop) && decide (m.count.toNat ≠ o.count) then some (3, o.count)
  else if o.cop = 6 && decide (m.root.toNat ≠ o.peer) then some (4, o.peer)
  else if m.listCrc ≠ g.listCrc then some (5, g.listCrc.toNat)
  else if m.chunkLog2.toNat ≠ g.chunkLog2 then some (6, g.chunkLog2)
  else none

/-- Key of an opening for an operation. -/
def keyFor (o : CollOp) (p : CollProg) (m : ConvoyCtl) : Nat :=
  let from_ := m.fromPos.toNat
  if !isPair o.cop then from_
  else match m.cop.toNat % 16 with
    | 7 => from_
    | 8 => 65536 + from_
    | _ =>
      if o.cop = 7 then 65536 + from_
      else if o.cop = 8 then from_
      else if from_ = o.peer2 && !p.opens.any (fun x => x.1 = from_) then from_ else 65536 + from_

/-- A message concerns an operation: its group and number. -/
def concerns (o : CollOp) (m : ConvoyCtl) : Bool :=
  decide (m.group.toNat = o.group) && (isPair o.cop == isPair (m.cop.toNat % 16)) && (m.seq = o.seq || (o.cop = 9 && m.seq = o.seq2))

/-- An opening meets the operation that holds the channel. -/
def takeOpening (merge : FpVal → List FpVal → FpVal → List FpVal → FpVal × List FpVal) (s : State) (ch : Nat) (m : ConvoyCtl)
    (data : List Byte) : State :=
  match holder s ch with
  | none => s
  | some (o, p, g) =>
    let k := keyFor o p m
    if !(awaited g o).contains k || m.seq ≠ seqFor o k then s
    else if p.opens.any (fun x => x.1 = k) then s
    else match openingDiff g o m with
      | some d => mismatch s ch o g d.1 m.fromPos.toNat d.2
      | none =>
        afterOpen merge (progressed (modProg s ch (fun x =>
          { x with opens := x.opens ++ [(k, m.count.toNat, bitOf m.cflags.toNat 0, data)] })) ch) ch

/-- Openings that came before the local start are taken now. -/
def takeEarly (merge : FpVal → List FpVal → FpVal → List FpVal → FpVal × List FpVal) (s : State) (ch : Nat) : State :=
  match holder s ch with
  | none => s
  | some (o, _, _) =>
    let mine := (getConv s ch).early.filter (fun x => concerns o x.2.1)
    let s1 := modConv s ch (fun c => { c with early := c.early.filter (fun x => !concerns o x.2.1) })
    mine.foldl (fun t x => takeOpening merge t ch x.2.1 x.2.2) (afterOpen merge s1 ch)

/-! ## Starting (R270, R271) -/

/-- Starts the collective of the packet that has just issued on queue q. -/
def startColl (merge : FpVal → List FpVal → FpVal → List FpVal → FpVal × List FpVal) (s : State) (q : Nat) (p : List Byte)
    (count : Nat) (region : Option Region) (pages counts : List Nat) : State :=
  let b := collOf p (collOffset (pkOp p))
  let c := collPacketOf p
  match getGroup s b.group with
  | none => s
  | some g =>
    let kept := match (getQ s q).journal.find? (fun e => e.life = .issued) with | some e => e.seqs | none => []
    let r := if kept.isEmpty then takeSeqs g (seqKinds b) else (kept, g)
    let num := fun (i : Nat) => match r.1[i]? with | some x => x.2.2 | none => (0 : Word)
    let row := match region with | some x => x.row | none => 0
    let o : CollOp :=
      { queue := q, group := b.group, cop := b.cop, red := b.red, ctype := b.ctype, count := count, seq := num 0, seq2 := num 1
        peer := b.peer, peer2 := b.peer2, src := (match region with | some x => x.addr | none => c.src), dst := b.dst
        capacity := c.capacity, pitch := c.pitch, pages := pages, elemBytes := elemSize b.red b.ctype row c.dh
        doneTally := b.doneTally, doneScope := b.doneScope
        empty := (match region with | some x => x.empty | none => false), fused := region.isSome, counts := counts }
    let ch := b.group % 32
    let s1 := journalAt (setGroup s b.group (some r.2)) q (fun e => { e with seqs := r.1 })
    let s2 := modRun s1 q (fun x => { x with coll := some ch, collDone := false })
    let saved := match (getQ s q).journal.find? (fun e => e.life = .issued) with | some e => e.coll | none => none
    if (match saved with | some p => localDone g o p | none => false) then modRun s2 q (fun x => { x with collDone := true })
    else
      let s3 := modConv s2 ch (fun x => { x with ops := x.ops ++ [o] })
      takeEarly merge (hold s3 ch) ch

end Sys2Proof.Machine
end

