-- ==== Sys2Proof/Machine/Units.lean ====
section
/-! DEFINITION. Units that fail, leave and rejoin: slots, spares and parked engines (R66, R459 to R463), device failure (R464),
generations and fences (R467 to R470), and their events (R472). -/

namespace Sys2Proof.Machine

/-! ## Slots and generations (R467) -/

/-- The physical slot that serves engine e, or served it last. -/
def slotOf (s : State) (e : Nat) : Nat := (tabFind (getClu s (cluOf e)).serve (e % 16)).getD (e % 16)
/-- The last generation of a slot: 1 for a slot that serves since power-on, 0 for one that has never been in service. -/
def genOf (s : State) (c slot : Nat) : BitVec 16 := (tabFind (getClu s c).gens slot).getD (if slot = 16 then 0 else 1)
/-- The next generation: zero is skipped (R469). -/
def nextGen (g : BitVec 16) : BitVec 16 := if g = 0xFFFF then 1 else g + 1
/-- Engines of a cluster that a slot serves. -/
def servingSlots (s : State) (c : Nat) : Nat := ((upFrom (16 * c) 16).filter (fun e => !(getEng s e).retired)).length
/-- Sets or clears bit i. -/
def putBit (w : BitVec 17) (i : Nat) (b : Bool) : BitVec 17 :=
  BitVec.ofNat 17 (if b then w.toNat ||| 2 ^ i else w.toNat - (w.toNat &&& 2 ^ i))
/-- Adds to a counter of a physical slot. -/
def addSlotCtr (s : State) (c slot k : Nat) : State := addCtr s 3 (17 * c + slot) k 1

/-! ## Events (R472) -/

/-- Bytes 16 to 31 of UNIT_RETIRED and UNIT_REJOINED. -/
def unitDetail (unit cause slot outcome gen after x : Nat) : List Byte :=
  leBytes 1 unit ++ leBytes 1 cause ++ leBytes 1 slot ++ leBytes 1 outcome ++ leBytes 2 gen ++ leBytes 2 after ++ leBytes 4 x ++ zeros 4
/-- UNIT_RETIRED. -/
def unitRetired (s : State) (src unit cause slot outcome gen after x : Nat) : State :=
  raiseEvent s 0x0701 (if outcome = 4 then 3 else 1) 0xFF src (unitDetail unit cause slot outcome gen after x)
/-- UNIT_REJOINED. -/
def unitRejoined (s : State) (src unit cause slot outcome gen after x : Nat) : State :=
  raiseEvent s 0x0702 0 0xFF src (unitDetail unit cause slot outcome gen after x)

/-! ## Runs of owners of blocks -/

/-- Changes the run of the owner of a block: a queue's packet or a launched macro. -/
def modOwnerRun (s : State) (o : Issuer) (f : Run → Run) : State :=
  match o with
  | .queue q => modRun s q f
  | .slot e n => modEng s e (fun g => { g with slots := match g.slots[n]? with
      | some x => listSet g.slots n { x with run := x.run.map f }
      | none => g.slots })
  | _ => s
/-- The run of an owner. -/
def ownerRun (s : State) (o : Issuer) : Option Run :=
  match o with
  | .queue q => (getQ s q).run
  | .slot e n => match (getEng s e).slots[n]? with | some x => x.run | none => none
  | _ => none
/-- A block leaves its engine. -/
def clearBlock (s : State) (e : Nat) : State :=
  modEng s e (fun g => { g with block := none, form := 0, grouped := false, array := if g.array = 2 then 3 else g.array })
/-- A block goes back among those to be placed, and is executed again from its start (R32). -/
def requeueBlock (s : State) (e : Nat) : State :=
  match (getEng s e).block with
  | none => s
  | some b => clearBlock (modOwnerRun s b.owner (fun r => { r with work := match r.work with
      | .blocks t n => .blocks (b.no :: t) (n - 1)
      | .attend u t n => .attend u (b.no :: t) (n - 1)
      | w => w })) e

/-! ## Device failure (R464) -/

/-- Completes every accepted packet of a queue, in order, with REPLAY_REQUIRED. -/
def replayAll : Nat → State → Nat → State
  | 0, s, _ => s
  | k + 1, s, q =>
    match (getQ s q).journal with
    | [] => s
    | e :: t => replayAll k (completePacket (modQ s q (fun u => { u with journal := { e with life := .issued } :: t })) q 0x0010) q

/-- The device ends its service: the record in every event queue, then every accepted packet. -/
def deviceFailure (s : State) (src unit cause slot gen after x : Nat) : State :=
  let rec' := eventBytes 0x0701 3 0xFF src s.stage (unitDetail unit cause slot 4 gen after x)
  let s1 := (upFrom 0 64).foldl (fun t fn => postEvent t rec' fn) (modDev s (fun d => { d with failed := true }))
  let s2 := { s1 with conv := { s1.conv with chans := [] } }
  s2.host.queues.foldl (fun t x => replayAll (getQ t x.1).journal.length (dropWork t x.1) x.1) s2

/-! ## Parking (R462) -/

/-- The host of a parked engine, or of an engine of a parked cluster. -/
def hostOf (s : State) (e : Nat) : Option Nat :=
  if (getClu s (cluOf e)).cstate = 3 then
    match partOfClu s (cluOf e) with
    | none => none
    | some p => ((sortNat p.clusters).find? (fun c => decide (c ≠ cluOf e) && cluPresent s c && (getClu s c).cstate = 0)).map
        (fun c => 16 * c + e % 16)
  else (upFrom (16 * cluOf e) 16).find? (engIn s)

/-- The host as byte 24 of R472 has it; a unit without one reads all ones. -/
def hostWord (s : State) (e : Nat) : Nat := (hostOf s e).getD 0xFFFFFFFF

/-- Every engine of a cluster is parked: its blocks are executed again elsewhere, and the cluster's generation is closed. -/
def parkCluster (s : State) (c unit cause : Nat) : State :=
  let s1 := (upFrom (16 * c) 16).foldl requeueBlock (modClu s c (fun x => { x with cstate := 3 }))
  addCtr (unitRetired s1 (srcOf 12 c) unit cause 0xFF 1 (getClu s1 c).gen.toNat (servingSlots s1 c) (hostWord s1 (16 * c))) 1 0 2 1

/-- The slot of engine e is retired (R66, R459, R462): the spare is to take over, or the engine, or its cluster, is parked. -/
def retireSlot (s : State) (e cause : Nat) : State :=
  let c := cluOf e
  let slot := slotOf s e
  let gen := (genOf s c slot).toNat
  let s1 := modClu s c (fun x => { x with
    retired := putBit x.retired slot true, lives := tabPut 0 x.lives slot (tabGet 0 x.lives slot + 1) })
  let s2 := addSlotCtr (modEng (requeueBlock s1 e) e (fun g => { g with retired := true, quarantined := false, fencing := true })) c slot 2
  if (getClu s2 c).spare ≠ 31 then unitRetired s2 (srcOf 1 e) 1 cause slot 0 gen (servingSlots s2 c) 0
  else
    let s3 := if (getClu s2 c).parked.isNone then
        addCtr (modClu s2 c (fun x => { x with parked := some (Fin.ofNat 16 (e % 16)) })) 1 0 2 1 else s2
    let s4 := unitRetired s3 (srcOf 1 e) 1 cause slot 1 gen (servingSlots s3 c) (hostWord s3 e)
    if servingSlots s4 c < 15 && (getClu s4 c).cstate ≠ 3 then parkCluster s4 c 2 cause else s4

/-! ## Commands -/

/-- The device works and its units may leave or rejoin (R469). -/
def unitsMove (s : State) : Bool := s.dev.ready && s.dev.powered && !devFrozen s && !s.dev.failed

/-- Quarantines that lie within 2²⁶ stages of the newest. -/
def recentQuarantines (l : List Stage) : Nat :=
  let m := l.foldl (fun a x => max a x.toNat) 0
  (l.filter (fun x => decide (m - x.toNat < 2 ^ 26))).length

/-- SELF_TEST_DONE (R66). -/
def execSelfTestDone (e : EngineId) (pass : Bool) (s : State) : Ans :=
  .next (
    let g := getEng s e.val
    if !unitsMove s || !g.quarantined || g.retired then s
    else if !pass then
      retireSlot (addSlotCtr s (cluOf e.val) (slotOf s e.val) 1) e.val 1
    else if 3 ≤ recentQuarantines g.quarantines then retireSlot s e.val 2
    else modEng s e.val (fun g => { g with quarantined := false }))

/-- FENCE_CLOSE_TIMEOUT (R468). -/
def execFenceCloseTimeout (e : EngineId) (s : State) : Ans :=
  .next (if unitsMove s then modEng s e.val (fun g => { g with fencing := false }) else s)

/-- SELF_CHECK (R458). -/
def execSelfCheck (u : CheckedUnit) (s : State) : Ans :=
  .next (
    if !unitsMove s then s
    else
      let park := fun (c : Nat) => if (getClu s c).unitFailed then s
        else parkCluster (modClu s c (fun x => { x with unitFailed := true })) c 7 7
      let fail := fun (c unit : Nat) => deviceFailure s (srcOf 12 c) unit 7 0xFF (getClu s c).gen.toNat (servingSlots s c) 0
      match u with
      | .dispatcher c => park c.val
      | .transferEngine c => park c.val
      | .seraiMemory c => fail c.val 8
      | .tallyNode c => fail c.val 9
      | .ioDie => deviceFailure s (srcOf 0 0) 10 7 0xFF 0 0 0)

/-- A slot that passed its retest rejoins as the cluster's spare (R461, R470). -/
def rejoinSlot (s : State) (c slot : Nat) : State :=
  let gen := nextGen (genOf s c slot)
  let s1 := modClu s c (fun x => { x with
    retired := putBit x.retired slot false, spare := BitVec.ofNat 5 slot, passed := x.passed.filter (· ≠ slot)
    gens := tabSet x.gens slot (some gen) })
  unitRejoined s1 (srcOf 12 c) 1 17 slot 0 gen.toNat (servingSlots s1 c) 0

/-- A rejoin would run into an apply or a live update, and waits (R469). -/
def rejoinHeld (s : State) : Bool := s.cfg.apply.isSome || !s.sec.updating.isEmpty

/-- SLOT_RETEST (R461): a retired slot with fewer than three retirements, in a cluster without a spare. -/
def execSlotRetest (c : ClusterId) (slot : Fin 17) (pass : Bool) (s : State) : Ans :=
  .next (
    let x := getClu s c.val
    if !unitsMove s || !bitOf x.retired.toNat slot.val || decide (3 ≤ tabGet 0 x.lives slot.val) || x.spare ≠ 31 || !pass then s
    else if rejoinHeld s then
      modClu s c.val (fun x => { x with passed := if x.passed.contains slot.val then x.passed else x.passed ++ [slot.val] })
    else rejoinSlot s c.val slot.val)

/-- The engine of a cluster that its spare is to serve: one whose slot was retired. -/
def orphanOf (s : State) (c : Nat) : Option Nat := (upFrom (16 * c) 16).find? (fun e => (getEng s e).retired)

/-- The spare takes a logical index (R459): memories and image are those of the index. -/
def spareTakes (s : State) (c e : Nat) : State :=
  let slot := (getClu s c).spare.toNat
  let gen := nextGen (genOf s c slot)
  let unpark := (getClu s c).parked = some (Fin.ofNat 16 (e % 16)) || (getClu s c).cstate = 3
  let s1 := modEng s e (fun g => { g with
    retired := false, fencing := false, quarantined := false, quarantines := [], mismatches := 0, array := 0, activeRows := 0
    lent := false })
  let s2 := modClu s1 c (fun x => { x with
    spare := 31, serve := tabSet x.serve (e % 16) (some slot), gens := tabSet x.gens slot (some gen)
    parked := if x.parked = some (Fin.ofNat 16 (e % 16)) then none else x.parked })
  let s3 := { s2 with comp := { s2.comp with engines := tabMap {} (fun _ g =>
    if g.swapped = some e then { g with swapped := none } else g) s2.comp.engines } }
  let s4 := if (getClu s3 c).cstate = 3 && !(getClu s3 c).unitFailed && decide (15 ≤ servingSlots s3 c) then
      modClu s3 c (fun x => { x with cstate := 0, parked := (orphanOf s3 c).map (fun o => Fin.ofNat 16 (o % 16)) })
    else s3
  addCtr (unitRejoined s4 (srcOf 1 e) 1 16 slot (if unpark then 2 else 0) gen.toNat (servingSlots s4 c) 0) 1 0 1 1

/-- The spare of a cluster rejoins (R459, R469). -/
def rejoinSpare (s : State) (c : Nat) : State :=
  match orphanOf s c with
  | none => s
  | some e => if (getClu s c).spare = 31 then s else spareTakes s c e

/-- The memories of a cluster read zero: scratchpads, serai memory, accumulators, local and instruction stores, and the
state of its engines, rings and drovers. -/
def zeroCluster (s : State) (c : Nat) : State :=
  let inSp := fun a => decide (spadAddr (16 * c) 0 ≤ a) && decide (a < spadAddr (16 * c + 16) 0)
  let inSe := fun a => decide (seraiAddr c 0 ≤ a) && decide (a < seraiAddr (c + 1) 0)
  { s with
    mem := { s.mem with cells := tabDrop (fun a => inSp a || inSe a) s.mem.cells
                        errors := tabDrop (fun w => inSp (8 * w) || inSe (8 * w)) s.mem.errors }
    comp := { s.comp with
      acc := tabDrop (fun k => k / (16 * 32 * 4096) = c) s.comp.acc
      lstore := tabDrop (fun k => k / (0x800 * 1024) = c) s.comp.lstore
      istore := tabDrop (fun k => k / (0x8000 * 64) = c) s.comp.istore
      rings := tabDrop (fun k => k / 256 = c) s.comp.rings
      drovers := tabDrop (fun d => d / 1024 = c) s.comp.drovers
      groups := tabDrop (fun g => g / 64 = c) s.comp.groups } }

/-- A cluster given to a partition rejoins (R470). -/
def rejoinCluster (s : State) (c : Nat) : State :=
  let s1 := modClu (zeroCluster s c) c (fun x => { x with cstate := 0, gen := nextGen x.gen })
  unitRejoined s1 (srcOf 12 c) 2 20 0xFF 0 (getClu s1 c).gen.toNat (servingSlots s1 c) 0

/-- Banks in service. -/
def banksServing (s : State) : Nat := ((upFrom 0 9).filter (fun b => (getBank s b).serving)).length

/-- The spare adder bank takes the place of a retired one (R291, R470). -/
def rejoinBank (s : State) (b : Nat) : State :=
  let x := getBank s b
  if x.serving || x.retired || decide (8 ≤ banksServing s) then s
  else
    let g := nextGen x.gen
    let s1 := setBank s b { x with serving := true, gen := g, fails := [] }
    unitRejoined s1 (srcOf 6 b) 6 16 b 0 g.toNat (banksServing s1) 0

/-! ## Parked engines at work (R463) -/

/-- A parked engine has drover work: a launch holds one of its groups, or a launch slot is taken. -/
def drvWork (s : State) (e : Nat) : Bool :=
  s.comp.groups.any (fun g => decide (g.1 / 4 = e) && g.2.queue.isSome) || (getEng s e).slots.any (fun x => x.state = 1 || x.state = 2)

/-- One parked engine: swapped in at its host's block boundary, or back when its work has ended. -/
def swapParked (s : State) (e : Nat) : State :=
  match hostOf s e with
  | none => s
  | some h =>
    let g := getEng s h
    if g.swapped = some e then (if drvWork s e then s else modEng s h (fun x => { x with swapped := none }))
    else if g.block.isNone && g.swapped.isNone && drvWork s e then modEng s h (fun x => { x with swapped := some e })
    else s

/-- Parked engines of a cluster. -/
def parkedEngines (s : State) (c : Nat) : List Nat :=
  if (getClu s c).cstate = 3 then upFrom (16 * c) 16
  else match (getClu s c).parked with | none => [] | some n => [16 * c + n.val]

/-- PARKED_SWAP (R463). -/
def execParkedSwap (c : ClusterId) (s : State) : Ans :=
  .next (if unitsMove s then (parkedEngines s c.val).foldl swapParked s else s)

end Sys2Proof.Machine
end

