-- ==== Sys2Proof/Machine/Transfer.lean ====
section
/-! DEFINITION. TRANSFER: its fields (R214 to R220), checks (R221), source region (R278), channels (R213), and what one unit
reads and writes (R215 to R220, R231). -/

namespace Sys2Proof.Machine

/-! ## Fields (R214, R216, R217, R219, R220) -/

/-- The fields of a TRANSFER. -/
structure Xfer where
  src : Nat
  dst : Nat
  n : List Nat
  ss : List Int
  ds : List Int
  sf : Nat
  df : Nat
  sm : Nat
  dm : Nat
  el : Nat
  conv : Nat
  skew : Bool
  tr : Bool
  rcode : Nat
  s7 : Bool
  toRing : Bool
  ring : Nat
  align : Bool
  lines : Nat
  sSc : Nat
  dSc : Nat
  sScStr : Nat
  dScStr : Nat
  cluster : Nat
  engine : Nat
  deriving DecidableEq, Repr

/-- Reads the fields; `launch` is the launching engine of an image. -/
def xferOf (p : List Byte) (launch : Option Nat) : Xfer :=
  let f := fieldAt p
  let e := f 132 4
  let k := f 136 4
  let r := f 140 4
  let w := f 168 4
  { src := f 16 8, dst := f 24 8
    n := (upFrom 0 5).map (fun i => f (32 + 4 * i) 4)
    ss := (upFrom 0 5).map (fun i => signedOf 64 (f (52 + 8 * i) 8))
    ds := (upFrom 0 5).map (fun i => signedOf 64 (f (92 + 8 * i) 8))
    sf := bitsOf e 31 28, df := bitsOf e 27 24, sm := bitsOf e 23 22, dm := bitsOf e 21 20, el := bitsOf e 19 17
    conv := bitsOf e 16 15
    skew := bitOf k 31, tr := bitOf k 30, rcode := bitsOf k 29 27, s7 := bitOf k 26
    toRing := bitOf r 31, ring := bitsOf r 30 27, align := bitOf r 26, lines := bitsOf r 25 17
    sSc := f 144 8, dSc := f 152 8, sScStr := f 160 4, dScStr := f 164 4
    cluster := (match launch with | some e => e / 16 | none => bitsOf w 31 25)
    engine := (match launch with | some e => e % 16 | none => bitsOf w 24 21) }

/-- Count of dimension i. -/
def Xfer.cnt (x : Xfer) (i : Nat) : Nat := nth0 x.n i
/-- Entry i of a list of strides. -/
def strideAt (l : List Int) (i : Nat) : Int := (l[i]?).getD 0
/-- The K axis (R218). -/
def Xfer.kAx (x : Xfer) : Nat := if x.skew && x.tr then 1 else 0
/-- Elements under one source scale; 0 without scales. -/
def Xfer.sSpan (x : Xfer) : Nat := if x.conv = 0 then 0 else if x.sf = 11 then 16 else scaleSpan x.sm
/-- Elements under one destination scale. -/
def Xfer.dSpan (x : Xfer) : Nat := if x.conv = 0 then 0 else if x.df = 11 then 16 else scaleSpan x.dm
/-- Elements of an unskewed unit (R231). -/
def Xfer.unit (x : Xfer) : Nat := max 1 (max x.sSpan x.dSpan)
/-- Source bits per element. -/
def Xfer.sBits (x : Xfer) : Nat := if x.conv = 0 then 8 * 2 ^ x.el else fmtBits x.sf
/-- Destination bits per element. -/
def Xfer.dBits (x : Xfer) : Nat := if x.conv = 0 then 8 * 2 ^ x.el else fmtBits x.df
/-- Slice depth of the destination format (R219). -/
def Xfer.d (x : Xfer) : Nat := depth1 x.df
/-- Rows of a line. -/
def Xfer.r (x : Xfer) : Nat := 4 * 2 ^ x.rcode
/-- Slices of a panel. -/
def Xfer.S (x : Xfer) : Nat := ceilDiv (x.cnt x.kAx) x.d
/-- Lines of a panel. -/
def Xfer.panel (x : Xfer) : Nat := x.S + (if x.s7 then 7 else 0)
/-- Bytes of a line (R94). -/
def Xfer.line (x : Xfer) : Nat := lineWidth (if x.conv = 2 then 3 else 1) x.df x.dm x.r x.d
/-- A count is zero: nothing is moved (R215). -/
def Xfer.empty (x : Xfer) : Bool := x.n.any (· = 0)
/-- Elements in all. -/
def Xfer.total (x : Xfer) : Nat := x.n.foldl (· * ·) 1

/-! ## Checks (R221) -/

/-- Reserved fields of TRANSFER. -/
def xferRsv : List Rsv :=
  [⟨132, 4, 0x7FFF, 15⟩, ⟨136, 4, 0x3FFFFFF, 15⟩, ⟨140, 4, 0x1FFFF, 25⟩, ⟨168, 4, 0x1FFFFF, 33⟩, sigRsv 172, sigRsv 176, rsvAll 180 52 15]

/-- Check 2 (R217, R219). FP32 is an array input through split-3 only (R18) and has no depth (R34), so it is no destination of a
skewed conversion. -/
def xferCodes (x : Xfer) : Option CheckFail :=
  let srcOk := decide (x.sf ≤ 11) && (if x.sf = 11 then x.sm = 0 else if 10 ≤ x.sf then x.sm = 0 else scaleOk x.sf x.sm)
  let dstOk := (x.dm = 0 && [0, 1, 2, 3, 4, 8, 9, 10, 11].contains x.df) || (x.dm = 1 && [3, 4, 5, 6, 7, 8].contains x.df) ||
    (x.dm = 2 && [3, 5, 7].contains x.df)
  match x.conv with
  | 0 => firstFail [need (x.sf = 0 && x.sm = 0) (fmtFail 23), need (x.df = 0 && x.dm = 0 && !x.skew) (fmtFail 24)]
  | 1 => firstFail [need (srcOk && x.el = 0) (fmtFail 23), need (dstOk && (!x.skew || (isInput x.df && x.df ≠ 0))) (fmtFail 24)]
  | 2 => firstFail [need (x.sf = 0 && x.sm = 0 && x.el = 0) (fmtFail 23),
      need (x.df = 1 && x.dm = 0 && x.skew && x.toRing) (fmtFail 24)]
  | _ => some (fmtFail 24)

/-- The lowest and highest offset that indices and strides give. -/
def strideSpan (n : List Nat) (st : List Int) : Int × Int :=
  (n.zip st).foldl (fun a x =>
    let y := ((x.1 - 1 : Nat) : Int) * x.2
    if y < 0 then (a.1 + y, a.2) else (a.1, a.2 + y)) (0, 0)

/-- The bytes addressed stay within the 56-bit space (R215). -/
def spanOk (base : Nat) (n : List Nat) (st : List Int) (last : Nat) : Bool :=
  let r := strideSpan n st
  decide (0 ≤ (base : Int) + r.1) && decide ((base : Int) + r.2 + (last : Int) ≤ ((2 ^ 56 : Nat) : Int))

/-- Bytes of a row of n elements on a side, or of one element of at least 8 bits. -/
def sideBytes (n bits fmt : Nat) : Nat := if fmt = 11 then 9 * n / 16 else if bits < 8 then n * bits / 8 else bits / 8

/-- Check 3 (R215, R216, R218, R220). -/
def xferRanges (s : State) (p : List Byte) (x : Xfer) (launched : Bool) : Option CheckFail :=
  let c := x.conv
  let al := min (2 ^ x.el) 8
  let mul := fun (l : List Int) => l.all (fun v => v % (al : Int) = 0)
  let g := getRing s (16 * x.cluster + x.engine) x.ring
  let kn := x.cnt x.kAx
  let rows := x.total / max 1 kn
  let memSc := decide (x.dSpan ≠ 0) && x.df ≠ 11 && !x.skew && !x.toRing
  firstFail [
    need (addrOk x.src) (fieldFail 23 0 0), need (addrOk x.dst) (fieldFail 24 0 0),
    need (addrOk x.sSc && addrOk x.dSc) (fieldFail 26 0 0),
    need (c = 0 || decide (8 ≤ x.sBits) || (strideAt x.ss 0 = 0 && x.cnt 0 * x.sBits % 8 = 0)) (fieldFail 23 0 0),
    need (c = 0 || x.skew || decide (8 ≤ x.dBits) || (strideAt x.ds 0 = 0 && x.cnt 0 * x.dBits % 8 = 0)) (fieldFail 24 0 0),
    need (decide (x.total ≤ 2 ^ 40)) (fieldFail 23 0 0),
    need (c ≠ 0 || (x.src % al = 0 && mul x.ss)) (fieldFail 23 0 0),
    need (c ≠ 0 || (x.dst % al = 0 && mul x.ds)) (fieldFail 24 0 0),
    need (!x.skew || (x.sf ≠ 11 || c = 0)) (fieldFail 23 0 0),
    need (x.sSpan = 0 || kn % x.sSpan = 0) (fieldFail 26 0 0),
    need (x.dSpan = 0 || kn % x.dSpan = 0) (fieldFail 26 0 0),
    need (if x.sSpan = 0 || x.sf = 11 then x.sSc = 0 && (x.sf ≠ 11 || c = 0 || x.sScStr = 0) else true) (fieldFail 26 0 0),
    need (memSc || (x.dSc = 0 && (x.dSpan = 0 || x.skew || x.dScStr = 0))) (fieldFail 26 0 0),
    need (!x.skew || (decide (x.rcode ≤ 6) && decide (x.cnt (1 - x.kAx) ≤ x.r))) (fieldFail 24 0 0),
    need (!x.skew || x.toRing || (strideAt x.ds 0 = 0 && strideAt x.ds 1 = 0)) (fieldFail 24 0 0),
    need (!x.toRing || x.dst = 0) (fieldFail 24 0 0),
    need (!x.toRing || x.skew || x.ds.all (· = 0)) (fieldFail 24 0 0),
    need (if x.toRing then (if x.skew then decide (8 ≤ x.lines) else x.lines = 0) else x.ring = 0 && !x.align && x.lines = 0)
      (fieldFail 25 0 0),
    need (x.toRing || launched || x.engine = 0) (fieldFail 33 0 0),
    need (!x.toRing || (g.sw && g.mem ≠ 0)) (fieldFail 25 0 0),
    (if x.empty then none else firstFail [
      need (spanOk x.src x.n x.ss (sideBytes (x.cnt 0) x.sBits (if c = 0 then 0 else x.sf))) (fieldFail 23 0 0),
      need (x.toRing || (if x.skew then spanOk x.dst (x.n.drop 2) (x.ds.drop 2) (x.panel * x.line)
        else spanOk x.dst x.n x.ds (sideBytes (x.cnt 0) x.dBits (if c = 0 then 0 else x.df)))) (fieldFail 24 0 0),
      need (x.sSc + (rows - 1) * x.sScStr + kn / max 1 x.sSpan ≤ 2 ^ 56) (fieldFail 26 0 0),
      need (x.dSc + (rows - 1) * x.dScStr + kn / max 1 x.dSpan ≤ 2 ^ 56) (fieldFail 26 0 0)]),
    sigCheck p 172, sigCheck p 176]

/-- Check 5. -/
def xferSlot (s : State) (x : Xfer) : Option CheckFail :=
  if !x.toRing then none
  else
    let g := getRing s (16 * x.cluster + x.engine) x.ring
    let want := if x.skew then x.lines * x.line else 128
    need (decide (want ≤ g.slotBytes)) (spadFail 4 25 0 x.ring want g.slotBytes)

/-- The checks of R221 for a context; `launch` is the launching engine of an image. -/
def xferCheck (s : State) (p : List Byte) (ctx : Nat) (launch : Option Nat) : Option CheckFail :=
  let x := xferOf p launch
  firstFail [
    headerCheck p, rsvCheck p xferRsv, xferCodes x, xferRanges s p x launch.isSome,
    (if launch.isSome then none else need (cluAllowed s ctx x.cluster) (placeFail 33 x.cluster)),
    xferSlot s x]

/-- The dimensions from m on tile a range contiguously, each stride the size of what lies below it. -/
def contiguous : Nat → List Nat → List Int → Bool
  | _, [], _ => true
  | z, n :: t, st => (n = 1 || (st.head?.getD 0) = (z : Int)) && contiguous (z * n) t st.tail

/-- The source region of a fused collective (R278). -/
def xferRegion (x : Xfer) : Region :=
  let size := if x.skew then x.panel * x.line else sideBytes (x.cnt 0) x.dBits (if x.conv = 0 then 0 else x.df)
  let packed := !x.skew && x.conv ≠ 0 && decide (x.dBits < 8)
  let k := if x.skew then 2 else if packed then 1 else 0
  { addr := x.dst, bytes := size * (x.n.drop k).foldl (· * ·) 1
    ok := !x.toRing && x.conv ≠ 2 && contiguous size (x.n.drop k) (x.ds.drop k)
    fmt := x.df, scaled := decide (x.dm ≠ 0), empty := x.empty, row := 0 }

/-! ## Channels (R213) -/

/-- Work of an issuer that is a TRANSFER: its channel and whether it is done. -/
def setXferWork (s : State) (o : Issuer) (ch : Option Nat) (done : Bool) : State :=
  modOwnerRun s o (fun r => { r with work := .xfer ch done })

/-- Channels 48 to 63 of a cluster that are free. -/
def freeChans (s : State) (c : Nat) : List Nat := (upFrom (64 * c + 48) 16).filter (fun x => (getChan s x).isNone)

/-- Packet, context and tag of the owner of a channel or block. -/
def ownerBytes (s : State) (o : Issuer) : List Byte :=
  match o with
  | .queue q => (curPacket s q).getD []
  | .slot e n => match (getEng s e).slots[n]? with | some x => x.image | none => []
  | _ => []
/-- The queue of an owner: its own, or that of the launch. -/
def ownerQueue (s : State) (o : Issuer) : Nat := (issuerQueue s o).getD 0
/-- Context of an owner. -/
def ownerCtx (s : State) (o : Issuer) : Nat :=
  match o with
  | .slot e n => match (getEng s e).slots[n]? with | some x => (getGrp s (grpOf x.drover)).ctx | none => 0
  | o => qCtx s (ownerQueue s o)
/-- The launching engine of an owner. -/
def ownerLaunch (o : Issuer) : Option Nat := match o with | .slot e _ => some e | _ => none

/-- Starts the manifest of an issued TRANSFER on a free channel, or has it wait for one; an empty one is done at once. -/
def startXfer (s : State) (o : Issuer) : State :=
  let p := ownerBytes s o
  let x := xferOf p (ownerLaunch o)
  if x.empty then setXferWork s o none true
  else match freeChans s x.cluster with
    | [] => { s with comp := { s.comp with xferWait := s.comp.xferWait ++ [o] } }
    | l =>
      let ch := nth0 l (Config.choice s.fresh % l.length)
      let c : Chan :=
        { owner := o, ctx := ownerCtx s o, tag := BitVec.ofNat 32 (pkTag p), bytes := p, cursor := [0, 0, 0, 0, 0], state := 1
          cause := 0, req := none, inSlot := false, waiting := 0
          startFilled := (getRing s (16 * x.cluster + x.engine) x.ring).filled, signals := 0 }
      drawn (setXferWork (setChan s ch (some c)) o (some ch) false)

/-- A channel has become free: the first TRANSFER that waits for its cluster takes it. -/
def serveXfers (s : State) (c : Nat) : State :=
  match s.comp.xferWait.find? (fun o => (xferOf (ownerBytes s o) (ownerLaunch o)).cluster = c) with
  | none => s
  | some o => startXfer { s with comp := { s.comp with xferWait := s.comp.xferWait.filter (· ≠ o) } } o

/-! ## Units (R231) -/

/-- Why a unit is not delivered: a host page without a translation, bytes of another device that have not come yet, or a failed
access, with the role of R235. -/
inductive UnitFail where
  | miss (port iova role : Nat)
  | ask (ga n : Nat)
  | acc (f : AccFail) (role : Nat)
  deriving DecidableEq, Repr

/-- A host translation is in the device's cache, or the port finds one now (R188, R232). -/
def atsHas (s : State) (ctx port page : Nat) (hit : Bool) : Bool := hit || s.mem.atsCache.contains (ctx, port, page)

/-- The host pages that a range touches: port and page. -/
def hostPages (s : State) (ctx va n : Nat) (wr : Bool) : List (Nat × Nat) :=
  ((piecesOf va n).filterMap (fun x => match xlate s ctx x.1 wr with
    | .ok ga => (match placeOf s ga with
      | .host port a => some ((upFrom (a / 4096) ((a + x.2 - 1) / 4096 + 1 - a / 4096)).map (fun g => (port, g)))
      | _ => none)
    | .error _ => none)).flatten

/-- The first host page of a range without a translation. -/
def pageMiss (s : State) (ctx va n : Nat) (wr hit : Bool) (role : Nat) : Option UnitFail :=
  ((hostPages s ctx va n wr).find? (fun g => !atsHas s ctx g.1 g.2 hit)).map (fun g => .miss g.1 (4096 * g.2) role)

/-- The first piece of a range that lies on another device and has not been read yet. -/
def fabricAsk (s : State) (ctx va n : Nat) : Option UnitFail :=
  (piecesOf va n).findSome? (fun x => match xlate s ctx x.1 false with
    | .ok ga => (match placeOf s ga with
      | .fabric _ _ => if s.fab.got.any (fun g => g.2.1 = ga && g.2.2 = x.2) then none else some (.ask ga x.2)
      | _ => none)
    | .error _ => none)

/-- Reads n bytes for a manifest: its channel's own fabric reads are those in `fab.got`. -/
def unitRead (s : State) (ctx : Nat) (hit : Bool) (role va n : Nat) : Except UnitFail (List Byte) :=
  match pageMiss s ctx va n false hit role, fabricAsk s ctx va n with
  | some f, _ => .error f
  | none, some f => .error f
  | none, none => match xRead s ctx va n with
    | .error f => .error (.acc f role)
    | .ok b => .ok b

/-- The results of a list of reads. -/
def seqU {α : Type} : List (Except UnitFail α) → Except UnitFail (List α)
  | [] => .ok []
  | .error f :: _ => .error f
  | .ok x :: t => match seqU t with
    | .error f => .error f
    | .ok l => .ok (x :: l)

/-- base + Σ i_m × stride m. -/
def strided (base : Nat) (idx : List Nat) (st : List Int) : Nat :=
  ((idx.zip st).foldl (fun (a : Int) x => a + (x.1 : Int) * x.2) (base : Int)).toNat
/-- Replaces index i. -/
def atDim (idx : List Nat) (i v : Nat) : List Nat := listSet idx i v
/-- The scale row of an element: the linear index of its other four indices. -/
def scaleRow (x : Xfer) (idx : List Nat) : Nat :=
  (((upFrom 0 5).filter (· ≠ x.kAx)).foldr (fun m acc => nth0 idx m + x.cnt m * acc) 0)

/-- The value of source element `idx`. -/
def srcElem (s : State) (ctx : Nat) (hit : Bool) (x : Xfer) (idx : List Nat) : Except UnitFail FpVal :=
  let b := x.sBits
  let i0 := nth0 idx 0
  let row := strided x.src (atDim idx 0 0) x.ss
  let bit := if b < 8 then i0 * b else 0
  let addr := if b < 8 then row + bit / 8 else strided x.src idx x.ss
  match unitRead s ctx hit 0 addr (ceilDiv (bit % 8 + b) 8) with
  | .error f => .error f
  | .ok e =>
    let pat := bitsIn e (bit % 8) b
    if x.sf = 11 then
      match unitRead s ctx hit 0 (row + x.cnt 0 / 2 + i0 / 16) 1 with
      | .error f => .error f
      | .ok sc => .ok (mulV (decodeElem 7 2 pat) (decodeScale 2 (leNat sc)))
    else if x.sSpan = 0 then .ok (if x.sf = 10 then rnd32 (decodeElem 10 0 pat) else decodeElem x.sf 0 pat)
    else match unitRead s ctx hit 2 (x.sSc + scaleRow x idx * x.sScStr + nth0 idx x.kAx / x.sSpan) 1 with
      | .error f => .error f
      | .ok sc => .ok (mulV (decodeElem x.sf x.sm pat) (decodeScale x.sm (leNat sc)))

/-- Encodes a destination group: its scale and element patterns; no scale without groups. -/
def encGroup (x : Xfer) (l : List FpVal) : Nat × List Nat :=
  if x.df = 11 then let r := fineGroup e2m1 l; (r.1, r.2.1)
  else match x.dm, fmtOf x.df with
    | 1, some f => let r := mxBlock (emaxOf x.df) (satElem f) l; (r.1, r.2.1)
    | 1, none => let r := mxBlock 0 mxInt8Elem l; (r.1, r.2.1)
    | 2, some f => let r := fineGroup f l; (r.1, r.2.1)
    | _, _ => (0, l.map (fun v => (convOut x.df v).1))

/-- One piece of a unit: where it goes, its bit offset, its bits, its value, and the role of its access. -/
structure Piece where
  addr : Nat
  bit : Nat
  bits : Nat
  val : Nat
  role : Nat
  deriving DecidableEq, Repr

/-- Patterns packed, lower elements in lower bits. -/
def packNat (bits : Nat) (l : List Nat) : Nat := l.foldr (fun x acc => x % 2 ^ bits + 2 ^ bits * acc) 0

/-- Linear index in traversal order. -/
def linear (x : Xfer) (idx : List Nat) : Nat := (upFrom 0 5).foldr (fun m acc => nth0 idx m + x.cnt m * acc) 0

/-- Bytes of a packed destination row of a ring (R218). -/
def Xfer.ringRow (x : Xfer) : Nat := x.cnt 0 * x.dBits / 8 + x.cnt 0 / max 1 x.dSpan

/-- Where an unskewed unit's elements and scales go: an address in memory, or a byte offset in the ring's sequence. -/
def plainPieces (x : Xfer) (idx : List Nat) (groups : List (Nat × List Nat)) : List Piece :=
  let b := x.dBits
  let i0 := nth0 idx 0
  let pats := (groups.map (·.2)).flatten
  let scs := (groups.map (·.1)).zip (upFrom (i0 / max 1 x.dSpan) groups.length)
  let row := strided x.dst (atDim idx 0 0) x.ds
  if x.toRing then
    if x.dSpan = 0 then [⟨linear x idx * b / 8, linear x idx * b % 8, b * pats.length, packNat b pats, 1⟩]
    else
      let base := scaleRow x idx * x.ringRow
      ⟨base + i0 * b / 8, i0 * b % 8, b * pats.length, packNat b pats, 1⟩ ::
        scs.map (fun z => ⟨base + x.cnt 0 * b / 8 + z.2, 0, 8, z.1, 1⟩)
  else
    (if b < 8 then [⟨row + i0 * b / 8, i0 * b % 8, b * pats.length, packNat b pats, 1⟩]
     else (pats.zip (upFrom 0 pats.length)).map (fun z => ⟨strided x.dst (atDim idx 0 (i0 + z.2)) x.ds, 0, b, z.1, 1⟩)) ++
    (if x.dSpan = 0 then []
     else scs.map (fun z => if x.df = 11 then ⟨row + x.cnt 0 / 2 + z.2, 0, 8, z.1, 1⟩
      else ⟨x.dSc + scaleRow x idx * x.dScStr + z.2, 0, 8, z.1, 3⟩))

/-- The pieces of the unskewed unit at the cursor. -/
def plainUnit (s : State) (ctx : Nat) (hit : Bool) (x : Xfer) (idx : List Nat) : Except UnitFail (List Piece) :=
  if x.conv = 0 then
    match unitRead s ctx hit 0 (strided x.src idx x.ss) (2 ^ x.el) with
    | .error f => .error f
    | .ok b => .ok (plainPieces x idx [(0, [leNat b])])
  else
    match seqU ((upFrom (nth0 idx 0) (min x.unit (x.cnt 0 - nth0 idx 0))).map (fun i => srcElem s ctx hit x (atDim idx 0 i))) with
    | .error f => .error f
    | .ok v => .ok (plainPieces x idx ((chunksOf (if x.dSpan = 0 then v.length else x.dSpan) v).map (encGroup x)))

/-- Block β of row ρ of a skewed panel: its scale and the element patterns of each plane. -/
def skewBlock (s : State) (ctx : Nat) (hit : Bool) (x : Xfer) (panel : List Nat) (blk rho beta : Nat) :
    Except UnitFail (Nat × List (List Nat)) :=
  let kn := x.cnt x.kAx
  let idx := fun (k : Nat) => if x.kAx = 0 then k :: rho :: panel else rho :: k :: panel
  if x.cnt (1 - x.kAx) ≤ rho then .ok (0, [[], [], []])
  else match seqU ((upFrom (beta * blk) (min blk (kn - beta * blk))).map (fun k => srcElem s ctx hit x (idx k))) with
    | .error f => .error f
    | .ok v =>
      if x.conv = 2 then
        let t := v.map split3
        .ok (0, [t.map (fun z => bf16Bits z.1), t.map (fun z => bf16Bits z.2.1), t.map (fun z => bf16Bits z.2.2)])
      else let r := encGroup x v; .ok (r.1, [r.2])

/-- Line t of a panel (R219), its source elements read for it. -/
def skewLine (s : State) (ctx : Nat) (hit : Bool) (x : Xfer) (panel : List Nat) (t : Nat) : Except UnitFail (List Byte) :=
  let d := x.d
  let r := x.r
  let n := x.dSpan
  let blk := if n = 0 then d else n
  let planes := if x.conv = 2 then 3 else 1
  let shift := fun (i : Nat) => if x.s7 then i % 8 else 0
  let get := skewBlock s ctx hit x panel blk
  let seg := fun (i : Nat) =>
    if t < shift i ∨ x.S ≤ t - shift i then .ok [] else
      let k := t - shift i
      seqU ((upFrom (4 * i) 4).map (fun rho => match get rho (k * d / blk) with
        | .error f => .error f
        | .ok b => .ok (b.2.map (fun pl => (pl.drop (k * d % blk)).take d))))
  let scale := fun (row beta : Nat) => if ceilDiv (x.cnt x.kAx) (max 1 n) ≤ beta then .ok 0 else
    match get row beta with | .error f => .error f | .ok b => .ok b.1
  match seqU ((upFrom 0 (r / 4)).map seg) with
  | .error f => .error f
  | .ok segs =>
    let scs := if n = 0 then [] else if r * d % n = 0 then
        (upFrom (t * (r * d / n)) (r * d / n)).map (fun y => scale (y % r) (y / r))
      else (upFrom 0 r).map (fun i => if t < shift (i / 4) ∨ x.S ≤ t - shift (i / 4) then .ok 0
        else scale i ((t - shift (i / 4)) * d / n))
    match seqU scs with
    | .error f => .error f
    | .ok sc =>
      .ok (((upFrom 0 planes).map (fun pl =>
        (segs.map (fun rows =>
          if rows.isEmpty then zeros 16 else segment (fmtBits x.df) d 16 x.tr (rows.map (fun w => nthL w pl)) 0)).flatten ++
        sc.map (fun b => BitVec.ofNat 8 b))).flatten)

/-- Panels before a cursor, in order of i2, i3, i4. -/
def panelNo (x : Xfer) (cur : List Nat) : Nat := nth0 cur 2 + x.cnt 2 * (nth0 cur 3 + x.cnt 3 * nth0 cur 4)

/-- Slot of the manifest and byte within it of the unit at a cursor. -/
def unitSlot (x : Xfer) (slotBytes : Nat) (cur : List Nat) : Nat × Nat :=
  if x.skew then
    let L := max 1 x.lines
    if x.align then (panelNo x cur * ceilDiv x.panel L + nth0 cur 0 / L, nth0 cur 0 % L * x.line)
    else
      let k := panelNo x cur * x.panel + nth0 cur 0
      (k / L, k % L * x.line)
  else
    let o := if x.dSpan = 0 then linear x cur * x.dBits / 8 else scaleRow x cur * x.ringRow + nth0 cur 0 * x.dBits / 8
    (o / max 1 slotBytes, o % max 1 slotBytes)

/-- The pieces of the unit at a cursor. For a ring the address of an unskewed piece counts from the start of the manifest, and
that of a line from the start of its slot. -/
def unitPieces (s : State) (ctx : Nat) (hit : Bool) (x : Xfer) (cur : List Nat) : Except UnitFail (List Piece) :=
  if x.skew then
    match skewLine s ctx hit x (cur.drop 2) (nth0 cur 0) with
    | .error f => .error f
    | .ok b =>
      let at_ := if x.toRing then (unitSlot x 1 cur).2
        else strided x.dst [0, 0, nth0 cur 2, nth0 cur 3, nth0 cur 4] x.ds + nth0 cur 0 * x.line
      .ok [⟨at_, 0, 8 * b.length, leNat b, 1⟩]
  else plainUnit s ctx hit x cur

/-- The cursor after a unit: carries from each dimension into the next; the last one runs past its count at the end. -/
def carry : List Nat → List Nat → List Nat
  | [c], _ => [c]
  | c :: c1 :: t, n :: ns => if n ≤ c then 0 :: carry ((c1 + 1) :: t) ns else c :: c1 :: t
  | l, _ => l

/-- The next cursor. -/
def nextCursor (x : Xfer) (cur : List Nat) : List Nat :=
  let lims := if x.skew then x.panel :: 1 :: x.n.drop 2 else x.n
  match cur with
  | c :: t => carry ((c + (if x.skew then 1 else x.unit)) :: t) lims
  | [] => []

/-- The cursor has passed the last unit. -/
def cursorEnd (x : Xfer) (cur : List Nat) : Bool := decide (x.cnt 4 ≤ nth0 cur 4)

end Sys2Proof.Machine
end

