-- ==== Sys2Proof/Machine/Macros.lean ====
section
/-! DEFINITION. Macro packets at issue (R93, R97, R140, R278 to R281), the placing of their blocks (R22, R70, R109, R110), and
launched macros (R169, R170). -/

namespace Sys2Proof.Machine

/-! ## Failures met at issue -/

/-- A collective that a packet started is abandoned on every member: its numbers go back, and the members are told (R291,
R395). -/
def abandonColl (s : State) (q : Nat) : State :=
  match (getQ s q).run with
  | none => s
  | some r => match r.coll with
    | none => s
    | some ch =>
      if r.collDone then s
      else match (getConv s ch).ops.find? (fun o => o.queue = q) with
        | none => s
        | some o => match getGroup s o.group with
          | none => dropColl s q
          | some g =>
            let taken := match (getQ s q).journal.find? (fun e => e.life = .issued) with | some e => e.seqs | none => []
            let dests := if isPair o.cop then ((awaited g o).map (fun k => k % 65536)).eraseDups else others g
            let s1 := setGroup s o.group (some (taken.foldl giveSeq g))
            dropColl (dests.foldl (fun t x => emit t (.convoy (fidAt g x) (ctlOf g o 2 o.seq 0 0 0) [])) s1) q

/-- The packet in execution ends with REPLAY_REQUIRED: its units stop, its collective is abandoned (R201, R395). -/
def replayPacket (s : State) (q : Nat) : State :=
  completePacket (abandonColl (dropWork s q) q) q 0x0010

/-- A failed read at issue: its own event and a frozen context, or an uncorrectable word, which is refetched or makes the
packet end with REPLAY_REQUIRED (R87, R201). -/
def issueAccess (s : State) (q : Nat) (p : List Byte) (f : AccFail) : State :=
  match f with
  | .bad b =>
    let r := uncorrectable s (qCtx s q) (srcOf 3 q) (pkTag p) (some (.queue q)) b
    if r.1 then r.2 else completePacket (startRun r.2 q (newRun r.2 .finished)) q 0x0010
  | f => waitFault s (qCtx s q) (srcOf 3 q) (pkTag p) f

/-- Issues a packet whose own checks have passed: its fused collective is checked last and started (R279, R281). -/
def issueFused (s : State) (q : Nat) (p : List Byte) (shape : Nat) (region : Region) (r : Run) (k : State → State) : State :=
  let b := collOf p (collOffset (pkOp p))
  if b.zero then k (startRun s q r)
  else if handing s 21 then s
  else match readBound s q (qCtx s q) shape b.count with
    | .error f => issueAccess s q p f
    | .ok n => match collCheck s (qCtx s q) p n (some region) with
      | some f => failIssue s q p f
      | none => startColl lseMerge (k (startRun s q r)) q p n (some region) [] []

/-! ## Source regions (R278) -/

/-- Bytes of n elements. -/
def elemBytes (fmt n : Nat) : Nat := n * fmtBits fmt / 8

/-- The source region of a MATMUL, MATMUL_BATCHED or MATVEC. -/
def planRegion (p : Plan) (bounds : List Nat) (table : List (Nat × Nat)) : Region :=
  let M := nth0 bounds 0
  let N := nth0 bounds 1
  let P := (bounds[3]?).getD 1
  let row := elemBytes p.outFmt N
  let rows := if p.table = 0 then P * M else listSum (table.map (·.2))
  { addr := p.cAddr, bytes := rows * partsOf p.pass * row
    ok := p.cStride = row && (p.op ≠ 2 || (if p.table = 0 then p.cBatch = M * p.cStride
      else (upFrom 0 table.length).all (fun i => (((table[i]?).getD (0, 0)).1) = listSum ((table.take i).map (·.2)))))
    fmt := p.outFmt, scaled := decide (p.outMode ≠ 0), empty := decide (rows = 0 ∨ N = 0), row := 0 }

/-- The source region of a CONV. -/
def convRegion (c : ConvPlan) (l : List Nat) : Region :=
  let pix := elemBytes c.outFmt (nth0 l 2)
  { addr := c.outAddr, bytes := nth0 l 0 * nth0 l 1 * pix
    ok := c.outPix = pix && c.outRow = nth0 l 1 * c.outPix
    fmt := c.outFmt, scaled := decide (c.outMode ≠ 0), empty := decide (nth0 l 0 * nth0 l 1 * nth0 l 2 = 0), row := 0 }

/-- The source region of an ATTEND. -/
def attnRegion (a : Attn) (nq : Nat) : Region :=
  { addr := a.stOut, bytes := a.nHeads * nq * a.g * a.stateRow, ok := decide (a.stOut ≠ 0)
    fmt := 0, scaled := false, empty := decide (nq = 0), row := a.stateRow }

/-! ## Issue of macro packets -/

/-- Issues a MATMUL, MATMUL_BATCHED or MATVEC packet. -/
def issuePlan (s : State) (q : Nat) (p : List Byte) : State :=
  match planStatic s p (qCtx s q) (qLatency s q) (qBatched s q) none with
  | some f => failIssue s q p f
  | none => match planBounds s q (qCtx s q) (planOf p) with
    | .access f => issueAccess s q p f
    | .fail f => failIssue s q p f
    | .ok bounds table =>
      issueFused s q p (planOf p).shape (planRegion (planOf p) bounds table)
        { newRun s (.blocks (upFrom 0 (planBlocks (planOf p) bounds table)) 0) with bounds := bounds, table := table } (fun u => u)

/-- MATMUL (R74). -/
def execMatmul (q : QueueId) (s : State) : Ans := onIssue s q.val (fun p => pkOp p = 0x01) (issuePlan s q.val)
/-- MATMUL_BATCHED (R84). -/
def execMatmulBatched (q : QueueId) (s : State) : Ans := onIssue s q.val (fun p => pkOp p = 0x02) (issuePlan s q.val)
/-- MATVEC (R86). -/
def execMatvec (q : QueueId) (s : State) : Ans := onIssue s q.val (fun p => pkOp p = 0x04) (issuePlan s q.val)

/-- Blocks of a CONV. -/
def convBlocks (c : ConvPlan) (l : List Nat) : Nat :=
  let g := convGrid c l
  g.1 * g.2.1 * g.2.2

/-- CONV (R106). -/
def execConv (q : QueueId) (s : State) : Ans :=
  onIssue s q.val (fun p => pkOp p = 0x05) (fun p =>
    match convStatic s p (qCtx s q.val) none with
    | some f => failIssue s q.val p f
    | none => match convBounds s q.val (qCtx s q.val) (convOf p) with
      | .access f => issueAccess s q.val p f
      | .fail f => failIssue s q.val p f
      | .ok l _ =>
        issueFused s q.val p (convOf p).shape (convRegion (convOf p) l)
          { newRun s (.blocks (upFrom 0 (convBlocks (convOf p) l)) 0) with bounds := l } (fun u => u))

/-- The pages that an ATTEND reads become pages with a reader (R318). -/
def attnReaders (s : State) (q : Nat) (a : Attn) (bounds : List Nat) (descs : List (List Byte)) : State :=
  let nkb := nth0 bounds 2
  let ids := (descs.zip (upFrom 0 descs.length)).filterMap (fun x => if dRelay x.1 then none else descIdx s a (x.2 / max 1 nkb) x.1)
  { s with kv := { s.kv with readers := s.kv.readers ++ (ids.eraseDups.map (fun i => (q, i))) } }

/-- ATTEND (R111, R140). -/
def execAttend (q : QueueId) (s : State) : Ans :=
  onIssue s q.val (fun p => pkOp p = 0x03) (fun p =>
    let a := attnOf p
    match attnStatic s p (qCtx s q.val) with
    | some f => failIssue s q.val p f
    | none => match attnBounds s q.val (qCtx s q.val) a with
      | .access f => issueAccess s q.val p f
      | .fail f => failIssue s q.val p f
      | .ok l ds =>
        let nq := nth0 l 1
        let units := if nq = 0 then [] else appendUnits a (nth0 l 2) ds
        issueFused s q.val p a.shape (attnRegion a nq)
          { newRun s (.attend units (upFrom 0 (attnBlocks a nq)) 0) with bounds := l, descs := ds }
          (fun u => if nq = 0 then u else attnReaders u q.val a l ds))

/-- TRANSFER (R214, R221). -/
def execTransfer (q : QueueId) (s : State) : Ans :=
  onIssue s q.val (fun p => pkOp p = 0x08) (fun p =>
    match xferCheck s p (qCtx s q.val) none with
    | some f => failIssue s q.val p f
    | none => issueFused s q.val p 0 (xferRegion (xferOf p none)) (newRun s (.xfer none false)) (fun u => startXfer u (.queue q.val)))

/-! ## Placing blocks (R22, R70) -/

/-- Offset of the placement word of an opcode. -/
def placeOff (op : Nat) : Nat := match op with | 3 => 184 | 4 => 116 | 5 => 144 | _ => 120
/-- The owner's packet runs in latency class. -/
def ownerLatency (s : State) (o : Issuer) : Bool := qLatency s (ownerQueue s o)

/-- A launched macro has the engine: one is queued, or runs with blocks left. -/
def launchHolds (x : LaunchSlot) : Bool :=
  decide (x.state = 1) || (decide (x.state = 2) && (match x.run with | some r => (match r.work with | .blocks _ _ => true | _ => false) | none => false))

/-- An engine that can take a block. -/
def engFree (s : State) (e : Nat) : Bool :=
  let g := getEng s e
  engIn s e && !g.quarantined && g.block.isNone && g.swapped.isNone && !g.slots.any launchHolds

/-- Form, by R71 code, and loop order of a block of an owner's packet. -/
def blockForm (s : State) (o : Issuer) (r : Run) (no : Nat) : Nat × Bool :=
  let p := ownerBytes s o
  match pkOp p with
  | 3 => (1, false)
  | 5 => (5, false)
  | _ => ((blockGeo (planOf p) r.bounds r.table (ownerLatency s o) no).form, wkOrder (planOf p).walk = 1)

/-- A block starts on an engine: the array is busy with its rows running, unless the block runs on the side path. -/
def startBlock (s : State) (o : Issuer) (r : Run) (e no : Nat) : State :=
  let p := ownerBytes s o
  let f := blockForm s o r no
  let rows := if pkOp p = 3 then groupRows (attnOf p) (attnBlock (attnOf p) (nth0 r.bounds 1) no) 0 else []
  addCtr (modEng s e (fun g => { g with
    block := some { owner := o, no := no, tile := 0, kb := 0, qt := 0, rows := rows, waited := false }
    form := BitVec.ofNat 3 f.1, grouped := f.2, lent := false
    array := if f.1 = 4 then g.array else 2, activeRows := if f.1 = 4 then g.activeRows else 0xFF })) 4 (cluOf e) 0 1

/-- Takes a block off those to be placed. -/
def takeBlock (s : State) (o : Issuer) (no : Nat) : State :=
  modOwnerRun s o (fun r => { r with work := match r.work with
    | .blocks t n => .blocks (t.filter (· ≠ no)) (n + 1)
    | .attend u t n => .attend u (t.filter (· ≠ no)) (n + 1)
    | w => w })

/-- The blocks a run may place now. -/
def placeable (r : Run) : List Nat := match r.work with | .blocks t _ => t | .attend [] t _ => t | _ => []

/-- Patch of a CONV block: channel block, patch row, patch column; and the engine of its cluster that runs it (R109). -/
def patchOf (c : ConvPlan) (l : List Nat) (no : Nat) : (Nat × Nat × Nat) × Nat :=
  let g := convGrid c l
  let gn := max 1 g.2.2
  let gw := max 1 g.2.1
  let bw := no / gn % gw
  let bh := no / gn / gw
  ((no % gn, bh / 4, bw / 4), 4 * (bh % 4) + bw % 4)

/-- The blocks that engine e's cluster starts for a packet, each with its engine: the next block, or the next patch whole when
its engines are free; a block whose engine is out of service runs unpatched (R109, R110). -/
def nextPlacement (s : State) (q : Nat) (r : Run) (e : Nat) : List (Nat × Nat) :=
  let p := (curPacket s q).getD []
  match placeable r with
  | [] => []
  | no :: t =>
    if !(placeClusters (fieldAt p (placeOff (pkOp p)) 4)).contains (cluOf e) then []
    else if pkOp p = 5 && (convOf p).halo ≠ 0 then
      let c := convOf p
      let out := fun (b : Nat) => let w := 16 * cluOf e + (patchOf c r.bounds b).2; !engIn s w || (getEng s w).quarantined
      if out no then (if engFree s e then [(no, e)] else [])
      else
        let mine := ((no :: t).filter (fun b => (patchOf c r.bounds b).1 = (patchOf c r.bounds no).1 && !out b)).map
          (fun b => (b, 16 * cluOf e + (patchOf c r.bounds b).2))
        if mine.all (fun b => engFree s b.2) then mine else []
    else if engFree s e then [(no, e)] else []

/-- Whose blocks are placed first (R391): latency class, then context priority, then the order of issue. -/
def placedBefore (s : State) (a b : Nat × Run) : Bool :=
  let la := qLatency s a.1
  let lb := qLatency s b.1
  let pa := ctxPriority s (qCtx s a.1)
  let pb := ctxPriority s (qCtx s b.1)
  (la && !lb) || ((la == lb) && (decide (pb < pa) || (decide (pa = pb) && decide (a.2.order < b.2.order))))

/-- BLOCK_PLACE (R70, R391): the first packet of the order that has a block for the engine. -/
def execBlockPlace (e : EngineId) (s : State) : Ans :=
  .next (
    if !devRuns s || handing s (23 + e.val / 640) then s
    else
      let cand := s.host.queues.filterMap (fun x => match x.2.run with
        | some r => if (nextPlacement s x.1 r e.val).isEmpty then none else some (x.1, r)
        | none => none)
      match bestOf (placedBefore s) cand with
      | none => s
      | some c => (nextPlacement s c.1 c.2 e.val).foldl
          (fun t b => startBlock (takeBlock t (.queue c.1) b.1) (.queue c.1) c.2 b.2 b.1) s)

/-- ARRAY_RAMP_DOWN (R53): a warm array, or one already in ramp-down, becomes idle. -/
def execArrayRampDown (e : EngineId) (s : State) : Ans :=
  .next (
    let g := getEng s e.val
    if devRuns s && (g.array = 3 || (g.array = 1 && g.block.isNone)) then
      modEng s e.val (fun g => { g with array := 0, activeRows := 0 }) else s)

/-- APPEND_UNIT (R125): the next unit of the ATTEND in execution. -/
def execAppendUnit (q : QueueId) (s : State) : Ans :=
  .next (
    if !devRuns s then s
    else match (getQ s q.val).run, curPacket s q.val with
      | some r, some p => (match r.work with
        | .attend (u :: _) _ _ => appendUnit s q.val p r u
        | _ => s)
      | _, _ => s)

/-! ## Launched macros (R169, R170) -/

/-- A refused image (R169): bytes 16 to 23 as R177 has them, bytes 24 to 31 as R98. -/
def launchFault (s : State) (d : Nat) (f : CheckFail) : State :=
  let s1 := raiseEvent s 0x0104 2 (drvCtx s d) (srcOf 2 (grpOf d))
    (leBytes 4 (drvTag s d).toNat ++ leBytes 1 0 ++ leBytes 1 (d % 64) ++ leBytes 1 (d % 64 / 16) ++ leBytes 1 0 ++
      leBytes 4 f.req ++ leBytes 4 f.avail)
  noteFaulter (freeze s1 2 (grpOf d) (partIdx (partOfClu s (cluOf (engOf d)))) 0x0104) (.drover d)

/-- What R169 asks of an image. -/
def imageCheck (s : State) (d : Nat) (p : List Byte) : Option CheckFail :=
  let op := pkOp p
  let batched := match (getGrp s (grpOf d)).queue with | some q => qBatched s q | none => false
  firstFail [
    need ([1, 2, 4, 5, 8].contains op) (headFail 15 0),
    need (fieldAt p 8 8 = 0) (headFail 15 8),
    need (fieldAt p (if op = 8 then 168 else placeOff op) 4 = 0) (headFail 33 (if op = 8 then 168 else placeOff op)),
    need ((collOf p (collOffset op)).zero) (headFail 27 (collOffset op)),
    need (op ≠ 5 || fieldAt p 148 4 = 0) (headFail 14 148),
    need (op ≠ 2 || batched) (fieldFail 15 2 0)]

/-- MLAUNCH (R169). -/
def execMlaunch (d : DroverId) (a : RArgs) (s : State) : Ans :=
  onDrover s d (.mlaunch d a) (fun s =>
    let at_ := getX s d a.rs1.toNat
    let free := (upFrom 0 4).filter (fun i => match (getEng s (engOf d)).slots[i]? with | some x => x.state = 0 | none => false)
    if at_.toNat % 64 ≠ 0 then drvFault s d 0x0303 2 at_
    else if 0x800 ≤ at_.toNat then drvFault s d 0x0303 3 at_
    else
      let len := fieldAt (lstoreBytes s d at_.toNat 4) 2 2
      if len = 0 ∨ 4 < len then launchFault s d (headFail 15 2)
      else if 0x800 < at_.toNat + 64 * len then drvFault s d 0x0303 3 at_
      else
        let p := lstoreBytes s d at_.toNat (64 * len)
        match imageCheck s d p with
        | some f => launchFault s d f
        | none => match free with
          | [] => s
          | _ =>
            let n := nth0 free (Config.choice s.fresh % free.length)
            let s1 := modEng s (engOf d) (fun g => { g with
              launches := g.launches + 1
              slots := listSet g.slots n { state := 1, image := p, drover := d.val, order := g.launches, ord := (getDrv s d).ord } })
            drawn (writeX (modDrv s1 d (fun v => { v with ord := v.ord + 2 })) d a.rd (BitVec.ofNat 32 n)))

/-- Performs signal word i of a launched macro, unless the journal shows it as done (R399). -/
def slotSignal (e n i : Nat) (s : State) : State :=
  let o : Issuer := .slot e n
  let p := ownerBytes s o
  let w := fieldAt p (sigOffset (pkOp p) + 4 * i) 4
  let ord := match (getEng s e).slots[n]? with | some x => x.ord + i | none => 0
  if bitOf w 31 && (opDone s o ord).isNone then applyOp s (sigOp (ownerCtx s o) (pkTag p) w o ord) else s

/-- A launched macro is complete: its signal words are performed on success, and its slot enters state 3 (R170). -/
def finishSlot (s : State) (e n : Nat) : State :=
  let s1 := slotSignal e n 1 (slotSignal e n 0 s)
  modEng s1 e (fun g => { g with slots := match g.slots[n]? with
    | some x => listSet g.slots n { x with state := 3, run := none } | none => g.slots })

/-- A launched macro that cannot be carried out: its launch ends with REPLAY_REQUIRED, as R178 has it for a drover. -/
def replaySlot (s : State) (e n : Nat) : State :=
  let d := match (getEng s e).slots[n]? with | some x => x.drover | none => 0
  let s1 := stopLaunch s (grpOf d)
  let s2 := match (getGrp s1 (grpOf d)).queue with | none => s1 | some q => modRun s1 q (fun r => { r with status := 0x0010 })
  modEng s2 e (fun g => { g with slots := match g.slots[n]? with
    | some x => listSet g.slots n { x with state := 3, run := none } | none => g.slots })

/-- An owner's work ends with REPLAY_REQUIRED. -/
def replayOwner (s : State) (o : Issuer) : State :=
  match o with | .queue q => replayPacket s q | .slot e n => replaySlot s e n | _ => s

/-- A failed issue check of a launched macro (R170): the layout of R98, and the launching drover's group frozen; a group that
is frozen already repeats nothing. -/
def slotFail (s : State) (e n : Nat) (f : CheckFail) : State :=
  let d := match (getEng s e).slots[n]? with | some x => x.drover | none => 0
  if isFrozen s 2 (grpOf d) then s
  else
    let s1 := raiseEvent s f.code 2 (drvCtx s d) (srcOf 2 (grpOf d)) (f.detail (pkTag (ownerBytes s (.slot e n))))
    modGrp (freeze s1 2 (grpOf d) (partIdx (partOfClu s (cluOf e))) f.code) (grpOf d) (fun g => { g with faulter := none })

/-- A failed read at the issue of a launched macro. -/
def slotAccess (s : State) (e n : Nat) (f : AccFail) : State :=
  let o : Issuer := .slot e n
  match f with
  | .bad b =>
    let r := uncorrectable s (ownerCtx s o) (srcOf 1 e) (pkTag (ownerBytes s o)) (some o) b
    if r.1 then r.2 else replaySlot r.2 e n
  | f => waitFault s (ownerCtx s o) (srcOf 1 e) (pkTag (ownerBytes s o)) f

/-- The launch runs. -/
def runSlot (s : State) (e n : Nat) (r : Run) : State :=
  modEng s e (fun g => { g with slots := match g.slots[n]? with
    | some x => listSet g.slots n { x with state := 2, run := some r } | none => g.slots })

/-- The next block of a launched macro starts on its engine; a macro without blocks is complete. -/
def slotBlock (s : State) (e n : Nat) : State :=
  match ownerRun s (.slot e n) with
  | none => s
  | some r => match r.work with
    | .blocks [] 0 => finishSlot s e n
    | .blocks (b :: _) _ => startBlock (takeBlock s (.slot e n) b) (.slot e n) r e b
    | _ => s

/-- Issues the launch in slot n. -/
def issueSlot (s : State) (e n : Nat) : State :=
  let o : Issuer := .slot e n
  let p := ownerBytes s o
  let q := ownerQueue s o
  let ctx := ownerCtx s o
  if heldBack s ctx (srcOf 1 e) (pkTag p) then s
  else match pkOp p with
  | 8 => (match xferCheck s p ctx (some e) with
    | some f => slotFail s e n f
    | none =>
      let t := startXfer (runSlot s e n (newRun s (.xfer none false))) o
      if (xferOf p (some e)).empty then finishSlot t e n else t)
  | 5 => (match convStatic s p ctx (some [e]) with
    | some f => slotFail s e n f
    | none => match convBounds s q ctx (convOf p) with
      | .access f => slotAccess s e n f
      | .fail f => slotFail s e n f
      | .ok l _ => slotBlock (runSlot s e n { newRun s (.blocks (upFrom 0 (convBlocks (convOf p) l)) 0) with bounds := l }) e n)
  | _ => match planStatic s p ctx (qLatency s q) (qBatched s q) (some [e]) with
    | some f => slotFail s e n f
    | none => match planBounds s q ctx (planOf p) with
      | .access f => slotAccess s e n f
      | .fail f => slotFail s e n f
      | .ok b t => slotBlock (runSlot s e n
          { newRun s (.blocks (upFrom 0 (planBlocks (planOf p) b t)) 0) with bounds := b, table := t }) e n

/-- LAUNCH_SLOT_TAKE (R170): a macro that runs goes on with its next block; otherwise the queued launch that was made first is
taken. -/
def execLaunchSlotTake (e : EngineId) (s : State) : Ans :=
  .next (
    let g := getEng s e.val
    if !devRuns s || !engRuns s e.val || g.quarantined || g.block.isSome then s
    else
      let at_ := g.slots.zip (upFrom 0 4)
      match at_.find? (fun x => x.1.state = 2 && launchHolds x.1) with
      | some x => slotBlock s e.val x.2
      | none => match bestOf (fun (a b : LaunchSlot × Nat) => decide (a.1.order < b.1.order)) (at_.filter (fun x => x.1.state = 1)) with
        | none => s
        | some x => issueSlot s e.val x.2)

end Sys2Proof.Machine
end

