-- ==== Sys2Proof/Machine/TileCheck.lean ====
section
/-! DEFINITION. TILE_CHECK: a tile is formed and checked, and its output released, or its block is executed again on another
engine (R62 to R68, R90, R91, R128, R134). -/

namespace Sys2Proof.Machine

/-! ## The tile that finishes next -/

/-- What the next tile of a block comes to: it waits, an access fails, or it is formed, with the block as it stands after it,
whether the block ends, and the slices it was fed. `now` is a state change that comes before. -/
inductive TileAns where
  | wait (s : State)
  | access (f : AccFail)
  | formed (d : TileDone) (b : BlockRun) (ended : Bool) (slices : Nat)

/-- A tile of a MATMUL, MATMUL_BATCHED, MATVEC or CONV block. -/
def plainTile (s : State) (e : Nat) (b : BlockRun) (r : Run) : TileAns :=
  let p := ownerBytes s b.owner
  let ctx := ownerCtx s b.owner
  let b1 := { b with tile := b.tile + 1 }
  if pkOp p = 5 then
    let c := convOf p
    match convTile s ctx c r.bounds e b.no b.tile with
    | .error f => .access f
    | .ok d => .formed d b1 (decide (convTiles c r.bounds b.no ≤ b.tile + 1))
        (kf c.kernel 0 * kf c.kernel 1 * ceilDiv (nth0 r.bounds 3) (depthOf c.inp.fmt c.filt.fmt))
  else
    let pl := planOf p
    let lat := ownerLatency s b.owner
    let g := blockGeo pl r.bounds r.table lat b.no
    match planTile s ctx pl r.bounds r.table lat e b.no b.tile with
    | .error f => .access f
    | .ok d => .formed d b1 (decide (geoTiles pl g ≤ b.tile + 1))
        (ceilDiv g.K (depthOf pl.a.fmt pl.b.fmt) * (passList pl.pass 0).length)

/-- Finalises the rows of a query group (R132, R135): a step without an array tile. -/
def groupTile (s : State) (ctx : Nat) (a : Attn) (nq : Nat) (blk : AttnBlock) (g0 : Nat) (b : BlockRun) (d : TileDone) (sl : Nat) :
    TileAns :=
  match groupFinal s ctx a nq blk g0 b.rows with
  | .error f => .access f
  | .ok w =>
    let n := nextGroup a blk g0 b
    .formed { d with writes := d.writes ++ w } n.1 n.2 sl

/-- A tile of an ATTEND block (R128 to R131). -/
def attendTile (s : State) (e : Nat) (b : BlockRun) (r : Run) : TileAns :=
  let p := ownerBytes s b.owner
  let ctx := ownerCtx s b.owner
  let a := attnOf p
  let qpos := nth0 r.bounds 0
  let nq := nth0 r.bounds 1
  let nkb := nth0 r.bounds 2
  let blk := attnBlock a nq b.no
  let g0 := b.qt / max 1 a.qt * a.qt
  let steps := groupSteps a qpos nkb blk r.descs g0
  let none' : TileDone := ⟨0, 0, 0, 0, [], id, id⟩
  match (if steps.contains (b.kb, b.qt) then some (b.kb, b.qt) else steps.head?) with
  | none => groupTile s ctx a nq blk g0 b none' 0
  | some (k, qt) =>
    let d := nthL r.descs (blk.h * nkb + k)
    if dWait d && b.tile = 0 && !b.waited then
      .wait (if blockWaits s e then s else sendOp s (waitOp ctx (pkTag p) e d))
    else match blockImage s ctx a d (descIdx s a blk.h d) with
      | none => .wait s
      | some (.error f) => .access f
      | some (.ok img) =>
        let stepNo := (steps.takeWhile (fun x => !(x.1 = k && x.2 = qt))).length
        match attnTile s ctx a qpos blk d img e k qt b.tile g0 stepNo b.rows with
        | .error f => .access f
        | .ok t =>
          let sl := if b.tile < 8 then a.sqk else a.spv
          let b1 := { b with kb := k, qt := qt, tile := b.tile + 1, rows := t.2 }
          if b1.tile < 8 + a.pvTiles then .formed t.1 b1 false sl
          else match stepAfter steps k qt with
            | some n => .formed t.1 { b1 with kb := n.1, qt := n.2, tile := 0, waited := decide (n.1 = k) && b.waited } false sl
            | none => groupTile s ctx a nq blk g0 b1 t.1 sl

/-- The next tile of a block. -/
def nextTile (s : State) (e : Nat) (b : BlockRun) : TileAns :=
  match ownerRun s b.owner with
  | none => .wait s
  | some r => if pkOp (ownerBytes s b.owner) = 3 then attendTile s e b r else plainTile s e b r

/-! ## Outcomes -/

/-- An access of a block fails (R182, R188, R201): the event and the freeze, or a refetch, or REPLAY_REQUIRED. -/
def blockAccess (s : State) (e : Nat) (b : BlockRun) (f : AccFail) : State :=
  let ctx := ownerCtx s b.owner
  let tag := pkTag (ownerBytes s b.owner)
  match f with
  | .bad x =>
    let r := uncorrectable s ctx (srcOf 1 e) tag (some b.owner) x
    if r.1 then r.2 else replayOwner (clearBlock r.2 e) b.owner
  | f => waitFault s ctx (srcOf 1 e) tag f

/-- The block has ended: its packet has one block less in execution, and a launched macro goes on or is complete. -/
def endBlock (s : State) (e : Nat) (b : BlockRun) : State :=
  let s1 := clearBlock (modOwnerRun s b.owner (fun r => { r with work := match r.work with
    | .blocks t n => .blocks t (n - 1)
    | .attend u t n => .attend u t (n - 1)
    | w => w })) e
  match b.owner with
  | .slot k n => (match ownerRun s1 b.owner with
    | some r => if r.work = .blocks [] 0 then finishSlot s1 k n else if k = e then slotBlock s1 k n else s1
    | none => s1)
  | _ => s1

/-- A failed check is counted against the engine that made it (R68). -/
def countMismatch (s : State) (e : Nat) : State :=
  addSlotCtr (addCtr (modEng s e (fun g => { g with mismatches := if g.mismatches = 0xFF then 0xFF else g.mismatches + 1 })) 2 e 3 1)
    (cluOf e) (slotOf s e) 3

/-- CHECKSUM_MISMATCH (R67). -/
def mismatchRecord (s : State) (e : Nat) (b : BlockRun) (d : TileDone) (outcome fails other : Nat) : State :=
  raiseEvent s 0x0106 (match outcome with | 1 => 1 | 3 => 2 | _ => 0) (ownerCtx s b.owner) (srcOf 1 e)
    (leBytes 4 (pkTag (ownerBytes s b.owner)) ++ leBytes 2 d.idxM ++ leBytes 2 d.idxN ++ leBytes 1 outcome ++ leBytes 1 d.kind ++
      leBytes 2 fails ++ leBytes 4 other)

/-- The output of a tile is released on engine e: its fills, its writes, its accumulators, and the block moves on. -/
def releaseTile (s : State) (e : Nat) (b b1 : BlockRun) (d : TileDone) (ended : Bool) (slices : Nat) : State :=
  match xWriteAll (d.fill s) (ownerCtx s b.owner) d.writes with
  | .error f => blockAccess s e b f
  | .ok s1 =>
    let s2 := addCtr (addCtr (d.drain (tagSent s s1 b.owner)) 2 e 2 1) 2 e 1 slices
    let s3 := if (getEng s2 e).form = 4 then addCtr s2 2 e 8 1 else s2
    let s4 := modEng s3 e (fun g => { g with block := some b1 })
    if ended then endBlock s4 e b1 else s4

/-- The writes of a tile would fail: the command then only reports the failure. -/
def writesFail (s : State) (b : BlockRun) (d : TileDone) : Bool :=
  match xWriteAll s (ownerCtx s b.owner) d.writes with | .error _ => true | .ok _ => false

/-- Another engine of the serai that could ever execute the block. -/
def otherServes (s : State) (e : Nat) : Bool := (upFrom (16 * cluOf e) 16).any (fun o => decide (o ≠ e) && engIn s o)

/-- Engine e is quarantined and stops its block (R64, R66). -/
def quarantine (s : State) (e : Nat) : State :=
  addSlotCtr (clearBlock (modEng s e (fun g => { g with quarantined := true, quarantines := g.quarantines ++ [s.stage] })) e)
    (cluOf e) (slotOf s e) 0

/-- The quarantine is lifted without counting (R64 step 4). -/
def liftQuarantine (s : State) (e : Nat) : State :=
  modEng s e (fun g => { g with quarantined := false, quarantines := g.quarantines.dropLast })

/-- The block moves to another engine, with what the engine shows of it. -/
def moveBlock (s : State) (e o : Nat) (b : BlockRun) : State :=
  let g := getEng s e
  modEng (quarantine s e) o (fun h => { h with
    block := some b, form := g.form, grouped := g.grouped, lent := false
    array := if g.form = 4 then h.array else 2, activeRows := if g.form = 4 then h.activeRows else 0xFF })

/-- The tile failed twice on engine e: steps 2 to 5 of R64. -/
def reexecute (s : State) (e : Nat) (hw : TileHw) (b b1 : BlockRun) (d : TileDone) (ended : Bool) (slices fails : Nat) : State :=
  let o := hw.other.val
  if !otherServes s e then
    let s1 := countMismatch (countMismatch s e) e
    replayOwner (mismatchRecord (quarantine s1 e) e b d 3 fails 0xFFFFFFFF) b.owner
  else if o = e ∨ cluOf o ≠ cluOf e ∨ !engFree s o then s
  else
    let s1 := moveBlock (countMismatch (countMismatch s e) e) e o b
    let out := if 0 < d.fails then (if hw.outcome = 2 then 2 else 1) else min 2 hw.outcome.toNat
    if out = 0 then releaseTile (mismatchRecord s1 e b d 1 fails o) o b b1 d ended slices
    else if out = 1 then
      releaseTile (mismatchRecord (liftQuarantine (countMismatch s1 o) e) e b d 2 fails o) o b b1 d ended slices
    else replayOwner (mismatchRecord (clearBlock (countMismatch s1 o) o) e b d 3 fails 0xFFFFFFFF) b.owner

/-- TILE_CHECK (R64). -/
def execTileCheck (e : EngineId) (hw : TileHw) (s : State) : Ans :=
  .next (
    if !devRuns s then s
    else match (getEng s e.val).block with
      | none => s
      | some b => if heldBack s (ownerCtx s b.owner) (srcOf 1 e.val) (pkTag (ownerBytes s b.owner)) then s else match nextTile s e.val b with
        | .wait t => t
        | .access f => blockAccess s e.val b f
        | .formed d b1 ended slices =>
          let fails := if hw.faulty then hw.columns.toNat else d.fails
          if !hw.faulty && d.fails = 0 || writesFail s b d then releaseTile s e.val b b1 d ended slices
          else if !hw.again && d.fails = 0 then
            releaseTile (mismatchRecord (countMismatch s e.val) e.val b d 0 fails 0xFFFFFFFF) e.val b b1 d ended slices
          else reexecute s e.val hw b b1 d ended slices fails)

end Sys2Proof.Machine
end

