-- ==== Sys2Proof/Machine/KvOps.lean ====
section
/-! DEFINITION. The KV_SEAL and KV_IMPORT packets (R311 to R313, R336, R337): sealing, releasing and renewing pages, opening and
closing sequences, and import records. -/

namespace Sys2Proof.Machine

/-! ## Selections (R311, R322) -/

/-- The selection of bytes 24 to 39: first and count of layers, heads and pages. -/
structure Sel where
  l0 : Nat
  ln : Nat
  h0 : Nat
  hn : Nat
  x0 : Nat
  xn : Nat
  deriving DecidableEq, Repr

/-- Reads a selection. -/
def selOf (p : List Byte) : Sel :=
  ⟨fieldAt p 24 2, fieldAt p 26 2, fieldAt p 28 2, fieldAt p 30 2, fieldAt p 32 4, fieldAt p 36 4⟩

/-- A range exceeds its dimension; an empty one selects nothing (R313). -/
def rangeOk (first n dim : Nat) : Bool := decide (n = 0) || decide (first + n ≤ dim)

/-- The ranges of a selection against the dimensions of its sequence. -/
def selCheck (v : Sel) (x : Sequence) : Option CheckFail :=
  firstFail [need (rangeOk v.l0 v.ln x.layers) (fieldFail 32 (v.l0 + v.ln) x.layers),
    need (rangeOk v.h0 v.hn x.heads) (fieldFail 32 (v.h0 + v.hn) x.heads),
    need (rangeOk v.x0 v.xn x.pages) (fieldFail 32 (v.x0 + v.xn) x.pages)]

/-- An entry lies in a selection. -/
def inSel (v : Sel) (e : WayEntry) : Bool :=
  decide (v.l0 ≤ e.layer) && decide (e.layer < v.l0 + v.ln) && decide (v.h0 ≤ e.head) && decide (e.head < v.h0 + v.hn) &&
    decide (v.x0 ≤ e.page) && decide (e.page < v.x0 + v.xn)

/-- The selected pages that are not FREE, ascending. -/
def selPages (s : State) (slot : Nat) (v : Sel) : List Nat := ((seqPages s slot).filter (fun y => inSel v y.2)).map (·.1)

/-- The open sequence of a handle, on a context. -/
def seqOn (s : State) (ctx handle : Nat) : Option (Nat × Sequence) :=
  match seqOf s handle with
  | none => none
  | some x => if x.2.ctx = ctx then some x else none

/-- WINDOW_VIOLATION of a handle, a range or a record (R312, R313, R337): a permission refusal (R98). -/
def handleFail : CheckFail := placeFail 30 0xFFFFFFFF

/-! ## Acting on one page -/

/-- A selection that has not yet taken the page loses it (R313); a KV_SHIP that waits no longer waits for it. -/
def losePicks (s : State) (i : Nat) : State :=
  let lost := (s.kv.streams.map (fun x => (x.2.picks.filter (fun k => k.index = i && !k.taken)).map (·.queue))).flatten
  let drop := fun (x : Stream) => { x with picks := x.picks.filter (fun k => !(k.index = i && !k.taken)) }
  let s1 := { s with kv := { s.kv with streams := tabMap {} (fun _ x => drop x) s.kv.streams } }
  lost.foldl (fun t q => modRun t q (fun r => match r.work with
    | .ship w m => { r with work := .ship (w.filter (· ≠ i)) m }
    | _ => r)) s1

/-- The page may be released or renewed: no shipment, no other reader (R310). -/
def pageIdle (s : State) (q i : Nat) (e : WayEntry) : Bool := e.ships = 0 && !hasReader s i (some q) && decide (e.state ≠ 3)

/-- Releases a page, or waits. -/
def releasePage (s : State) (q i : Nat) : PageRes :=
  let e := getWay s i
  if e.state = 0 then .done s
  else
    let s1 := losePicks s i
    if pageIdle s q i e then .done (freePage s1 i) else .wait s1

/-- The renewed page in its frame: zeroed, FILLING, `fill` 0, the target generation (R313). -/
def renewIn (s : State) (p : Partition) (i frame gen : Nat) : State :=
  dropSwap (allocPage s p i frame { getWay s i with gen := gen }) i

/-- Renews a page below the target, or waits for its shipments, its readers or a frame. -/
def renewPage (s : State) (q tag gen i : Nat) : PageRes :=
  let e := getWay s i
  if e.state = 0 || decide (gen ≤ e.gen) then .done s
  else if !pageIdle s q i e then .wait s
  else match poolOf s i with
    | none => .done s
    | some p =>
      if e.state ≠ 5 then .done (renewIn s p i e.loc gen)
      else match takeFrame s p q tag 3 i e.slot with
        | (none, s1) => .wait s1
        | (some f, s1) => .done (renewIn s1 p i f gen)

/-- Operation `op` of KV_SEAL on one page. -/
def sealStep (s : State) (q : Nat) (p : List Byte) (i : Nat) : PageRes :=
  match fieldAt p 22 1 with
  | 0 => sealPage s q (pkTag p) i
  | 2 => renewPage s q (pkTag p) (fieldAt p 44 2) i
  | _ => releasePage s q i

/-- Processes pages in order until one waits: what is left, and whether the packet must be replayed. -/
def sealLoop (s : State) (q : Nat) (p : List Byte) : List Nat → State × List Nat × Bool
  | [] => (s, [], false)
  | i :: t => match sealStep s q p i with
    | .done s1 => sealLoop s1 q p t
    | .wait s1 => (s1, i :: t, false)
    | .replay s1 => (s1, i :: t, true)

/-- Frees a sequence's slot and range; contexts frozen for want of a slot of the partition are released (R312). -/
def closeSeq (s : State) (n part : Nat) : State :=
  { s with
    kv := { s.kv with sequences := tabSet s.kv.sequences n none }
    frozen := s.frozen.filter (fun f => !(f.kind = 1 && f.code = 0x0501 && f.part.toNat = part)) }

/-- A queue's packet may go on: the device runs and neither its context nor the queue is frozen. -/
def queueGoes (s : State) (q : Nat) : Bool := devRuns s && !isFrozen s 1 (qCtx s q) && !isFrozen s 8 q

/-- A KV_SEAL goes on with the pages it has left; op 4 then frees the sequence. -/
def serveSeal (s : State) (q : Nat) (p : List Byte) (todo : List Nat) : State :=
  let r := sealLoop s q p todo
  if r.2.2 then replayPacket r.1 q
  else if fieldAt p 22 1 = 4 && r.2.1.isEmpty then
    match seqOn r.1 (qCtx s q) (fieldAt p 16 6) with
    | none => modRun r.1 q (fun x => { x with work := .sealing [] })
    | some sq =>
      let rest := (seqPages r.1 sq.1).map (·.1)
      if rest.isEmpty then closeSeq (modRun r.1 q (fun x => { x with work := .sealing [] })) sq.1 sq.2.part
      else modRun r.1 q (fun x => { x with work := .sealing rest })
  else modRun r.1 q (fun x => { x with work := .sealing r.2.1 })

/-! ## Importing (R336, R337) -/

/-- How an import record ends. -/
inductive ImpRes where
  | next (s : State)
  | wait (s : State)
  | ended (s : State)

/-- A record that breaks a check: its event, and the context frozen with the packet as its next packet. -/
def importFail (s : State) (q : Nat) (p : List Byte) (f : CheckFail) : ImpRes := .ended (failIssue (unissue s q) q p f)

/-- A CRC that does not match (step 4): SHIP_NACK with reason 7 from the importing queue. -/
def importCrc (s : State) (q : Nat) (p : List Byte) (n : Nat) : ImpRes :=
  let s1 := raiseEvent s 0x0502 2 (qCtx s q) (srcOf 3 q)
    (leBytes 4 (pkTag p) ++ leBytes 1 7 ++ zeros 3 ++ leBytes 4 n ++ zeros 4)
  .ended (freezeCtx (unissue s1 q) (qCtx s q) 0x0502)

/-- A read of a record that fails. -/
def importAccess (s : State) (q : Nat) (p : List Byte) (f : AccFail) : ImpRes :=
  match f with
  | .bad b =>
    let r := uncorrectable s (qCtx s q) (srcOf 3 q) (pkTag p) (some (.queue q)) b
    if r.1 then .wait r.2 else .ended (replayPacket r.2 q)
  | f => .wait (waitFault s (qCtx s q) (srcOf 3 q) (pkTag p) f)

/-- Steps 3 to 5 of a record: a frame, the copy, the CRC, IMPORTED with the trailer's fill. -/
def importPage (s : State) (q : Nat) (p : List Byte) (n : Nat) (pt : Partition) (slot i : Nat) (tr img : List Byte) : ImpRes :=
  match takeFrame s pt q (pkTag p) 2 i slot with
  | (none, s1) => .wait s1
  | (some f, s1) =>
    let k := fieldAt tr 14 1
    if crc32c img ≠ BitVec.ofNat 32 (fieldAt tr 16 4) then importCrc s1 q p n
    else
      let s2 := frameWrite (frameWrite s1 pt f 0 (zeros (pt.frameUnits * 128))) pt f 0 (img ++ tr)
      .next (setWay s2 i { slot := slot, layer := bitsOf (leNat (tr.take 16)) 59 48, head := bitsOf (leNat (tr.take 16)) 71 60
                           page := bitsOf (leNat (tr.take 16)) 95 72, gen := fieldAt tr 12 2, kfmt := k, fill := fieldAt tr 20 2
                           state := 6, ships := 0, loc := f })

/-- One record: the key against the sequence, the format against the frame, the entry, then the page. -/
def importRecord (s : State) (q : Nat) (p : List Byte) (n : Nat) : ImpRes :=
  let ctx := qCtx s q
  let a := fieldAt p 16 8 + n * fieldAt p 28 4
  match xRead s ctx a 128 with
  | .error f => importAccess s q p f
  | .ok tr =>
    let key := leNat (tr.take 16)
    match seqOn s ctx (bitsOf key 47 0), partOfCtx s ctx with
    | some (slot, x), some pt =>
      let l := bitsOf key 59 48
      let h := bitsOf key 71 60
      let g := bitsOf key 95 72
      let k := bitsOf key 119 112
      let i := pageIdx x l h g
      let e := getWay s i
      if bitsOf key 47 0 ≠ fieldAt p 32 6 || !inSeq x l h g then importFail s q p handleFail
      else if !kfmtOk k || decide (pt.frameUnits * 128 < imageBytes k + 128) then importFail s q p (fmtFail 15)
      else if e.state ≠ 0 && decide (bitsOf key 111 96 ≤ e.gen) then .next s
      else match xRead s ctx (a + 128) (imageBytes k) with
        | .error f => importAccess s q p f
        | .ok img =>
          let s1 := readDone (readDone s ctx a 128) ctx (a + 128) (imageBytes k)
          match releasePage s1 q i with
          | .done s2 => importPage s2 q p n pt slot i tr img
          | .wait s2 => .wait s2
          | .replay s2 => .wait s2
    | _, _ => importFail s q p handleFail

/-- Records from n on, until one waits or the packet ends. -/
def importLoop (q : Nat) (p : List Byte) : Nat → State → Nat → State
  | 0, s, _ => modRun s q (fun r => { r with work := .finished })
  | k + 1, s, n => match importRecord s q p n with
    | .next s1 => importLoop q p k s1 (n + 1)
    | .wait s1 => modRun s1 q (fun r => { r with work := .imp n })
    | .ended s1 => s1

/-! ## Serving waiting packets -/

/-- Whatever a KV_SEAL or KV_IMPORT of the queue can do now. -/
def serveKv (s : State) (q : Nat) : State :=
  if !queueGoes s q then s
  else match (getQ s q).run, curPacket s q with
    | some r, some p => (match r.work with
      | .sealing (i :: t) => serveSeal s q p (i :: t)
      | .imp n => if heldBack s (qCtx s q) (srcOf 3 q) (pkTag p) then s else importLoop q p (fieldAt p 24 4 - n) s n
      | _ => s)
    | _, _ => s

/-- The same for every queue. -/
def serveKvAll (s : State) : State := (s.host.queues.map (·.1)).foldl serveKv s

/-! ## KV_SEAL (R311 to R313) -/

/-- Its checks that need no sequence. -/
def sealForm (p : List Byte) : Option CheckFail :=
  let op := fieldAt p 22 1
  firstFail [headerCheck p,
    rsvCheck p ([rsvAll 23 1 15] ++ (if op = 3 then [rsvAll 24 2 32, rsvAll 28 2 32] else []) ++ [⟨32, 4, 0xFF000000, 32⟩] ++
      [if op = 3 then ⟨40, 4, 0xFF000000, 30⟩ else rsvAll 40 4 30] ++ (if op = 2 then [] else [rsvAll 44 2 32]) ++
      [rsvAll 46 2 15, sigRsv 48, sigRsv 52, rsvAll 56 8 15]),
    need (decide (op ≤ 4)) (fieldFail 15 op 4),
    need (op ≠ 3 || (decide (1 ≤ fieldAt p 26 2) && decide (fieldAt p 26 2 ≤ 4096))) (fieldFail 32 (fieldAt p 26 2) 4096),
    need (op ≠ 3 || (decide (1 ≤ fieldAt p 30 2) && decide (fieldAt p 30 2 ≤ 4096))) (fieldFail 32 (fieldAt p 30 2) 4096),
    need (op ≠ 3 || (decide (1 ≤ fieldAt p 36 4) && decide (fieldAt p 36 4 ≤ 2 ^ 24))) (fieldFail 32 (fieldAt p 36 4) (2 ^ 24)),
    sigCheck p 48, sigCheck p 52]

/-- A KV_SEAL of op 0, 1, 2 or 4 issues with the pages it selects. -/
def issueSeal (s : State) (q : Nat) (p : List Byte) : State :=
  match sealForm p with
  | some f => failIssue s q p f
  | none => match seqOn s (qCtx s q) (fieldAt p 16 6) with
    | none => failIssue s q p handleFail
    | some (slot, x) =>
      let v := if fieldAt p 22 1 = 4 then ⟨0, 4096, 0, 4096, 0, 2 ^ 24⟩ else selOf p
      match (if fieldAt p 22 1 = 4 then none else selCheck v x) with
      | some f => failIssue s q p f
      | none => serveSeal (startRun s q (newRun s (.sealing []))) q p (selPages s slot v)

/-- A KV_SEAL packet of queue q whose op satisfies a test. -/
def onSeal (s : State) (q : Nat) (t : Nat → Bool) (f : List Byte → State) : Ans :=
  onIssue s q (fun p => pkOp p = 0x2A && t (fieldAt p 22 1)) f

/-- SEAL (R313); an op that is not listed fails its check here. -/
def execSeal (q : QueueId) (s : State) : Ans := onSeal s q (fun o => o = 0 || decide (5 ≤ o)) (issueSeal s q)
/-- RELEASE (R313). -/
def execRelease (q : QueueId) (s : State) : Ans := onSeal s q (fun o => o = 1) (issueSeal s q)
/-- RENEW (R313). -/
def execRenew (q : QueueId) (s : State) : Ans := onSeal s q (fun o => o = 2) (issueSeal s q)
/-- CLOSE_SEQUENCE (R313). -/
def execCloseSequence (q : QueueId) (s : State) : Ans := onSeal s q (fun o => o = 4) (issueSeal s q)

/-- Two ranges overlap. -/
def overlap (a n b m : Nat) : Bool := decide (a < b + m) && decide (b < a + n)

/-- First sequence slot of a partition: the shares of the partitions of lower index come first (R312). -/
def slotBase (s : State) (p : Partition) : Nat := listSum (((parts s).filter (fun x => x.part < p.part)).map (·.seqShare))

/-- The lowest free slot of a partition's share. -/
def freeSlot (s : State) (p : Partition) : Option Nat :=
  (upFrom (slotBase s p) p.seqShare).find? (fun n => (tabFind s.kv.sequences n).isNone)

/-- The placement of a sequence (R312): its range in the pool of the partition and clear of every open sequence, its handle
new on the device. -/
def openPlace (s : State) (pt : Partition) (p : List Byte) : Bool :=
  let v := selOf p
  let base := bitsOf (fieldAt p 40 4) 23 0
  let n := v.ln * v.hn * v.xn
  decide (pt.poolFirst ≤ base) && decide (base + n ≤ pt.poolFirst + pt.poolCount) &&
    !s.kv.sequences.any (fun x => overlap base n x.2.base (x.2.layers * x.2.heads * x.2.pages)) &&
    (seqOf s (fieldAt p 16 6)).isNone

/-- OPEN_SEQUENCE (R312). -/
def execOpenSequence (q : QueueId) (s : State) : Ans :=
  onSeal s q (fun o => o = 3) (fun p =>
    let v := selOf p
    let base := bitsOf (fieldAt p 40 4) 23 0
    match sealForm p, partOfCtx s (qCtx s q) with
    | some f, _ => failIssue s q p f
    | none, none => failIssue s q p handleFail
    | none, some pt =>
      if !openPlace s pt p then failIssue s q p handleFail
      else match freeSlot s pt with
        | none => freezeCtx (exhausted s q (pkTag p) 5 3 0xFFFF 0 0xFFFF) (qCtx s q) 0x0501
        | some n =>
          let x : Sequence := { handle := BitVec.ofNat 48 (fieldAt p 16 6), ctx := qCtx s q, part := pt.part, layers := v.ln
                                heads := v.hn, pages := v.xn, base := base, opened := s.stage, swapping := [] }
          startRun { s with kv := { s.kv with sequences := tabSet s.kv.sequences n (some x) } } q (newRun s (.sealing [])))

/-- KV_IMPORT (R336, R337). -/
def execKvImport (q : QueueId) (s : State) : Ans :=
  onIssue s q (fun p => pkOp p = 0x29) (fun p =>
    issueChecked s q p (firstFail [headerCheck p,
      rsvCheck p [rsvAll 38 2 15, sigRsv 40, sigRsv 44, rsvAll 48 16 15],
      need (fieldAt p 16 8 % 128 = 0 && addrOk (fieldAt p 16 8)) (fieldFail 15 (fieldAt p 16 4) 0),
      need (decide (fieldAt p 24 4 ≤ 2 ^ 24)) (fieldFail 15 (fieldAt p 24 4) (2 ^ 24)),
      need (fieldAt p 28 4 % 128 = 0) (fieldFail 15 (fieldAt p 28 4) 0),
      sigCheck p 40, sigCheck p 44,
      need (seqOn s (qCtx s q) (fieldAt p 32 6)).isSome handleFail])
      (importLoop q p (fieldAt p 24 4) (startRun s q (newRun s (.imp 0))) 0))

end Sys2Proof.Machine
end

