-- ==== Sys2Proof/Machine/QueuePackets.lean ====
section
/-! DEFINITION. Packets that a queue carries out itself: fetching (R379, R383, R384), completion (R27, R143), SIGNAL, WAIT and
BARRIER (R243 to R249), RING_CONFIG (R224, R225), FENCE (R208), NOP (R382), and DROVER_LAUNCH (R171 to R173). -/

namespace Sys2Proof.Machine

/-! ## Fetching -/

/-- Slots that a queue reads for the packet at its consumed index, from the header's length (R379). -/
def fetchSlots (s : State) (q : Nat) (p : List Byte) : Nat :=
  let n := pkLen p
  if n = 0 ∨ 4 < n then 1 else min n (sqSize s q - (getQ s q).consumed.toNat)

/-- Slots between the consumed index and the tail. -/
def slotsReady (s : State) (q : Nat) : Nat :=
  let z := sqSize s q
  (regField s (hqOff q + 0x40) 15 0 + z - (getQ s q).consumed.toNat) % z

/-- A fetch is possible: the queue is enabled and the device runs. -/
def mayFetch (s : State) (q : Nat) : Bool :=
  devRuns s && qEnabled s q && decide ((getQ s q).journal.length < 1024)

/-- The write-back of R384. -/
def writeBackQ (s : State) (q : Nat) : State :=
  let u := getQ s q
  gWrite s (regAddr s (hqOff q + 0x10) 6) (leBytes 2 u.consumed.toNat ++ zeros 2 ++ leBytes 4 (u.accSeq.toNat % 2 ^ 32))

/-- The journal takes a packet. -/
def acceptPacket (s : State) (q : Nat) (p : List Byte) (next : Nat) : State :=
  let e : JEntry := { bytes := p, no := s.host.accepts, life := .accepted, shipped := false, seqs := []
                      ops := [], acks := [], coll := none }
  let s1 := modQ { s with host := { s.host with accepts := s.host.accepts + 1 } } q (fun u => { u with
    journal := u.journal ++ [e], accSeq := BitVec.ofNat 64 (pkSeq p), consumed := BitVec.ofNat 16 next })
  writeBackQ (addCtr s1 8 q 0 1) q

/-- PACKET_FETCH (R383): `slots` is what the ring holds at the consumed index. -/
def execPacketFetch (q : QueueId) (slots : List Byte) (s : State) : Ans :=
  .next (
    let n := fetchSlots s q slots
    if !mayFetch s q || decide (slots.length ≠ 64 * n) || decide (slotsReady s q < n) then s
    else
      let next := ((getQ s q).consumed.toNat + n) % sqSize s q
      if pkSeq slots ≤ (getQ s q).accSeq.toNat then
        modQ (addCtr s 8 q 2 1) q (fun u => { u with consumed := BitVec.ofNat 16 next, dups := if u.dups = 0xFFFFFFFF then u.dups else u.dups + 1 })
      else acceptPacket s q slots next)

/-! ## Completion -/

/-- The work of a packet has ended, but for its collective and its sealing. -/
def workEnded (w : Work) : Bool :=
  match w with
  | .blocks [] 0 => true
  | .attend [] [] 0 => true
  | .ringCfg [] => true
  | .tally true => true
  | .dump _ true => true
  | .snap _ true => true
  | .coll => true
  | .ship [] false => true
  | .sealing [] => true
  | .fence => true
  | .finished => true
  | _ => false

/-- Append pages that completion seals (R143): every one under `seal_last`, the full ones under `seal_full`. -/
def sealsOf (s : State) (p : List Byte) (r : Run) : List Nat :=
  let fl := (attnOf p).flags
  if pkOp p = 3 then r.seals.filter (fun i =>
    (getWay s i).state = 1 && (bitOf fl 1 || (bitOf fl 0 && (getWay s i).fill = 256)))
  else []

/-- PACKET_COMPLETE (R27): blocks, collective and sealing have ended; journal, signals, record. A KV packet first does what it
still can. -/
def execPacketComplete (q : QueueId) (s0 : State) : Ans :=
  .next (
    let s := serveKv s0 q
    match (getQ s q).run, curPacket s q with
    | some r, some p =>
      if !devRuns s || !workEnded r.work || !r.collDone || !acked s q then s
      else if r.status ≠ 0 then completePacket s q r.status.toNat
      else match sealAll s q (pkTag p) (sealsOf s p r) with
        | .done s1 => completePacket s1 q 0
        | .wait s1 => s1
        | .replay s1 => replayPacket s1 q
    | _, _ => s)

/-- NOP (R382). -/
def execNop (q : QueueId) (s : State) : Ans :=
  onIssue s q (fun p => pkOp p = 0x3F || (opLength (pkOp p)).isNone) (fun p =>
    issueChecked s q p (headerCheck p) (completeAtIssue s q))

/-- FENCE (R208): every earlier packet of the queue has completed, and its fabric writes are acknowledged, so it completes. -/
def execFence (q : QueueId) (s : State) : Ans :=
  onIssue s q (fun p => pkOp p = 0x3E) (fun p =>
    issueChecked s q p (firstFail [headerCheck p, rsvCheck p [⟨16, 1, 0xF8, 15⟩, rsvAll 17 47 15],
      need (decide (fieldAt p 16 1 ≤ 4)) (fieldFail 15 (fieldAt p 16 1) 4)]) (startRun s q (newRun s .fence)))

/-! ## SIGNAL, WAIT, BARRIER (R243 to R249) -/

/-- The operation of such a packet. -/
def packetOp (s : State) (q code : Nat) (p : List Byte) : TallyOp :=
  { code := code, ctx := qCtx s q, vid := fieldAt p 16 2, scope := bitsOf (fieldAt p 19 1) 2 0
    amount := BitVec.ofNat 32 (fieldAt p 20 4), issuer := .queue q, tag := BitVec.ofNat 32 (pkTag p), ord := 0, node := none
    dest := 0 }

/-- A remote SIGNAL (R249): it travels alone on the small path and completes when the destination acknowledges it. -/
def sendRemote (s : State) (q : Nat) (p : List Byte) : State :=
  let d := bitsOf (fieldAt p 24 2) 13 0
  let sg : RemoteSignal := ⟨BitVec.ofNat 16 (fieldAt p 16 2), ⟨fieldAt p 26 1 % 256, Nat.mod_lt _ (by decide)⟩,
    BitVec.ofNat 3 (fieldAt p 19 1), BitVec.ofNat 32 (fieldAt p 20 4)⟩
  let s1 := emit s (.rolre d 1 5 0 0 [] (some sg))
  { s1 with fab := { s1.fab with
    sent := s1.fab.sent ++ [⟨5, BitVec.ofNat 14 d, 0x3000, 0, 0, some (.queue q), false⟩]
    flowSent := tabMod 0 s1.fab.flowSent (d * 65536 + 0x3000) (· + 1) } }

/-- Issues a SIGNAL of operation `op`. -/
def issueSignal (s : State) (q op : Nat) (p : List Byte) : State :=
  let dest := fieldAt p 24 2
  issueChecked s q p (firstFail [headerCheck p,
    rsvCheck p [⟨19, 1, 0xF8, 15⟩, ⟨24, 2, if bitOf dest 15 then 0x4000 else 0x7FFF, 15⟩,
      ⟨26, 1, if bitOf dest 15 then 0 else 0xFF, 15⟩, rsvAll 27 37 15],
    need (decide (fieldAt p 18 1 ≤ 1)) (fieldFail 15 (fieldAt p 18 1) 1),
    need (decide (fieldAt p 20 4 ≠ 0)) (fieldFail 15 0 0),
    need (!bitOf dest 15 || op = 0) (fieldFail 15 op 0)])
    (let s1 := startRun s q (newRun s (.tally false))
     if bitOf dest 15 then sendRemote s1 q p else sendOp s1 (packetOp s q (op + 1) p))

/-- SIGNAL_ADD (R244); an operation that is not listed fails its check here. -/
def execSignalAdd (q : QueueId) (s : State) : Ans :=
  onIssue s q (fun p => pkOp p = 0x10 && fieldAt p 18 1 ≠ 1) (issueSignal s q 0)
/-- SIGNAL_SUB (R244). -/
def execSignalSub (q : QueueId) (s : State) : Ans :=
  onIssue s q (fun p => pkOp p = 0x10 && fieldAt p 18 1 = 1) (issueSignal s q 1)

/-- Issues a WAIT of operation `op`. -/
def issueWait (s : State) (q op : Nat) (p : List Byte) : State :=
  issueChecked s q p (firstFail [headerCheck p, rsvCheck p [⟨19, 1, 0xF8, 15⟩, rsvAll 24 40 15],
    need (decide (fieldAt p 18 1 ≤ 1)) (fieldFail 15 (fieldAt p 18 1) 1)])
    (sendOp (startRun s q (newRun s (.tally false))) (packetOp s q (op + 3) p))

/-- WAIT_AT_LEAST (R245); an operation that is not listed fails its check here. -/
def execWaitAtLeast (q : QueueId) (s : State) : Ans :=
  onIssue s q (fun p => pkOp p = 0x11 && fieldAt p 18 1 ≠ 1) (issueWait s q 0)
/-- WAIT_TAKE (R245). -/
def execWaitTake (q : QueueId) (s : State) : Ans :=
  onIssue s q (fun p => pkOp p = 0x11 && fieldAt p 18 1 = 1) (issueWait s q 1)

/-- BARRIER (R246). -/
def execBarrier (q : QueueId) (s : State) : Ans :=
  onIssue s q (fun p => pkOp p = 0x12) (fun p =>
    issueChecked s q p (firstFail [headerCheck p, rsvCheck p [rsvAll 18 1 15, ⟨19, 1, 0xF8, 15⟩, rsvAll 24 40 15]])
      (sendOp (startRun s q (newRun s (.tally false))) (packetOp s q 5 p)))

/-! ## RING_CONFIG (R224, R225) -/

/-- Engines of a mask in a cluster range. -/
def maskEngines (place mask : Nat) : List Nat :=
  ((placeClusters place).map (fun c => ((upFrom 0 16).filter (bitOf mask)).map (fun e => 16 * c + e))).flatten

/-- Checks of R225. -/
def ringCfgCheck (s : State) (q : Nat) (p : List Byte) : Option CheckFail :=
  let mem := fieldAt p 23 1
  let base := fieldAt p 24 4
  let sb := fieldAt p 28 4
  let slots := fieldAt p 32 1
  let sw := bitOf (fieldAt p 33 1) 0
  let room := if mem = 1 then 0x80000 else 0x800000
  let its := fun (req avail : Nat) => fieldFail 25 req avail
  firstFail [
    headerCheck p,
    rsvCheck p [⟨16, 4, 0x3FFFF, 33⟩, ⟨22, 1, 0xF0, 25⟩, ⟨33, 1, 0xFE, 25⟩, ⟨38, 1, 0xF8, 25⟩, rsvAll 39 1 15, sigRsv 40, sigRsv 44,
      rsvAll 48 16 15],
    placeCountCheck (fieldAt p 16 4),
    need (fieldAt p 20 2 ≠ 0) (fieldFail 33 0 0),
    need (decide (mem ≤ 2)) (its mem 2),
    (if mem = 0 then need (base = 0 && sb = 0 && slots = 0 && fieldAt p 33 1 = 0 && fieldAt p 34 4 = 0 && fieldAt p 38 1 = 0) (its 0 0)
     else firstFail [
      need (base % 128 = 0) (its base 0),
      need (sb ≠ 0 && sb % 128 = 0) (its sb 0),
      need (decide (3 ≤ slots) && decide (slots ≤ 16)) (its slots 16),
      need (sw || fieldAt p 34 4 = 0) (its 0 0),
      need (decide (base + slots * sb ≤ room)) (its (base + slots * sb) room),
      need (mem ≠ 2 || decide (((upFrom 0 16).filter (bitOf (fieldAt p 20 2))).length ≤ 1)) (fieldFail 33 (fieldAt p 20 2) 0),
      need (!sw || decide (fieldAt p 38 1 ≤ 1)) (its (fieldAt p 38 1) 1)]),
    sigCheck p 40, sigCheck p 44,
    placeCheck s (qCtx s q) (fieldAt p 16 4)]

/-- The operation under which a RING_CONFIG names a tally (R252, R254): 12 for `fill_tally`, 13 for `free_tally`. -/
def ringTallyOp (s : State) (q : Nat) (p : List Byte) (fill : Bool) : TallyOp :=
  { packetOp s q (if fill then 12 else 13) p with
    vid := fieldAt p (if fill then 34 else 36) 2, scope := fieldAt p 38 1, amount := 0 }

/-- RING_CONFIG (R225): its checks, the scopes of the tallies it binds (R252), then it waits for the ring. -/
def execRingConfig (q : QueueId) (s : State) : Ans :=
  onIssue s q (fun p => pkOp p = 0x09) (fun p =>
    let f := ringTallyOp s q p true
    let g := ringTallyOp s q p false
    let bad := fun (o : TallyOp) => match getTally s o.ctx o.vid with | none => true | some t => decide (t.scope.toNat ≠ o.scope)
    let charge := fun (o : TallyOp) => match getTally s o.ctx o.vid with | none => unmapped s o | some t => tallyFault s o t .scope
    match ringCfgCheck s q p with
    | some c => failIssue s q p c
    | none =>
      if bitOf (fieldAt p 33 1) 0 && bad f then charge f
      else if bitOf (fieldAt p 33 1) 0 && bad g then charge g
      else startRun s q (newRun s (.ringCfg (maskEngines (fieldAt p 16 4) (fieldAt p 20 2)))))

/-- The rings a packet names (R230), RING_CONFIG apart: two of them never wait for each other. -/
def ringsNamed (p : List Byte) : List Nat :=
  match pkOp p with
  | 1 => let w := (planOf p).walk; wkStream w :: (if wkOrder w = 1 then [wkAnchorRing w] else [])
  | 2 => let w := (planOf p).walk; wkStream w :: (if wkOrder w = 1 then [wkAnchorRing w] else [])
  | 3 => [(attnOf p).ring]
  | 5 => [wkStream (convOf p).walk]
  | _ => []

/-- The engine and ring that a TRANSFER fills. -/
def xferRing (p : List Byte) (launch : Option Nat) : Option (Nat × Nat) :=
  let x := xferOf p launch
  if pkOp p = 8 && x.toRing then some (16 * x.cluster + x.engine, x.ring) else none

/-- A packet that has issued names ring n of engine e. -/
def namesRing (p : List Byte) (launch : Option Nat) (e n : Nat) : Bool :=
  decide (xferRing p launch = some (e, n)) ||
  ((ringsNamed p).contains n && (match launch with
    | some l => decide (l = e)
    | none => (placeClusters (fieldAt p (placeOff (pkOp p)) 4)).contains (cluOf e)))

/-- Ring n of engine e is idle (R225). -/
def ringIdle (s : State) (e n : Nat) : Bool :=
  (getRing s e n).states.all (· = 0) &&
  s.host.queues.all (fun x => match curPacket s x.1 with | some p => !namesRing p none e n | none => true) &&
  (getEng s e).slots.all (fun x => decide (x.state = 0) || decide (x.state = 3) || !namesRing x.image (some e) e n) &&
  s.comp.engines.all (fun g => g.2.slots.all (fun x => decide (x.state = 0) || decide (x.state = 3) ||
    decide (xferRing x.image (some g.1) ≠ some (e, n)))) &&
  s.comp.chans.all (fun c => decide (xferRing c.2.bytes (ownerLaunch c.2.owner) ≠ some (e, n)))

/-- The configuration that a packet gives a ring. -/
def ringOf (s : State) (q : Nat) (p : List Byte) : Ring :=
  if fieldAt p 23 1 = 0 then {}
  else
    let sw := bitOf (fieldAt p 33 1) 0
    { mem := BitVec.ofNat 2 (fieldAt p 23 1), base := fieldAt p 24 4, slotBytes := fieldAt p 28 4, slots := fieldAt p 32 1, sw := sw
      scope := BitVec.ofNat 3 (fieldAt p 38 1), fillTally := BitVec.ofNat 16 (fieldAt p 34 2)
      freeTally := BitVec.ofNat 16 (fieldAt p 36 2), ctx := if sw then qCtx s q else 0, states := List.replicate (fieldAt p 32 1) 0 }

/-- Sets a tally's value to zero. -/
def zeroTally (s : State) (ctx vid : Nat) : State :=
  match getTally s ctx vid with | none => s | some t => setTally s ctx vid (some { t with value := 0 })

/-- RING_CONFIG_APPLY (R225): the ring of one selected engine is idle and takes its new configuration. -/
def execRingConfigApply (q : QueueId) (e : EngineId) (s : State) : Ans :=
  .next (
    match (getQ s q).run, curPacket s q with
    | some r, some p => (match r.work with
      | .ringCfg left =>
        let n := bitsOf (fieldAt p 22 1) 3 0
        if devRuns s && left.contains e.val && ringIdle s e n then
          let g := ringOf s q p
          let s1 := modRun (modRing s e n (fun _ => g)) q (fun r => { r with work := .ringCfg (left.filter (· ≠ e.val)) })
          if g.sw then zeroTally (zeroTally s1 g.ctx g.fillTally.toNat) g.ctx g.freeTally.toNat else s1
        else s
      | _ => s)
    | _, _ => s)

/-! ## DROVER_LAUNCH (R171 to R174) -/

/-- The groups of a launch, ascending. -/
def launchList (p : List Byte) : List Nat :=
  ((maskEngines (fieldAt p 40 4) (fieldAt p 44 2)).map (fun e =>
    ((upFrom 0 4).filter (bitOf (fieldAt p 46 1))).map (fun g => 4 * e + g))).flatten

/-- Checks of R172. -/
def launchCheck (s : State) (q : Nat) (p : List Byte) : Option CheckFail :=
  let cb := fieldAt p 32 4
  let ab := fieldAt p 36 2
  let its := fun (req avail : Nat) => fieldFail 15 req avail
  firstFail [
    headerCheck p,
    rsvCheck p [⟨40, 4, 0x3FFFF, 33⟩, ⟨46, 1, 0xF0, 33⟩, rsvAll 47 1 15, sigRsv 48, sigRsv 52, rsvAll 56 8 15],
    need (addrOk (fieldAt p 16 8) && fieldAt p 16 8 % 128 = 0) (its 0 0),
    need (addrOk (fieldAt p 24 8) && (ab ≠ 0 || fieldAt p 24 8 = 0)) (its 0 0),
    need (decide (4 ≤ cb) && decide (cb ≤ 32768) && cb % 4 = 0) (its cb 32768),
    need (decide (ab ≤ 1024) && ab % 4 = 0) (its ab 1024),
    need (decide (fieldAt p 38 2 < cb / 4)) (its (fieldAt p 38 2) (cb / 4)),
    placeCountCheck (fieldAt p 40 4),
    need (fieldAt p 44 2 ≠ 0) (fieldFail 33 0 0),
    need (fieldAt p 46 1 ≠ 0) (fieldFail 33 0 0),
    sigCheck p 48, sigCheck p 52,
    placeCheck s (qCtx s q) (fieldAt p 40 4)]

/-- DROVER_LAUNCH (R172). -/
def execDroverLaunch (q : QueueId) (s : State) : Ans :=
  onIssue s q (fun p => pkOp p = 0x20) (fun p =>
    issueChecked s q p (launchCheck s q p) (startRun s q (newRun s (.launch false false))))

/-- The acceptance number of the packet in execution. -/
def acceptNo (s : State) (q : Nat) : Nat :=
  match (getQ s q).journal.find? (fun e => e.life = .issued) with | some e => e.no | none => 0

/-- The launch of a queue still waits for its groups. -/
def launchWaits (u : Queue) : Bool :=
  match u.run with | some r => (match r.work with | .launch false _ => true | _ => false) | none => false

/-- A launch accepted earlier waits for one of these groups (R172). -/
def behindLaunch (s : State) (q : Nat) (gs : List Nat) : Bool :=
  s.host.queues.any (fun x => decide (x.1 ≠ q) && launchWaits x.2 && decide (acceptNo s x.1 < acceptNo s q) &&
    (match curPacket s x.1 with | some p => (launchList p).any gs.contains | none => false))

/-- A drover at its start (R150). -/
def drvStart (ordinal count argBytes entry : Nat) : Drover :=
  { x := tabPut 0 (tabPut 0 (tabPut 0 [] 3 (BitVec.ofNat 32 argBytes)) 2 (BitVec.ofNat 32 count)) 1 (BitVec.ofNat 32 ordinal)
    pc := BitVec.ofNat 32 (4 * entry), st := .running, ordinal := BitVec.ofNat 32 ordinal }

/-- Loads one group: its code, its record and its drovers. -/
def startGroup (s : State) (q : Nat) (p code args : List Byte) (count : Nat) (g : Nat × Nat) : State :=
  let s1 := modGrp s g.1 (fun _ => { queue := some q, ctx := qCtx s q, tag := BitVec.ofNat 32 (pkTag p), codeBytes := fieldAt p 32 4
                                     argBytes := fieldAt p 36 2, count := count })
  let s2 := { s1 with comp := { s1.comp with istore := putCells s1.comp.istore (istoreKey g.1 0) (bytesAt code 0 0x8000) } }
  (upFrom 0 16).foldl (fun t i =>
    let d := 16 * g.1 + i
    let t1 := modDrv t d (fun _ => drvStart (16 * g.2 + i) count (fieldAt p 36 2) (fieldAt p 38 2))
    { t1 with comp := { t1.comp with lstore := putCells t1.comp.lstore (lstoreKey d 0) (bytesAt args 0 0x800) } }) s2

/-- DROVER_LAUNCH_START (R172): all groups are free and no launch accepted earlier waits for one of them. -/
def execDroverLaunchStart (q : QueueId) (s : State) : Ans :=
  .next (
    match curPacket s q with
    | none => s
    | some p =>
      let gs := launchList p
      if !devRuns s || !launchWaits (getQ s q) || isFrozen s 1 (qCtx s q) ||
          gs.any (fun g => (getGrp s g).queue.isSome) || behindLaunch s q gs then s
      else match xRead s (qCtx s q) (fieldAt p 16 8) (fieldAt p 32 4), xRead s (qCtx s q) (fieldAt p 24 8) (fieldAt p 36 2) with
        | .error (.bad b), _ => (let r := uncorrectable s (qCtx s q) (srcOf 3 q) (pkTag p) (some (.queue q)) b
            if r.1 then r.2 else replayPacket r.2 q)
        | .error f, _ => waitFault s (qCtx s q) (srcOf 3 q) (pkTag p) f
        | .ok _, .error (.bad b) => (let r := uncorrectable s (qCtx s q) (srcOf 3 q) (pkTag p) (some (.queue q)) b
            if r.1 then r.2 else replayPacket r.2 q)
        | .ok _, .error f => waitFault s (qCtx s q) (srcOf 3 q) (pkTag p) f
        | .ok code, .ok args =>
          let s1 := (gs.zip (upFrom 0 gs.length)).foldl (fun t g => startGroup t q p code args (16 * gs.length) g) s
          modRun s1 q (fun r => { r with work := .launch true false }))

/-- The launch of a queue has nothing left to do (R173): no group frozen, every drover halted, no launched macro queued or
running. Stores are performed as they execute. -/
def launchOver (s : State) (q : Nat) : Bool :=
  (s.comp.groups.filter (fun x => x.2.queue = some q)).all (fun x =>
    !isFrozen s 2 x.1 && (upFrom (16 * x.1) 16).all (fun d => (getDrv s d).st = .halted) &&
    (getEng s (x.1 / 4)).slots.all (fun l => !(decide (grpOf l.drover = x.1) && (l.state = 1 || l.state = 2))))

/-- DROVER_LAUNCH_COMPLETE (R173). -/
def execDroverLaunchComplete (q : QueueId) (s : State) : Ans :=
  .next (
    match (getQ s q).run with
    | some r => (match r.work with
      | .launch true _ =>
        if devRuns s && launchOver s q && acked s q then
          let cut := s.comp.groups.any (fun x => x.2.queue = some q.val && x.2.discarded)
          let s1 := { s with comp := { s.comp with
            drovers := tabMap {} (fun d v => if (getGrp s (grpOf d)).queue = some q.val then { v with st := .idle } else v) s.comp.drovers
            groups := tabMap {} (fun _ g => if g.queue = some q.val then ({} : Group) else g) s.comp.groups } }
          completePacket s1 q (if cut then 0x0020 else r.status.toNat)
        else s
      | _ => s)
    | none => s)

end Sys2Proof.Machine
end

