-- ==== Sys2Proof/Machine/Scheduled.lean ====
section
/-! DEFINITION. What is scheduled in stages: SYNC_DUMP and the automatic dump (R261 to R264), SNAPSHOT and its latch (R366 to
R369), FREEZE_AT and the device freeze (R476, R477), HINT (R409). -/

namespace Sys2Proof.Machine

/-! ## Late events (R361, R371) -/

/-- A step of the counter passed over a stage (R364). -/
def passedOver (s : State) (n : Stage) : Bool :=
  s.fab.epoch.skips.any (fun k => decide (k.1.toNat < n.toNat) && decide (n.toNat < k.2.toNat))

/-- LATE_SCHEDULE: what it is, the tag, and the stage N. -/
def lateEvent (s : State) (what tag : Nat) (n : Stage) : State :=
  raiseEvent s 0x0803 0 0xFF (srcOf 0 0) (leBytes 1 what ++ leBytes 1 (b2n (passedOver s n)) ++ zeros 2 ++ leBytes 4 tag ++
    leBytes 4 (min 0xFFFFFFFF (s.stage.toNat - n.toNat)) ++ leBytes 4 (n.toNat % 2 ^ 32))

/-- The stage a packet names: absolute, or an offset from the present one. -/
def stageOf (s : State) (x : Nat) (relative : Bool) : Nat := if relative then s.stage.toNat + x else x
/-- Stages that can be scheduled (R361). -/
def stageOk (s : State) (n : Nat) : Bool := decide (n ≤ s.stage.toNat + 2 ^ 32) && decide (n < 2 ^ 64)

/-- A queue of a physical function that owns every partition (R261). -/
def deviceQueue (s : State) (q : Nat) : Bool := decide (qAttach s q ≤ 1) && qFn s q % 32 = 0 && ownsAll s (qFn s q)
/-- The permission of `extent` 1 and of FREEZE_AT. -/
def needDevice (s : State) (q : Nat) (asked : Bool) : Option CheckFail :=
  need (!asked || deviceQueue s q) (placeFail 35 0xFFFFFFFF)

/-! ## Dumps of tallies (R262, R263) -/

/-- The order of waiter descriptions: lowest threshold, then the longest waiting. -/
def insWaiter (w : Waiter) : List Waiter → List Waiter
  | [] => [w]
  | x :: t => if w.phase.toNat < x.phase.toNat ∨ (w.phase = x.phase ∧ w.since.toNat ≤ x.since.toNat) then w :: x :: t
    else x :: insWaiter w t

/-- One waiter description. -/
def waiterBytes (w : Waiter) : List Byte :=
  leBytes 4 (issuerSrc w.op.issuer) ++ leBytes 4 w.phase.toNat ++ leBytes 1 (opCode w.op) ++ leBytes 1 w.op.scope ++ zeros 2 ++
  leBytes 4 (w.since.toNat % 2 ^ 32)

/-- One entry of a dump. -/
def dumpEntry (s : State) (k : Nat) (t : Tally) : List Byte :=
  let ws := waitersOf s (k / 65536) (k % 65536)
  let l := (ws.foldr insWaiter []).take 5
  bytesAt (tallyRecord (k / 65536) (k % 65536) t ++ leBytes 2 (min 0xFFFF ws.length) ++ leBytes 1 l.length ++ zeros 13 ++
    (l.map waiterBytes).flatten) 0 128

/-- The dump of one context, or of every context, within a space of bytes. -/
def dumpBytes (s : State) (ctx : Option Nat) (space : Nat) (auto : Bool) : List Byte :=
  let all := s.sync.tallies.filter (fun x => match ctx with | some c => decide (x.1 / 65536 = c) | none => true)
  let fit := all.take ((space - 128) / 128)
  bytesAt (leBytes 8 s.stage.toNat ++ leBytes 4 fit.length ++ leBytes 4 all.length ++
    leBytes 1 (b2n (decide (fit.length < all.length)) + 2 * b2n auto) ++ leBytes 1 (ctx.getD 0xFF)) 0 128 ++
  (fit.map (fun x => dumpEntry s x.1 x.2)).flatten

/-- Checks of a SYNC_DUMP. -/
def dumpCheck (s : State) (q : Nat) (p : List Byte) : Option CheckFail :=
  let a := fieldAt p 16 8
  let n := fieldAt p 24 4
  firstFail [headerCheck p, rsvCheck p [rsvAll 29 3 15, sigRsv 32, sigRsv 36, rsvAll 40 24 15],
    need (addrOk a && a % 128 = 0) (fieldFail 15 0 0),
    need (decide (128 ≤ n) && n % 128 = 0) (fieldFail 15 n 128),
    need (decide (fieldAt p 28 1 ≤ 1)) (fieldFail 35 (fieldAt p 28 1) 1),
    sigCheck p 32, sigCheck p 36,
    needDevice s q (fieldAt p 28 1 = 1)]

/-- SYNC_DUMP (R261): the cut lies at the next stage boundary, at which the dump is taken and written. -/
def execSyncDump (q : QueueId) (s : State) : Ans :=
  onIssue s q (fun p => pkOp p = 0x13) (fun p =>
    issueChecked s q p (dumpCheck s q p) (startRun s q (newRun s (.dump (s.stage + 1) false))))

/-- A dump whose cut lies after stage `lo` and not after the present one is written (R262). -/
def takeDump (s : State) (lo q : Nat) : State :=
  match (getQ s q).run, curPacket s q with
  | some r, some p => (match r.work with
    | .dump n false =>
      if n.toNat ≤ lo ∨ s.stage.toNat < n.toNat then s
      else match xWrite s (qCtx s q) (fieldAt p 16 8)
          (dumpBytes s (if fieldAt p 28 1 = 1 then none else some (qCtx s q)) (fieldAt p 24 4) false) with
        | .error f => waitFault s (qCtx s q) (srcOf 3 q) (pkTag p) f
        | .ok s1 => modRun (tagSent s s1 (.queue q)) q (fun r => { r with work := .dump n true })
    | _ => s)
  | _, _ => s

/-! ## Snapshots (R366 to R369) -/

/-- Instances of a group of counters that a partition holds; none stands for the whole device. Each instance has `n`
counters. -/
def groupKeys (g n : Nat) (insts : List Nat) : List Nat :=
  (insts.map (fun i => (upFrom 0 n).map (ctrKey g i))).flatten

/-- Present clusters. -/
def presentClusters (s : State) : List Nat := (upFrom 0 80).filter (cluPresent s)

/-- The counters of an extent in catalogue order (R483). -/
def catalogue (s : State) (part : Option Partition) : List Nat :=
  let sel := fun (all : List Nat) (f : Partition → Nat → Bool) => match part with | none => all | some p => all.filter (f p)
  let clus := sel (presentClusters s) (fun p c => p.clusters.contains c)
  let dev := fun (l : List Nat) => match part with | none => l | some _ => []
  let qs := sel (upFrom 0 256) (fun p q => p.contexts.contains (qCtx s q))
  groupKeys 1 4 (dev [0]) ++
  groupKeys 2 12 ((clus.map (fun c => upFrom (16 * c) 16)).flatten) ++
  groupKeys 3 4 ((clus.map (fun c => upFrom (17 * c) 17)).flatten) ++
  groupKeys 4 6 clus ++
  groupKeys 5 5 (((sel (upFrom 0 12) (fun p k => p.stackIds.contains k)).map (fun k => upFrom (64 * k) 64)).flatten) ++
  groupKeys 6 6 (sel (upFrom 0 16) (fun p x => p.ports.contains x)) ++
  groupKeys 7 4 (dev [0, 1]) ++
  groupKeys 8 5 qs ++
  groupKeys 9 5 (sel (upFrom 0 32) (fun p c => p.channels.contains c)) ++
  groupKeys 10 2 (dev (upFrom 0 9)) ++
  groupKeys 11 4 (sel (upFrom 0 1024) (fun p st => decide (p.streamFirst ≤ st) && decide (st < p.streamFirst + p.streamCount))) ++
  groupKeys 12 1 (sel (upFrom 0 8) (fun p i => p.part = i)) ++
  groupKeys 13 1 qs ++
  groupKeys 14 1 (dev (upFrom 1 7))

/-- Counters of cycles, and of bytes whose requests the spec does not lay out: cycles and stalls of an engine, traffic of a
pseudo-channel, bytes a Rolre port sends, bytes of a PCIe port (log 8). -/
def openCtr (k : Nat) : Bool :=
  let c := k % 16
  match k / (65536 * 16) with
  | 2 => [0, 4, 5, 6, 7, 10].contains c
  | 4 => c = 1
  | 5 | 7 => decide (c < 2)
  | 6 => c = 0
  | _ => false

/-- A live counter; energies and throttle stages are kept by the power controller. -/
def liveCtr (s : State) (k : Nat) : Nat :=
  let i := k / 16 % 65536
  if openCtr k then Config.openCounter k s.stage.toNat % 2 ^ 64
  else match k / (65536 * 16) with
  | 12 => tabGet 0 s.power.partEnergy i
  | 13 => (getQ s i).energy
  | 14 => match s.power.reasons[i - 1]? with | some r => r.stages.toNat | none => 0
  | _ => tabGet 0 s.fab.counters k

/-- A shadow (R366): the value of the counter at the last latch. -/
def shadowCtr (s : State) (k : Nat) : Nat :=
  match s.fab.lastLatch with
  | none => 0
  | some n => if openCtr k then Config.openCounter k n.toNat % 2 ^ 64 else tabGet 0 s.fab.shadows k

/-- Copies every counter into its shadow (R366). -/
def latchAll (s : State) : State :=
  let extra := groupKeys 12 1 (upFrom 0 8) ++ groupKeys 13 1 (upFrom 0 256) ++ groupKeys 14 1 (upFrom 1 7)
  { s with fab := { s.fab with
    shadows := extra.foldl (fun t k => tabPut 0 t k (liveCtr s k)) s.fab.counters
    lastLatch := some s.stage } }

/-- The image of a snapshot (R369). -/
def snapBytes (s : State) (q : Nat) (p : List Byte) (n : Stage) (late : Bool) : List Byte :=
  let ext := fieldAt p 36 1
  let part := partOfCtx s (qCtx s q)
  let keys := if ext = 1 then catalogue s none else match part with | some x => catalogue s (some x) | none => []
  let fit := keys.take ((fieldAt p 32 4 - 64) / 8)
  bytesAt (leBytes 8 n.toNat ++ leBytes 8 s.stage.toNat ++ leBytes 4 fit.length ++ leBytes 4 keys.length ++
    leBytes 1 (b2n (decide (fit.length < keys.length)) + 2 * b2n late + 4 * s.fab.epoch.state.toNat) ++ leBytes 1 ext ++
    leBytes 1 (partIdx part)) 0 64 ++
  (fit.map (fun k => leBytes 8 (shadowCtr s k))).flatten

/-- After the latch: LATE_SCHEDULE for a late snapshot, then its image. -/
def snapWrite (s : State) (late : Bool) (x : Snap) : State :=
  match curPacket s x.queue with
  | none => s
  | some p =>
    let s1 := if late then lateEvent s 1 (pkTag p) x.at_ else s
    let done := fun (t : State) => modRun t x.queue (fun r => { r with work := .snap x.at_ true })
    if fieldAt p 24 8 = 0 then done s1
    else match xWrite s1 (qCtx s x.queue) (fieldAt p 24 8) (snapBytes s1 x.queue p x.at_ late) with
      | .error f => waitFault s1 (qCtx s x.queue) (srcOf 3 x.queue) (pkTag p) f
      | .ok s2 => done (tagSent s1 s2 (.queue x.queue))

/-- The earliest stage at which the next latch may fall (R367). -/
def latchFrom (s : State) : Nat := match s.fab.lastLatch with | some n => n.toNat + 64 | none => 0

/-- Checks of a SNAPSHOT. -/
def snapCheck (s : State) (q : Nat) (p : List Byte) : Option CheckFail :=
  let rel := bitOf (fieldAt p 37 1) 0
  let st := fieldAt p 16 8
  let a := fieldAt p 24 8
  let n := fieldAt p 32 4
  firstFail [headerCheck p, rsvCheck p [⟨37, 1, 0xFE, 15⟩, rsvAll 38 2 15, sigRsv 40, sigRsv 44, rsvAll 48 16 15],
    need (!rel || decide (st < 2 ^ 32)) (fieldFail 15 0 0),
    need (stageOk s (stageOf s st rel)) (fieldFail 15 0 0),
    need (addrOk a && a % 128 = 0) (fieldFail 15 0 0),
    need (n % 128 = 0 && (if a = 0 then n = 0 else n ≠ 0)) (fieldFail 15 n 0),
    need (decide (fieldAt p 36 1 ≤ 1)) (fieldFail 35 (fieldAt p 36 1) 1),
    sigCheck p 40, sigCheck p 44,
    needDevice s q (fieldAt p 36 1 = 1)]

/-- SNAPSHOT (R368): scheduled, or late and latched at once; a seventeenth pending one waits (R367). -/
def execSnapshot (q : QueueId) (s : State) : Ans :=
  onIssue s q (fun p => pkOp p = 0x38) (fun p =>
    match snapCheck s q p with
    | some f => failIssue s q p f
    | none =>
      let n := BitVec.ofNat 64 (stageOf s (fieldAt p 16 8) (bitOf (fieldAt p 37 1) 0))
      let x : Snap := ⟨n, q⟩
      let s1 := startRun s q (newRun s (.snap n false))
      if n.toNat ≤ s.stage.toNat && decide (latchFrom s ≤ s.stage.toNat) && s.fab.snaps.isEmpty then snapWrite (latchAll s1) true x
      else if 16 ≤ s.fab.snaps.length then s
      else { s1 with fab := { s1.fab with snaps := s1.fab.snaps ++ [x] } })

/-- The stage of the pending snapshot that is due first. -/
def nextSnap (s : State) : Option Snap := bestOf (fun a b => decide (a.at_.toNat < b.at_.toNat)) s.fab.snaps

/-- SNAPSHOT_LATCH (R366): the snapshots scheduled at the earliest pending stage share one latch, at their stage or as late
ones. -/
def execSnapshotLatch (s : State) : Ans :=
  .next (
    match nextSnap s with
    | none => s
    | some x =>
      if x.at_.toNat ≤ s.stage.toNat && decide (latchFrom s ≤ s.stage.toNat) && s.dev.powered && !devFrozen s then
        let due := s.fab.snaps.filter (fun y => y.at_ = x.at_)
        let s1 := latchAll { s with fab := { s.fab with snaps := s.fab.snaps.filter (fun y => y.at_ ≠ x.at_) } }
        due.foldl (fun t y => snapWrite t (decide (y.at_.toNat < s.stage.toNat)) y) s1
      else s)

/-! ## The device freeze (R476 to R478) -/

/-- The device freezes; the first cause is kept, and HALT_ALL_N is driven while `halt_out_en` is set. -/
def freezeDevice (s : State) (cause : Nat) : State :=
  if devFrozen s then s
  else
    let s1 := modDev s (fun d => { d with fstate := 2, fcause := BitVec.ofNat 3 cause, fstage := s.stage })
    if regField s 0xB0000C 30 30 = 1 then emit (modDev s1 (fun d => { d with haltDriven := true })) (.haltAllN true) else s1

/-- Checks of a FREEZE_AT (R477). -/
def freezeCheck (s : State) (q : Nat) (p : List Byte) : Option CheckFail :=
  firstFail [headerCheck p,
    rsvCheck p [⟨24, 1, 0xFE, 15⟩, rsvAll 25 7 15, sigRsv 32, sigRsv 36, rsvAll 40 24 15],
    need (stageOk s (stageOf s (fieldAt p 16 8) (bitOf (fieldAt p 24 1) 0))) (fieldFail 15 0 0),
    sigCheck p 32, sigCheck p 36,
    needDevice s q true]

/-- Arms a stage; the earliest armed stage stands. -/
def armFreeze (s : State) (n : Stage) (tag : Nat) : State :=
  if s.dev.fstate = 1 && decide (s.dev.fstage.toNat ≤ n.toNat) then s
  else modDev s (fun d => { d with fstate := 1, fstage := n, ftag := BitVec.ofNat 32 tag })

/-- FREEZE_AT (R477): arms and completes; a stage that has passed freezes at once, after the record and LATE_SCHEDULE. -/
def execFreezeAt (q : QueueId) (s : State) : Ans :=
  onIssue s q (fun p => pkOp p = 0x39) (fun p =>
    issueChecked s q p (freezeCheck s q p)
      (let n := BitVec.ofNat 64 (stageOf s (fieldAt p 16 8) (bitOf (fieldAt p 24 1) 0))
       let s1 := completeAtIssue (armFreeze s n (pkTag p)) q
       if n.toNat ≤ s.stage.toNat then freezeDevice (lateEvent s1 2 (pkTag p) n) 2 else s1))

/-- DEVICE_FREEZE (R476): the armed stage has been reached. -/
def execDeviceFreeze (s : State) : Ans :=
  .next (
    if s.dev.powered && s.dev.fstate = 1 && decide (s.dev.fstage.toNat ≤ s.stage.toNat) then
      freezeDevice (if passedOver s s.dev.fstage then lateEvent s 2 s.dev.ftag.toNat s.dev.fstage else s) 2
    else s)

/-- HALT_ALL (R476, R496): the line is low while `halt_in_en` is set and the module acts on it. -/
def execHaltAll (s : State) : Ans :=
  .next (if s.dev.powered && s.dev.ready && !s.dev.haltIgnored && regField s 0xB0000C 29 29 = 1 then freezeDevice s 1 else s)

/-- HALT_ALL_N_HIGH (R496): a module that was reset has seen the line high for 1 µs. -/
def execHaltAllNHigh (s : State) : Ans :=
  .next (if s.dev.powered then modDev s (fun d => { d with haltIgnored := false }) else s)

/-! ## HINT (R409) -/

/-- Ends a hinted phase of a context. -/
def endPhase (s : State) (ctx : Nat) (id : Byte) : State :=
  modPower s (fun w => { w with phases := w.phases.filter (fun x => !(decide (x.ctx = ctx) && x.id = id)) })

/-- HINT (R409): the controller learns of a phase; the packet completes at issue. -/
def execHint (q : QueueId) (s : State) : Ans :=
  onIssue s q (fun p => pkOp p = 0x30) (fun p =>
    let fl := fieldAt p 18 1
    let id := BitVec.ofNat 8 (fieldAt p 16 1)
    issueChecked s q p (firstFail [headerCheck p, rsvCheck p [⟨18, 1, 0xFC, 15⟩, rsvAll 19 1 15, rsvAll 32 32 15],
      need (decide (fieldAt p 17 1 ≤ 6)) (fieldFail 15 (fieldAt p 17 1) 6),
      need (bitOf fl 1 || fieldAt p 24 8 = 0) (fieldFail 15 0 0)])
    (let s1 := completeAtIssue s q
     let s2 := endPhase s1 (qCtx s q) id
     if bitOf fl 0 then s2
     else modPower s2 (fun w => { w with phases := w.phases ++
       [{ ctx := qCtx s q, id := id, cls := BitVec.ofNat 8 (fieldAt p 17 1)
          start := if bitOf fl 1 then BitVec.ofNat 64 (max s.stage.toNat (fieldAt p 24 8)) else s.stage
          awaits := if bitOf fl 1 then none else some q.val, duration := BitVec.ofNat 32 (fieldAt p 20 4) }] })))

/-- HINT_PHASE_END (R409): a phase that has begun ends by its time limit. -/
def execHintPhaseEnd (ctx : CtxId) (phase : Byte) (s : State) : Ans :=
  .next (
    match s.power.phases.find? (fun x => decide (x.ctx = ctx.val) && x.id = phase) with
    | none => s
    | some x =>
      let lim := if x.duration = 0 then 2 ^ 20 else 2 * x.duration.toNat
      if x.awaits.isNone && decide (x.start.toNat + lim ≤ s.stage.toNat) then endPhase s ctx phase else s)

end Sys2Proof.Machine
end

