-- ==== Sys2Proof/Machine/TallyCommands.lean ====
section
/-! DEFINITION. Tally operations on their way (R247, R255), waiters that wake and sleep (R257), the commands of TLY_CMD (R241,
R242), and the host's signal (R251). -/

namespace Sys2Proof.Machine

/-! ## Commands of TLY_CMD (R242) -/

/-- TLY page of a partition. -/
def tlyOff (p : Nat) : Nat := 0x800000 + 0x40 * p

/-- The operands that a create command finds in the page: scope, kind, cluster, engine, group, participants, value, limit. -/
structure TallyAttr where
  scope : Nat
  barrier : Bool
  cluster : Nat
  engine : Nat
  group : Nat
  participants : Nat
  value : Nat
  limit : Nat
  deriving DecidableEq, Repr

/-- Reads them. -/
def tallyAttr (s : State) (p : Nat) : TallyAttr :=
  let f := fun a hi lo => regField s (tlyOff p + a) hi lo
  ⟨f 4 31 29, f 4 28 28 = 1, f 4 27 21, f 4 20 17, f 4 16 9, f 8 23 0, f 12 31 0, f 16 31 0⟩

/-- `home` of the record (R239). -/
def homeWord (a : TallyAttr) : Nat :=
  if 2 ≤ a.scope then 0x8000 else a.cluster * 256 + (if a.scope = 0 then a.engine * 16 else 0)

/-- The operand is illegal (status 5). -/
def attrBad (s : State) (p : Nat) (a : TallyAttr) : Bool :=
  decide (4 < a.scope) ||
  (decide (a.scope ≤ 1) && !(cluPresent s a.cluster && (match getPart s p with | some x => x.clusters.contains a.cluster | none => false))) ||
  (if a.barrier then a.participants = 0 else decide (a.participants ≠ 0) || decide (a.limit < a.value)) ||
  (a.scope = 3 && !inGroup s a.group s.fab.fid.toNat)

/-- Tallies of a partition at a home: of a cluster, or at the device node. -/
def homeUse (s : State) (p : Nat) (a : TallyAttr) : Nat :=
  (s.sync.tallies.filter (fun x => partIdx (partOfCtx s (x.1 / 65536)) = p &&
    (if 2 ≤ a.scope then deviceHome x.2 else !deviceHome x.2 && decide (homeClu x.2 = a.cluster)))).length
/-- The partition's share there. -/
def homeShare (s : State) (p : Nat) (a : TallyAttr) : Nat :=
  if 2 ≤ a.scope then (match getPart s p with | some x => x.tallyShare | none => 0) else 2048

/-- The record of a new tally. -/
def newTally (s : State) (a : TallyAttr) : Tally :=
  { value := BitVec.ofNat 32 a.value, limit := if a.barrier then 0 else BitVec.ofNat 32 a.limit, arrivals := 0
    participants := BitVec.ofNat 24 a.participants, scope := BitVec.ofNat 3 a.scope, barrier := a.barrier
    overflow := false, underflow := false, mismatch := false, group := if a.scope = 3 then BitVec.ofNat 8 a.group else 0
    lastSrc := 0, lastStage := s.stage, home := BitVec.ofNat 16 (homeWord a), waitEst := 0, pend := 0 }

/-- An operation on the tally is on its way. -/
def inFlight (s : State) (ctx vid : Nat) : Bool := s.sync.flight.any (fun o => decide (o.ctx = ctx) && decide (o.vid = vid))

/-- The identifier may be named: a context of the partition, and not 0. -/
def vidOk (s : State) (p ctx vid : Nat) : Bool :=
  decide (vid ≠ 0) && (match getPart s p with | some x => x.contexts.contains ctx | none => false)

/-- Create: status and state. -/
def tallyCreate (s : State) (p ctx vid : Nat) : Nat × State :=
  let a := tallyAttr s p
  if !vidOk s p ctx vid || attrBad s p a then (5, s)
  else if (getTally s ctx vid).isSome then (1, s)
  else if homeShare s p a ≤ homeUse s p a then (3, s)
  else (0, setTally s ctx vid (some (newTally s a)))

/-- The tally cannot be destroyed now: it has waiters or is bound to a ring. -/
def tallyInUse (s : State) (ctx vid : Nat) : Bool := !(waitersOf s ctx vid).isEmpty || ringBound s ctx vid

/-- Destroy, with nothing of the tally on its way. -/
def tallyDestroy (s : State) (p ctx vid : Nat) : Nat × State :=
  if !vidOk s p ctx vid then (5, s)
  else if (getTally s ctx vid).isNone then (2, s)
  else if tallyInUse s ctx vid then (4, s)
  else (0, setTally s ctx vid none)

/-- Set value. -/
def tallySet (s : State) (p ctx vid : Nat) : Nat × State :=
  if !vidOk s p ctx vid then (5, s)
  else match getTally s ctx vid with
    | none => (2, s)
    | some t =>
      if !(waitersOf s ctx vid).isEmpty then (4, s)
      else
        let v := (tallyAttr s p).value
        (0, followFree (setTally s ctx vid (some { t with value := BitVec.ofNat 32 v, arrivals := 0 })) ctx vid v)

/-- Clear flags. -/
def tallyClear (s : State) (p ctx vid : Nat) : Nat × State :=
  if !vidOk s p ctx vid then (5, s)
  else match getTally s ctx vid with
    | none => (2, s)
    | some t => (0, setTally s ctx vid (some { t with overflow := false, underflow := false, mismatch := false }))

/-- `busy` of a TLY_CMD page. -/
def tlyBusy (s : State) (p : Nat) : Bool := s.sync.destroying.any (fun x => x.1 = p)

/-- The command of a TLY_CMD page whose fields have been written (R241, R242). A reserved operation is an illegal operand. -/
def tallyCommand (s : State) (p : Nat) : State :=
  let o := tlyOff p
  let op := regField s o 29 27
  let ctx := regField s o 23 16
  let vid := regField s o 15 0
  if tlyBusy s p then s
  else if op = 2 && (getTally s ctx vid).isSome && inFlight s ctx vid then
    { s with sync := { s.sync with destroying := s.sync.destroying ++ [(p, tallyKey ctx vid)] } }
  else
    let r := match op with
      | 1 => tallyCreate s p ctx vid
      | 2 => tallyDestroy s p ctx vid
      | 3 => tallySet s p ctx vid
      | 4 => tallyClear s p ctx vid
      | _ => (5, s)
    setField r.2 o 26 24 r.1

/-- Destroy commands whose operations have all arrived end now. -/
def settleDestroys (s : State) : State :=
  (s.sync.destroying.filter (fun x => !inFlight s (x.2 / 65536) (x.2 % 65536))).foldl (fun t x =>
    let r := tallyDestroy { t with sync := { t.sync with destroying := t.sync.destroying.filter (· ≠ x) } } x.1 (x.2 / 65536) (x.2 % 65536)
    setField r.2 (tlyOff x.1) 26 24 r.1) s

/-! ## Operations on their way -/

/-- Ascending source identity (R247, R255). -/
def insOp (o : TallyOp) : List TallyOp → List TallyOp
  | [] => [o]
  | x :: t => if issuerSrc o.issuer ≤ issuerSrc x.issuer then o :: x :: t else x :: insOp o t

/-- TALLY_OPERATION_ARRIVAL (R247): the n-th operation on its way reaches its home, alone or with the others of its combined
message, one at a time. One that a node still holds has not been sent on. -/
def execTallyOperationArrival (n : Nat) (s : State) : Ans :=
  .next (
    match s.sync.flight[n]? with
    | none => s
    | some o =>
      if !devRuns s then s
      else match o.node with
        | none => settleDestroys (applyOp { s with sync := { s.sync with flight := listDel s.sync.flight n } } o)
        | some k =>
          if k < 80 then s
          else
            let mine := fun (x : TallyOp) => decide (x.node = some k) && decide (x.ctx = o.ctx) && decide (x.vid = o.vid)
            settleDestroys ((s.sync.flight.filter mine).foldl applyOp
              { s with sync := { s.sync with flight := s.sync.flight.filter (fun x => !mine x) } }))

/-- COMBINE_FLUSH (R255): the node forwards what it holds, in ascending source identity. -/
def execCombineFlush (c : ClusterId) (s : State) : Ans :=
  .next (
    if !devRuns s then s
    else
      let held := (s.sync.flight.filter (fun o => o.node = some c.val)).foldr insOp []
      let rest := s.sync.flight.filter (fun o => o.node ≠ some c.val)
      { s with sync := { s.sync with flight := rest ++ held.map (fun o => { o with node := some (80 + c.val) }) } })

/-- WAITER_WAKE (R257): a released waiter goes on; `cycles` is the length of its wait. -/
def execWaiterWake (n cycles : Nat) (s : State) : Ans :=
  .next (
    match s.sync.waiters[n]? with
    | none => s
    | some w =>
      if !devRuns s || !w.released then s
      else
        let s1 := { s with sync := { s.sync with waiters := listDel s.sync.waiters n } }
        match getTally s1 w.op.ctx w.op.vid with
        | none => resumeIssuer s1 w.op 0
        | some t => resumeIssuer (setTally s1 w.op.ctx w.op.vid
            (some { t with waitEst := BitVec.ofNat 16 (min 0xFFFF (cycles / 64)) })) w.op t.value)

/-- WAITER_SLEEP (R257): after 64 cycles of waiting a waiter is clock-gated. -/
def execWaiterSleep (n : Nat) (s : State) : Ans :=
  .next (
    match s.sync.waiters[n]? with
    | none => s
    | some w => if w.released then s else
        { s with sync := { s.sync with waiters := listSet s.sync.waiters n { w with asleep := true } } })

/-- The host's signal through HQ_TALLY_SIGNAL (R251): an ADD at HOST scope; an amount of 0 is discarded. -/
def hostSignal (s : State) (q vid amount : Nat) : State :=
  if amount = 0 then s
  else sendOp s { code := 15, ctx := qCtx s q, vid := vid, scope := 4, amount := BitVec.ofNat 32 amount, issuer := .host q, tag := 0
                  ord := 0, node := none, dest := 0 }

end Sys2Proof.Machine
end

