-- ==== Sys2Proof/Machine/ConvoyOps.lean ====
section
/-! DEFINITION. The commands of the convoy engine: COLLECTIVE packets (R280 to R282), the messages that arrive (R273, R274, R285,
R292, R293), chunks taken, reduced and signalled (R283 to R285, R291), the watchdog (R296), the switch's barrier release (R250)
and the group commands (R268). -/

namespace Sys2Proof.Machine

/-! ## COLLECTIVE packets -/

/-- Checks of a COLLECTIVE packet before its bounds are read. -/
def collHead (p : List Byte) : Option CheckFail :=
  firstFail [headerCheck p, rsvCheck p [rsvAll 43 1 15, sigRsv 44, sigRsv 48, rsvAll 52 52 15], sigCheck p 44, sigCheck p 48]

/-- The pages of a page transfer: each in the partition's pool and not FREE (R120, R280). -/
def pageFail (s : State) (ctx : Nat) (l : List Nat) : Option CheckFail :=
  (l.find? (fun i => !((match partOfCtx s ctx with
    | some p => decide (p.poolFirst ≤ i) && decide (i < p.poolFirst + p.poolCount)
    | none => false) && decide ((getWay s i).state ≠ 0)))).map (fun i => ⟨0x0303, 11, 29, 0, i, 0⟩)

/-- Issues a COLLECTIVE packet whose fields hold: its lists are read and the operation starts. -/
def collStart (s : State) (q : Nat) (p : List Byte) (count : Nat) : State :=
  let ctx := qCtx s q
  let c := collPacketOf p
  let b := collOf p 104
  let n := match getGroup s b.group with | some g => g.members.length | none => 0
  let pagesAt : Except AccFail (List Nat) :=
    if c.kind = 1 then (match xRead s ctx c.src (4 * count) with
      | .error f => .error f
      | .ok d => .ok ((words32 d).map (·.toNat)))
    else .ok []
  let countsAt : Except AccFail (List Nat) :=
    if b.cop = 5 then (match xRead s ctx c.counts (4 * n) with
      | .error f => .error f
      | .ok d => .ok ((words32 d).map (·.toNat)))
    else .ok []
  match pagesAt, countsAt with
  | .error f, _ => issueAccess s q p f
  | .ok _, .error f => issueAccess s q p f
  | .ok pages, .ok counts =>
    match pageFail s ctx pages with
    | some f => failIssue s q p f
    | none =>
      let s1 := startRun s q (newRun s .coll)
      let s2 := { s1 with kv := { s1.kv with readers := s1.kv.readers ++ pages.eraseDups.map (fun i => (q, i)) } }
      startColl lseMerge s2 q p count none pages counts

/-- Issues a COLLECTIVE packet (R280, R281). -/
def issueColl (s : State) (q : Nat) (p : List Byte) : State :=
  match collHead p with
  | some f => failIssue s q p f
  | none => match readBound s q (qCtx s q) 0 (collOf p 104).count with
    | .error f =>
      (match collCheck s (qCtx s q) p 0 none with
        | some c => failIssue s q p c
        | none => issueAccess s q p f)
    | .ok n => match collCheck s (qCtx s q) p n none with
      | some f => failIssue s q p f
      | none => if handing s 21 then s else collStart s q p n

/-- A COLLECTIVE packet of operation `cop`. -/
def onColl (s : State) (q cop : Nat) : Ans :=
  onIssue s q (fun p => pkOp p = 0x18 && (collOf p 104).cop = cop) (issueColl s q)

/-- ALL_REDUCE (R282); an operation code that is not listed fails its check here. -/
def execAllReduce (q : QueueId) (s : State) : Ans :=
  onIssue s q (fun p => pkOp p = 0x18 && ((collOf p 104).cop ≤ 1 || 10 < (collOf p 104).cop)) (issueColl s q)
/-- REDUCE_SCATTER (R282). -/
def execReduceScatter (q : QueueId) (s : State) : Ans := onColl s q 2
/-- ALL_GATHER (R282). -/
def execAllGather (q : QueueId) (s : State) : Ans := onColl s q 3
/-- ALL_GATHER_V (R282). -/
def execAllGatherV (q : QueueId) (s : State) : Ans := onColl s q 4
/-- ALL_TO_ALL_V (R282). -/
def execAllToAllV (q : QueueId) (s : State) : Ans := onColl s q 5
/-- BROADCAST (R282). -/
def execBroadcast (q : QueueId) (s : State) : Ans := onColl s q 6
/-- SEND (R282). -/
def execSend (q : QueueId) (s : State) : Ans := onColl s q 7
/-- RECV (R282). -/
def execRecv (q : QueueId) (s : State) : Ans := onColl s q 8
/-- SENDRECV (R282). -/
def execSendrecv (q : QueueId) (s : State) : Ans := onColl s q 9
/-- COLLECTIVE_BARRIER (R282). -/
def execCollectiveBarrier (q : QueueId) (s : State) : Ans := onColl s q 10

/-! ## Messages -/

/-- Where a message to position `pos` goes; position n stands for the switch, and has no fabric ID. -/
def chunkDest (g : GroupEntry) (pos : Nat) : Nat := if pos < g.members.length then fidAt g pos else 0xFFFF

/-- A message of a fabric source counts for the group: it is a member at the position it states, or the switch. -/
def fromMember (g : GroupEntry) (src : Nat) (pos : Nat) : Bool := decide (g.members.length ≤ pos) || decide (fidAt g pos = src)

/-- A message of a frozen fabric source is discarded and counted (R474); one that the device cannot take now is not accepted. -/
def inbound (s : State) (src : Nat) (k : State → State) : Ans :=
  .next (
    if !s.dev.ready || !s.dev.powered || devFrozen s || s.dev.failed then s
    else if isFrozen s 7 src then { s with fab := { s.fab with discarded := s.fab.discarded + 1 } }
    else k s)

/-- Takes what came early, if its operation holds the channel now. -/
def settle (s : State) (ch : Nat) : State := if (getConv s ch).early.isEmpty then s else takeEarly lseMerge s ch

/-- The operation on the channel of a group that a message concerns, started and not yet complete. -/
def opFor (s : State) (group : Nat) (seq : Word) (pair : Bool) (pos : Nat) : Option CollOp :=
  (getConv s (group % 32)).ops.find? (fun o => decide (o.group = group) && (isPair o.cop == pair) &&
    (if o.cop = 9 then (o.seq = seq && o.peer = pos) || (o.seq2 = seq && o.peer2 = pos)
     else if pair then o.seq = seq && o.peer = pos else o.seq = seq))

/-- CONVOY_OPENING (R273): compared with the local operation, or kept until that starts. -/
def execConvoyOpening (src : Fid) (m : ConvoyCtl) (data : List Byte) (s : State) : Ans :=
  inbound s src.toNat (fun s =>
    let ch := m.group.toNat % 32
    match getGroup s m.group.toNat with
    | none => s
    | some g =>
      if m.mkind ≠ 1 || !fromMember g src.toNat m.fromPos.toNat || isFrozen s 4 ch then s
      else match holder s ch with
        | some (o, _, _) =>
          if concerns o m then settle (takeOpening lseMerge s ch m data) ch
          else modConv s ch (fun c => { c with early := c.early ++ [(m.fromPos.toNat, m, data)] })
        | none => modConv s ch (fun c => { c with early := c.early ++ [(m.fromPos.toNat, m, data)] }))

/-- The operation ends with REPLAY_REQUIRED on this member: its numbers go back to those it took (R291). -/
def replayColl (s : State) (o : CollOp) : State :=
  let taken := match (getQ s o.queue).journal.find? (fun e => e.life = .issued) with | some e => e.seqs | none => []
  let s1 := match getGroup s o.group with | some g => setGroup s o.group (some (taken.foldl giveSeq g)) | none => s
  completePacket (dropColl (dropWork s1 o.queue) o.queue) o.queue 0x0010

/-- CONVOY_ABORT (R274): the operation is abandoned, or, with abort cause 0, ends with REPLAY_REQUIRED (R291). -/
def execConvoyAbort (src : Fid) (m : ConvoyCtl) (s : State) : Ans :=
  inbound s src.toNat (fun s =>
    let ch := m.group.toNat % 32
    match getGroup s m.group.toNat with
    | none => s
    | some g =>
      if m.mkind ≠ 2 || !fromMember g src.toNat m.fromPos.toNat then s
      else match opFor s m.group.toNat m.seq (isPair (m.cop.toNat % 16)) m.fromPos.toNat with
        | some o => settle (if m.abortCause = 0 then replayColl s o else abandon s ch o g) ch
        | none => if m.abortCause = 0 then s else setGroup s m.group.toNat (some { g with broken := true }))

/-- Sends an acknowledgement or re-request of a chunk. -/
def sendCtl (s : State) (g : GroupEntry) (o : CollOp) (kind : Nat) (c : ChunkHead) : State :=
  emit s (.convoy (chunkDest g c.fromPos.toNat) { ctlOf g o kind c.seq 0 0 0 with count := c.chunk } [])

/-- An acknowledgement repeated for an operation that has ended (R293): all that is known of it is what the chunk carries. -/
def ackAgain (s : State) (g : GroupEntry) (c : ChunkHead) : State :=
  emit s (.convoy (chunkDest g c.fromPos.toNat)
    { seq := c.seq, group := c.group, cop := 0, ctype := 0, chunkLog2 := 0, elemBytes := 0, cflags := 0, mkind := 3
      count := c.chunk, listCrc := 0, root := 0, fromPos := BitVec.ofNat 16 g.selfPos, dataBytes := 0, abortCause := 0 } [])

/-- The sequence number is one that the group, or the pair, has passed. -/
def passedSeq (g : GroupEntry) (c : ChunkHead) : Bool :=
  decide (0 < (g.seq - c.seq).toNat ∧ (g.seq - c.seq).toNat < 2 ^ 31) ||
  (let r := pairSeq g.recvSeq c.fromPos.toNat
   decide (0 < (r - c.seq).toNat ∧ (r - c.seq).toNat < 2 ^ 31))

/-- The operation that holds a channel is the one a chunk belongs to. -/
def chunkFor (o : CollOp) (c : ChunkHead) : Bool :=
  decide (o.group = c.group.toNat) &&
  (match o.cop with
    | 7 => false
    | 8 => c.seq = o.seq && decide (c.fromPos.toNat = o.peer)
    | 9 => c.seq = o.seq2 && decide (c.fromPos.toNat = o.peer2)
    | _ => c.seq = o.seq)

/-- A contribution to a reduction that this device evaluates. -/
def isContrib (g : GroupEntry) (o : CollOp) (p : CollProg) (c : ChunkHead) : Bool :=
  o.red ≠ 0 && !c.result && !inNetwork g o p

/-- A sound chunk of the operation that holds the channel is taken. -/
def takeChunk (s : State) (ch : Nat) (o : CollOp) (p : CollProg) (g : GroupEntry) (c : ChunkHead) (data : List Byte) : State :=
  let k := c.chunk.toNat
  let pos := c.fromPos.toNat
  if isContrib g o p c then
    let s1 := if p.contrib.any (fun x => decide (x.1 = k) && decide (x.2.1 = pos)) then s
      else modProg s ch (fun x => { x with contrib := x.contrib ++ [(k, pos, data)] })
    progressed (sendCtl s1 g o 3 c) ch
  else match (inUnits g o p).find? (fun u => decide (u.1 = (k, pos))) with
    | none => s
    | some u =>
      if p.written.contains u.1 then sendCtl s g o 3 c
      else if u.2.2 < data.length then s
      else if heldBack s g.ctx (srcOf 5 ch) (opTag s o) then s
      else match writePiece s ch g o u.1 u.2.1 data with
        | .error f => waitFault s g.ctx (srcOf 5 ch) (opTag s o) f
        | .ok s1 => finishColl (addCtr (sendCtl s1 g o 3 c) 9 ch 2 1) ch

/-- CONVOY_CHUNK (R293): written, checked and acknowledged, or, with an uncorrectable word, re-requested (R292). -/
def execConvoyChunk (src : Fid) (c : ChunkHead) (data : List Byte) (wordOk : Bool) (s : State) : Ans :=
  inbound s src.toNat (fun s =>
    let ch := c.group.toNat % 32
    match getGroup s c.group.toNat with
    | none => s
    | some g =>
      if !fromMember g src.toNat c.fromPos.toNat || isFrozen s 4 ch then s
      else match holder s ch with
        | some (o, p, _) =>
          if chunkFor o c then
            if !allOpen g o p then s
            else if wordOk then settle (takeChunk s ch o p g c data) ch
            else progressed (addCtr (sendCtl (uncorrEvent s g.ctx (srcOf 5 ch) (opTag s o) 6 3 0) g o 4 c) 9 ch 3 1) ch
          else if passedSeq g c then ackAgain s g c else s
        | none => if passedSeq g c then ackAgain s g c else s)

/-- An operation on its channel, where it holds it, and the message is of it: for acknowledgements and re-requests of what this
device has sent. -/
def onSent (s : State) (src : Nat) (m : ConvoyCtl) (kind : Nat) (k : State → Nat → CollOp → CollProg → GroupEntry → State) : State :=
  let ch := m.group.toNat % 32
  match holder s ch with
  | none => s
  | some (o, p, g) =>
    if decide (m.mkind.toNat = kind) && decide (m.group.toNat = o.group) && fromMember g src m.fromPos.toNat && !isFrozen s 4 ch &&
        (m.seq = o.seq) then k s ch o p g else s

/-- CONVOY_ACKNOWLEDGEMENT (R285): the point that consumes the chunk has it. -/
def execConvoyAcknowledgement (src : Fid) (m : ConvoyCtl) (s : State) : Ans :=
  inbound s src.toNat (fun s => onSent s src.toNat m 3 (fun s ch _ p _ =>
    let a := (m.count.toNat, m.fromPos.toNat)
    let s1 := if p.acks.contains a then s else modProg s ch (fun x => { x with acks := x.acks ++ [a] })
    settle (finishColl (progressed s1 ch) ch) ch))

/-- The reduction of chunk k from all its contributions. -/
def reduceChunk (g : GroupEntry) (o : CollOp) (p : CollProg) (k : Nat) : Option (List Byte) :=
  let l := (positions g).map (fun q => (p.contrib.find? (fun x => decide (x.1 = k) && decide (x.2.1 = q))).map (·.2.2))
  if l.all (·.isSome) then treeAll (combine lseMerge o.red o.ctype o.elemBytes) 13 (l.filterMap id) else none

/-- CONVOY_RE_REQUEST (R292): the chunk is sent again from retention. -/
def execConvoyReRequest (src : Fid) (m : ConvoyCtl) (s : State) : Ans :=
  inbound s src.toNat (fun s => onSent s src.toNat m 4 (fun s ch o p g =>
    let k := m.count.toNat
    let pos := m.fromPos.toNat
    let head := fun (res : Bool) => (⟨BitVec.ofNat 8 o.group, o.seq, BitVec.ofNat 32 k, BitVec.ofNat 16 g.selfPos, res⟩ : ChunkHead)
    if o.cop = 1 && p.reduced.contains k then
      (match reduceChunk g o p k with
        | some d => progressed (emit s (.chunk (chunkDest g pos) (head true) d)) ch
        | none => s)
    else
      let us := (outUnits g o p).zip (upFrom 0 (outUnits g o p).length)
      match us.find? (fun u => decide (u.1.2.2.2 = k) && u.1.2.2.1.contains pos) with
      | none => s
      | some u => match tabFind p.kept u.2 with
        | none => s
        | some d => progressed (emit s (.chunk (chunkDest g pos) (head false) d)) ch))

/-! ## Chunks of this device -/

/-- What a packet has still to write of its output, as (address, bytes) spans (R284). -/
def pendingSpans (s : State) (q : Nat) : List (Nat × Nat) :=
  match (getQ s q).run, curPacket s q with
  | some r, some p =>
    let on := (s.comp.engines.filterMap (fun e => e.2.block)).filterMap (fun b => if b.owner = .queue q then some b.no else none)
    (match r.work with
      | .blocks todo _ =>
        if pkOp p = 5 then
          let c := convOf p
          ((todo ++ on).map (fun no =>
            let g := convGeo c r.bounds no
            (upFrom g.1 g.2.2.2.1).map (fun y => (c.outAddr + y * c.outRow + g.2.1 * c.outPix, g.2.2.2.2.1 * c.outPix)))).flatten
        else
          let pl := planOf p
          ((todo ++ on).map (fun no =>
            let g := blockGeo pl r.bounds r.table (qLatency s q) no
            ((upFrom 0 (partsOf pl.pass)).map (fun part => (upFrom g.row0 g.rows).map (fun i =>
              (cRow pl r.bounds r.table g.prob i part + elemBytes pl.outFmt g.col0, elemBytes pl.outFmt g.cols)))).flatten)).flatten
      | .attend units todo _ =>
        let a := attnOf p
        let nq := nth0 r.bounds 1
        (if units.isEmpty then todo ++ on else upFrom 0 (attnBlocks a nq)).map (fun no =>
          let b := attnBlock a nq no
          (a.stOut + (b.h * nq * a.g + b.row0) * a.stateRow, b.rows * a.stateRow))
      | .xfer ch false =>
        let x := xferOf p none
        let g := xferRegion x
        let done := match ch with
          | none => 0
          | some c => match getChan s c with
            | none => 0
            | some k => if x.skew then (panelNo x k.cursor * x.panel + nth0 k.cursor 0) * x.line else linear x k.cursor * x.dBits / 8
        [(g.addr + done, g.bytes - done)]
      | _ => [])
  | _, _ => []

/-- Every block that writes a byte of a source chunk has written it. -/
def sourceReady (s : State) (o : CollOp) (off len : Nat) : Bool :=
  !o.fused || o.empty || (pendingSpans s o.queue).all (fun x => decide (x.1 + x.2 ≤ o.src + off) || decide (o.src + off + len ≤ x.1))

/-- Reads source bytes for a chunk, or does what a failed read does. -/
def chunkRead (s : State) (ch : Nat) (g : GroupEntry) (o : CollOp) (off len : Nat) (k : List Byte → State) : State :=
  match readUnit s g.ctx o off len with
  | none => s
  | some (.ok d) => k d
  | some (.error (.bad b)) =>
    let r := uncorrectable s g.ctx (srcOf 5 ch) (opTag s o) (some (.queue o.queue)) b
    if r.1 then r.2 else replayPacket r.2 o.queue
  | some (.error f) => waitFault s g.ctx (srcOf 5 ch) (opTag s o) f

/-- What this device keeps of its own unit: its part of a gathered result, or its contribution to a reduction. -/
def ownShare (s : State) (ch : Nat) (g : GroupEntry) (o : CollOp) (p : CollProg) (label : Nat) (d : List Byte) : Except AccFail State :=
  if o.red ≠ 0 then .ok (modProg s ch (fun x => { x with contrib := x.contrib ++ [(label, g.selfPos, d)] }))
  else match (inUnits g o p).find? (fun u => decide (u.1 = (label, g.selfPos))) with
    | none => .ok s
    | some u => writePiece s ch g o u.1 u.2.1 d

/-- The channel holds an access of its operation that failed, until its context is released. -/
def collHeld (s : State) (ch : Nat) (g : GroupEntry) (o : CollOp) : Bool := heldBack s g.ctx (srcOf 5 ch) (opTag s o)

/-- Sends unit number `i`, whose bytes are known, to those that have not acknowledged it. -/
def sendUnit (s : State) (ch : Nat) (g : GroupEntry) (o : CollOp) (p : CollProg) (i : Nat) (u : Nat × Nat × List Nat × Nat)
    (d : List Byte) : State :=
  let head : ChunkHead := ⟨BitVec.ofNat 8 o.group, o.seq, BitVec.ofNat 32 u.2.2.2, BitVec.ofNat 16 g.selfPos, false⟩
  let dests := u.2.2.1.filter (fun q => decide (q ≠ g.selfPos) && !p.acks.contains (u.2.2.2, q))
  let s1 := modProg s ch (fun x => { x with taken := i + 1, kept := tabSet x.kept i (some d) })
  let own := u.2.2.1.contains g.selfPos && (if o.red ≠ 0 then !p.contrib.any (fun x => decide (x.1 = u.2.2.2) && decide (x.2.1 = g.selfPos))
    else !p.written.contains (u.2.2.2, g.selfPos))
  match (if own then ownShare s1 ch g o p u.2.2.2 d else .ok s1) with
  | .error f => waitFault s g.ctx (srcOf 5 ch) (opTag s o) f
  | .ok s2 => finishColl (progressed (dests.foldl (fun t q => addCtr (emit t (.chunk (chunkDest g q) head d)) 9 ch 1 1) s2) ch) ch

/-- The next source unit of the operation that holds the channel. -/
def takeUnit (s : State) (ch : Nat) (o : CollOp) (p : CollProg) (g : GroupEntry) : State :=
  match (outUnits g o p)[p.taken]? with
  | none => s
  | some u =>
    match tabFind p.kept p.taken with
    | some d => sendUnit s ch g o p p.taken u d
    | none => if sourceReady s o u.1 u.2.1 then chunkRead s ch g o u.1 u.2.1 (sendUnit s ch g o p p.taken u) else s

/-- CHUNK_TAKE (R284): the next source chunk, once it is wholly written; data on the small path goes out with the opening. -/
def execChunkTake (ch : ChanId) (s : State) : Ans :=
  .next (
    if !devRuns s || isFrozen s 4 ch then s
    else match holder s ch with
      | none => s
      | some (o, p, g) =>
        if collHeld s ch g o then s
        else if onSmallPath g o then
          if p.opened && allOpen g o p then settle (afterOpen lseMerge s ch) ch
          else if p.opened || (o.cop = 6 && o.peer ≠ g.selfPos) || !sourceReady s o 0 (opBytes o) then s
          else chunkRead s ch g o 0 (opBytes o) (fun d =>
            settle (afterOpen lseMerge (sendOpenings (modProg s ch (fun x => { x with kept := tabSet x.kept 0 (some d), taken := 1 }))
              ch g o d) ch) ch)
        else if allOpen g o p then settle (takeUnit s ch o p g) ch else s)

/-- One failed evaluation on a bank (R291): counted, the bank retired at its second failure within 2²⁶ stages. -/
def bankFail (s : State) (o : CollOp) (k b : Nat) (last : Bool) : State :=
  let x := getBank s b
  let recent := x.fails.filter (fun n => decide (s.stage.toNat - n.toNat < 2 ^ 26))
  let retire := !recent.isEmpty
  let s1 := addCtr { s with conv := { s.conv with residueFails := if s.conv.residueFails = 255 then 255 else s.conv.residueFails + 1 } } 10 b 1 1
  let s2 := raiseEvent s1 0x0403 (if last then 2 else if retire then 1 else 0) 0xFF (srcOf 6 b)
    (leBytes 1 0 ++ leBytes 1 b ++ leBytes 1 (if last then 3 else if retire then 1 else 0) ++ leBytes 1 o.group ++
      leBytes 4 o.seq.toNat ++ leBytes 4 k ++ leBytes 1 (o.red + 16 * o.ctype))
  if !retire then setBank s2 b { x with fails := recent ++ [s.stage] }
  else
    let s3 := setBank s2 b { x with serving := false, retired := true, fails := [], gen := x.gen }
    let spare := (upFrom 0 9).find? (fun i => !(getBank s3 i).serving && !(getBank s3 i).retired)
    let s4 := match spare with
      | none => s3
      | some i => setBank s3 i { (getBank s3 i) with serving := true, gen := (getBank s3 i).gen + 1 }
    let serving := ((upFrom 0 9).filter (fun i => (getBank s4 i).serving)).length
    unitRetired s4 (srcOf 6 b) 6 5 b (if spare.isSome then 0 else 3) x.gen.toNat serving 0

/-- The operation is abandoned on every member after three failed banks (R291). -/
def residueAbandon (s : State) (g : GroupEntry) (o : CollOp) : State :=
  replayColl ((others g).foldl (fun t q => emit t (.convoy (fidAt g q) (ctlOf g o 2 o.seq 0 0 0) [])) s) o

/-- A chunk has been evaluated: its piece is written here, and for ALL_REDUCE its result goes to the other members. -/
def releaseReduced (s : State) (ch : Nat) (g : GroupEntry) (o : CollOp) (p : CollProg) (k : Nat) (d : List Byte) : State :=
  match (inUnits g o p).find? (fun u => decide (u.1 = (k, g.selfPos))) with
  | none => s
  | some u => match writePiece s ch g o u.1 u.2.1 d with
    | .error f => waitFault s g.ctx (srcOf 5 ch) (opTag s o) f
    | .ok s1 =>
      let head : ChunkHead := ⟨BitVec.ofNat 8 o.group, o.seq, BitVec.ofNat 32 k, BitVec.ofNat 16 g.selfPos, true⟩
      let s2 := modProg s1 ch (fun x => { x with reduced := x.reduced ++ [k] })
      let s3 := if o.cop = 1 then (others g).foldl (fun t q =>
        if p.acks.contains (k, q) then t else addCtr (emit t (.chunk (fidAt g q) head d)) 9 ch 1 1) s2 else s2
      finishColl (progressed s3 ch) ch

/-- CHUNK_REDUCE (R283, R291): T is evaluated for chunk k; `fails` are the banks on which the evaluation fails first. -/
def execChunkReduce (ch : ChanId) (k : Nat) (fails : List Nat) (s : State) : Ans :=
  .next (
    if !devRuns s || isFrozen s 4 ch then s
    else match holder s ch with
      | none => s
      | some (o, p, g) =>
        if o.red = 0 || onSmallPath g o || inNetwork g o p || !allOpen g o p || p.reduced.contains k || collHeld s ch g o then s
        else match reduceChunk g o p k with
          | none => s
          | some d =>
            let bad := ((fails.eraseDups).filter (fun b => decide (b < 9) && (getBank s b).serving)).take 3
            let s1 := (bad.zip (upFrom 1 bad.length)).foldl (fun t b => bankFail t o k b.1 (b.2 = 3)) s
            if bad.length = 3 then settle (residueAbandon s1 g o) ch
            else
              let bank := ((upFrom 0 9).find? (fun b => (getBank s1 b).serving && !bad.contains b)).getD 0
              settle (releaseReduced (addCtr s1 10 bank 0 (d.length / max 1 o.elemBytes * (g.members.length - 1))) ch g o p k d) ch)

/-- CHUNK_DONE_SIGNAL (R285): the next result chunk is signalled. -/
def execChunkDoneSignal (ch : ChanId) (s : State) : Ans :=
  .next (
    if !devRuns s || isFrozen s 4 ch then s
    else match holder s ch with
      | none => s
      | some (o, p, g) =>
        if o.doneTally = 0 || !allOpen g o p || signalCount g o p ≤ p.signals || !chunkReady g o p p.signals then s
        else
          let s1 := applyOp s { code := 17, ctx := g.ctx, vid := o.doneTally, scope := o.doneScope, amount := 1, issuer := .convoy ch
                                tag := BitVec.ofNat 32 (opTag s o), ord := 0, node := none, dest := 0 }
          if isFrozen s1 4 ch then s1
          else settle (finishColl (modProg s1 ch (fun x => { x with signals := x.signals + 1 })) ch) ch)

/-! ## Watchdog and barrier release -/

/-- Dump page of a context (R264). -/
def dumpOff (c : Nat) : Nat := 0x801000 + 0x40 * c
/-- Bytes of the automatic dump area. -/
def dumpRoom (s : State) (c : Nat) : Nat := 128 * regField s (dumpOff c + 8) 19 0

/-- COLLECTIVE_TIMEOUT (R297) for the operation that holds a channel. -/
def timeoutRecord (s : State) (ch : Nat) (o : CollOp) (p : CollProg) (g : GroupEntry) (dump n : Nat) : State :=
  let missing := if allOpen g o p then
      (((inUnits g o p).filter (fun u => !p.written.contains u.1 && decide (u.1.2 ≠ g.selfPos))).map (fun u => u.1.2)) ++
        ((outUnits g o p).map (fun u => u.2.2.1.filter (fun q => decide (q ≠ g.selfPos) && !p.acks.contains (u.2.2.2, q)))).flatten
    else ((awaited g o).filter (fun k => !p.opens.any (fun x => x.1 = k))).map (fun k => k % 65536)
  let l := sortNat (missing.eraseDups)
  raiseEvent s 0x0402 2 g.ctx (srcOf 5 ch) (leBytes 1 ch ++ leBytes 1 o.group ++ leBytes 1 o.cop ++ leBytes 1 dump ++
    leBytes 4 o.seq.toNat ++ leBytes 2 (nth0 l 0) ++ leBytes 2 l.length ++ leBytes 4 n)

/-- COLLECTIVE_TIMEOUT (R296): the channel freezes, and the dump is taken at the next stage boundary. -/
def execCollectiveTimeout (ch : ChanId) (s : State) : Ans :=
  .next (
    match holder s ch with
    | none => s
    | some (o, p, g) =>
      let lim := regField s (0x500008 + 16 * ch.val) 15 0
      if !devRuns s || isFrozen s 4 ch || lim = 0 || (getConv s ch).silent < 1024 * lim then s
      else
        let s1 := addCtr (freeze s 4 ch (partIdx (partOfCtx s g.ctx)) 0x0402) 9 ch 4 1
        if dumpRoom s g.ctx = 0 then timeoutRecord s1 ch o p g 2 0
        else if s.sync.dumping.any (fun x => x.1 = g.ctx) then timeoutRecord s1 ch o p g 3 0
        else { s1 with sync := { s1.sync with dumping := s1.sync.dumping ++ [(g.ctx, ch.val, s.stage.toNat + 1)] } })

/-- The automatic dumps whose cut is the present stage: the dump, then the timeout's record (R264, R296). -/
def autoDump (s : State) (x : Nat × Nat × Nat) : State :=
  let s1 := { s with sync := { s.sync with dumping := s.sync.dumping.filter (· ≠ x) } }
  let d := dumpBytes s (some x.1) (dumpRoom s x.1) true
  let base := regField s (dumpOff x.1) 31 7 * 128 + regField s (dumpOff x.1 + 4) 23 0 * 2 ^ 32
  let r := match xWrite s1 x.1 base d with
    | .error f => (2, accessFault s1 x.1 (srcOf 5 x.2.1) 0 f)
    | .ok t => (if bitOf (fieldAt d 16 1) 0 then 1 else 0, t)
  match holder r.2 x.2.1 with
  | none => r.2
  | some (o, p, g) => timeoutRecord r.2 x.2.1 o p g r.1 (if r.1 = 2 then 0 else x.2.2 % 2 ^ 32)

/-- The dumps whose cut lies after stage `lo` and not after the present one. -/
def takeCuts (s : State) (lo : Nat) : State :=
  let s1 := (s.host.queues.map (·.1)).foldl (fun t q => takeDump t lo q) s
  (s1.sync.dumping.filter (fun x => decide (lo < x.2.2) && decide (x.2.2 ≤ s1.stage.toNat))).foldl autoDump s1

/-- SWITCH_BARRIER_RELEASE (R250): the phase that every member has reached is complete here too. -/
def execSwitchBarrierRelease (g : GroupId) (vid : BitVec 16) (s : State) : Ans :=
  .next (
    match getGroup s g with
    | none => s
    | some e => match getTally s e.ctx vid.toNat with
      | none => s
      | some t =>
        if !devRuns s || t.scope ≠ 3 || !t.barrier || decide (t.group.toNat ≠ g.val) || t.pend = 0 then s
        else releaseAll (setTally s e.ctx vid.toNat (some { t with pend := t.pend - 1, value := t.value + 1 })) e.ctx vid.toNat)

/-! ## Group commands (R268) -/

/-- CNV page of a partition. -/
def cnvOff (p : Nat) : Nat := 0x501000 + 0x40 * p

/-- An operation on the group has started here and not completed. -/
def groupBusy (s : State) (g : Nat) : Bool := (getConv s (g % 32)).ops.any (fun o => o.group = g)

/-- The image of a group: members from its list, or none where it is malformed. -/
def groupImage (b : List Byte) : Option (List Fid) :=
  let n := fieldAt b 0 2
  let l := (chunksOf 2 (bytesAt b 64 (2 * n))).map leNat
  if n = 0 || decide (4096 < n) || !(decide (12 ≤ fieldAt b 6 1) && decide (fieldAt b 6 1 ≤ 18)) || fieldAt b 7 1 ≥ 2 ||
      fieldAt b 2 4 ≠ 0 || !allZero (bytesAt b 8 56) || l.any (fun x => decide (0x4000 ≤ x)) then none
  else some (l.map (BitVec.ofNat 14))

/-- An entry as its image and list. -/
def groupBytes (e : GroupEntry) : List Byte :=
  bytesAt (leBytes 2 e.members.length ++ leBytes 2 e.selfPos ++ leBytes 1 e.ctx ++ leBytes 1 (1 + 2 * b2n e.broken + 4 * e.part) ++
    leBytes 1 e.chunkLog2 ++ [e.flags] ++ leBytes 4 e.listCrc.toNat ++ leBytes 4 e.seq.toNat) 0 64 ++
  (e.members.map (fun m => leBytes 2 m.toNat)).flatten

/-- Load. -/
def groupLoad (s : State) (p g ctx : Nat) (b : List Byte) : Nat × State :=
  match groupImage b with
  | none => (4, s)
  | some l =>
    if (l.filter (fun m => m = s.fab.fid)).length ≠ 1 || l.eraseDups.length ≠ l.length then (5, s)
    else (0, setGroup s g (some { members := l, selfPos := l.findIdx (fun m => m = s.fab.fid), ctx := ctx, broken := false, part := p
                                  chunkLog2 := fieldAt b 6 1, flags := BitVec.ofNat 8 (fieldAt b 7 1)
                                  listCrc := crc32c (l.map (fun m => leBytes 2 m.toNat)).flatten, seq := 0, sendSeq := [], recvSeq := [] }))

/-- The command of a CNV_GCMD page whose fields have been written. A reserved operation is a malformed one. -/
def groupCommand (s : State) (p : Nat) : State :=
  let o := cnvOff p
  let op := regField s o 29 27
  let g := regField s o 23 16
  let ctx := regField s o 15 8
  let img := regField s (o + 4) 31 7 * 128 + regField s (o + 8) 23 0 * 2 ^ 32
  let fin := fun (r : Nat × State) => setField r.2 o 26 24 r.1
  let owned := match getPart s p with | some x => x.channels.contains (g % 32) && x.contexts.contains ctx | none => false
  let fault := fun (f : AccFail) => fin (4, accessFault s ctx (srcOf 0 0) 0 f)
  if !owned then fin (3, s)
  else if op ≠ 4 && groupBusy s g then fin (1, s)
  else match op with
    | 1 => (match xRead s ctx img 64 with
      | .error f => fault f
      | .ok h => match xRead s ctx img (64 + 2 * min 4096 (fieldAt h 0 2)) with
        | .error f => fault f
        | .ok b => fin (groupLoad s p g ctx b))
    | 2 => fin (if (getGroup s g).isNone then (2, s) else (0, setGroup s g none))
    | 3 => (match getGroup s g with
      | none => fin (2, s)
      | some e => fin (0, setGroup s g (some { e with seq := 0, sendSeq := [], recvSeq := [], broken := false })))
    | 4 => (match getGroup s g with
      | none => fin (2, s)
      | some e => match xWrite s ctx img (groupBytes e) with
        | .error f => fault f
        | .ok s1 => fin (0, s1))
    | _ => fin (4, s)

end Sys2Proof.Machine
end

