-- ==== Sys2Proof/Machine/StreamOps.lean ====
section
/-! DEFINITION. The caravan engine: KV_SHIP (R322 to R325), its messages (R326, R327), taking and sending pages (R323, R329 to
R331), the replies (R325, R328, R330, R335), and the release of a frozen stream (R474). -/

namespace Sys2Proof.Machine

/-! ## Stream registers (R334) -/

/-- CAR_STREAM_CFG of a stream. -/
def carCfg (st : Nat) : Nat := 0x600008 + 0x10 * st
/-- Pages that a stream may have unacknowledged: a dock's slots bound them too (R329). -/
def window (s : State) (st : Nat) : Nat :=
  let w := max 1 (regField s (carCfg st) 31 24)
  let x := getStream s st
  if x.destKind = 0 then w else min w x.dockSlots
/-- Attempts after the first. -/
def maxAttempts (s : State) (st : Nat) : Nat := max 1 (regField s (carCfg st) 23 20)

/-- The partition whose range holds a stream. -/
def partOfStream (s : State) (st : Nat) : Option Partition :=
  partWhere s (fun p => decide (p.streamFirst ≤ st) && decide (st < p.streamFirst + p.streamCount))

/-! ## Messages (R326, R327) -/

/-- A header with its CRC over itself and the payload. -/
def withCrc (h payload : List Byte) : List Byte := putAt h 52 (leBytes 4 (crc32c (h ++ payload)).toNat)

/-- The common fields of a header. -/
def carHead (s : State) (st type : Nat) : List Byte :=
  leBytes 1 type ++ leBytes 1 1 ++ zeros 2 ++ leBytes 2 s.fab.fid.toNat ++ leBytes 2 st ++ zeros 8

/-- The fields of one DATA message of a page. -/
structure DataMsg where
  key : Nat
  offset : Nat
  bytes : Nat
  index : Nat
  count : Nat
  image : Nat
  valid : Nat
  attempt : Nat
  crc : Nat
  deriving DecidableEq, Repr

/-- A DATA header. -/
def dataHead (s : State) (st : Nat) (m : DataMsg) (payload : List Byte) : List Byte :=
  withCrc (carHead s st 1 ++ leBytes 16 m.key ++ leBytes 4 m.offset ++ leBytes 2 m.bytes ++ leBytes 1 m.index ++ leBytes 1 m.count ++
    leBytes 4 m.image ++ leBytes 2 m.valid ++ leBytes 1 m.attempt ++ leBytes 1 0 ++ leBytes 4 m.crc ++ zeros 12) payload

/-- Sends a message over the fabric: its flow numbers it (R344). -/
def sendCar (s : State) (st dest : Nat) (h payload : List Byte) : State :=
  let s1 := emit s (.caravan dest h payload)
  { s1 with fab := { s1.fab with flowSent := tabMod 0 s1.fab.flowSent (dest * 65536 + flowOf (.stream st)) (· + 1) } }

/-- The DATA messages of a page (R327). -/
def sendData (s : State) (st : Nat) (f : Flight) (fill : Nat) (img : List Byte) : State :=
  let parts := chunksOf 4096 img
  (parts.zip (upFrom 0 parts.length)).foldl (fun t x =>
    let m : DataMsg := { key := f.key.toNat, offset := 4096 * x.2, bytes := x.1.length, index := x.2, count := parts.length
                         image := img.length, valid := fill, attempt := f.attempt, crc := f.crc.toNat }
    sendCar t st (getStream s st).destFid.toNat (dataHead t st m x.1) x.1) s

/-- `payload_bytes` of a dock's DATA header: the whole image; an image that the field's 16 bits cannot state leaves it open. -/
def dockBytes (s : State) (n : Nat) : Nat := if n < 65536 then n else (Config.freeWord s.fresh).toNat % 65536

/-! ## Signals of a stream -/

/-- An ADD of 1 by a stream (R324, R329). -/
def streamAdd (s : State) (st ctx code vid scope tag : Nat) : State :=
  if vid = 0 then s
  else sendOp s { code := code, ctx := ctx, vid := vid, scope := scope, amount := 1, issuer := .stream st
                  tag := BitVec.ofNat 32 tag, ord := 0, node := none, dest := 0 }

/-- The KV_SHIP in execution whose selection a pick belongs to notes in its journal entry what has been done (R333). -/
def noteShip (s : State) (q : Nat) (f : JEntry → JEntry) : State :=
  modQ s q (fun u => { u with journal := u.journal.map (fun e => if e.life = .issued && e.shipped then f e else e) })

/-- The signal of a dock slot that the journal shows as performed already (R333). -/
def dockSigned (s : State) (q i : Nat) : Bool :=
  (getQ s q).journal.any (fun e => e.life = .issued && e.ops.any (fun o => o.1 = .stream 0 && o.2.1 = i))

/-! ## Sending a page -/

/-- SHIP_NACK (R338). -/
def shipNack (s : State) (st : Nat) (k : Pick) (reason attempt : Nat) : State :=
  let x := getStream s st
  raiseEvent s 0x0502 (if reason = 5 then 1 else 2) (qCtx s k.queue) (srcOf 7 st)
    (leBytes 4 k.tag.toNat ++ leBytes 1 reason ++ leBytes 1 attempt ++ leBytes 2 st ++ leBytes 4 k.index ++
      leBytes 2 x.destFid.toNat ++ leBytes 1 x.destKind.toNat ++ zeros 1)

/-- SHIP_TIMEOUT (R338). -/
def shipTimeout (s : State) (st : Nat) (k : Pick) (attempts : Nat) : State :=
  let x := getStream s st
  raiseEvent s 0x0503 2 (qCtx s k.queue) (srcOf 7 st)
    (leBytes 4 k.tag.toNat ++ leBytes 1 attempts ++ leBytes 1 0 ++ leBytes 2 st ++ leBytes 4 k.index ++
      leBytes 2 x.destFid.toNat ++ leBytes 1 x.destKind.toNat ++ zeros 1)

/-- Freezes a stream. -/
def freezeStream (s : State) (st code : Nat) : State := freeze s 5 st (partIdx (partOfStream s st)) code

/-- The pick of a page of a stream that is being shipped. -/
def pickOf (s : State) (st i : Nat) : Pick :=
  ((getStream s st).picks.find? (fun k => k.index = i && k.taken && !k.done)).getD
    (((getStream s st).picks.find? (fun k => k.index = i)).getD ⟨i, 0, 0, 0, 0, 0, true, true, true⟩)

/-- Bytes of a page from its frame, or from its swap slot while it is SWAPPED (R310). -/
def pageBytes (s : State) (p : Partition) (e : WayEntry) (a n : Nat) : List Byte :=
  if e.state = 5 then gBytes s (swapAddr s p e.loc + a) n else frameRead s p e.loc a n

/-- Writes the page of a flight into its dock slot, then adds to `dock_tally` (R329). -/
def writeDock (s : State) (st : Nat) (k : Pick) (f : Flight) (p : Partition) (fill : Nat) (img : List Byte) : State :=
  let x := getStream s st
  let m : DataMsg := { key := f.key.toNat, offset := 0, bytes := dockBytes s img.length, index := 0, count := 1
                       image := img.length, valid := fill, attempt := f.attempt, crc := f.crc.toNat }
  let h := dataHead s st m img
  if heldBack s x.dockCtx (srcOf 7 st) k.tag.toNat then s
  else match xWrite s x.dockCtx (x.dockAddr + f.slot * p.frameUnits * 128) (h ++ img) with
  | .error e => waitFault s x.dockCtx (srcOf 7 st) k.tag.toNat e
  | .ok s1 =>
    if dockSigned s1 k.queue f.index then drawn s1
    else streamAdd (noteShip (drawn s1) k.queue (fun e => { e with ops := e.ops ++ [(.stream 0, f.index, 0)] })) st x.dockCtx 19
      x.dockTally 4 k.tag.toNat

/-- Sends a page in flight: an image with a word that cannot be corrected is not sent (R331). -/
def sendFlight (s : State) (st : Nat) (f : Flight) : State :=
  let e := getWay s f.index
  let k := pickOf s st f.index
  match poolOf s f.index with
  | none => s
  | some p =>
    match (if e.state = 5 then none else frameBad s p e.loc 0 (imageBytes e.kfmt)) with
    | some b => freezeStream (shipNack (uncorrEvent s (qCtx s k.queue) (srcOf 7 st) k.tag.toNat (whereFound s b) 2 b) st k 8 f.attempt) st 0x0502
    | none =>
      let img := pageBytes s p e 0 (imageBytes e.kfmt)
      let s1 := addCtr s 11 st (if f.attempt = 0 then 0 else 2) 1
      if (getStream s st).destKind = 0 then sendData s1 st f e.fill img else writeDock s1 st k f p e.fill img

/-- Changes a flight. -/
def modFlight (s : State) (st i : Nat) (g : Flight → Flight) : State :=
  modStream s st (fun x => { x with flights := x.flights.map (fun f => if f.index = i then g f else f) })

/-- Changes byte 22 of the trailer of a page, wherever the page is. -/
def setKept (s : State) (i v : Nat) : State :=
  let e := getWay s i
  match poolOf s i with
  | none => s
  | some p =>
    if e.state = 5 then gWrite s (swapAddr s p e.loc + imageBytes e.kfmt + 22) (leBytes 1 v)
    else frameWrite s p e.loc (imageBytes e.kfmt + 22) (leBytes 1 v)

/-- `ships` falls by one; at 0 a SHIPPING page takes the state its trailer keeps, and a swap slot may be freed (R310). -/
def lowerShips (s : State) (i : Nat) : State :=
  let e := getWay s i
  let n := e.ships - 1
  let st := if n = 0 && e.state = 3 then (match poolOf s i with | some p => keptState s p e | none => 2) else e.state
  freeSlots (setWay s i { e with ships := n, state := st })

/-- A KV_SHIP that waits for a page waits for it no longer. -/
def unwait (s : State) (q i : Nat) : State :=
  modRun s q (fun r => match r.work with | .ship w m => { r with work := .ship (w.filter (· ≠ i)) m } | _ => r)

/-- The shipment of a page ends. -/
def endFlight (s : State) (st i : Nat) : State :=
  let k := pickOf s st i
  unwait (lowerShips (modStream s st (fun x => { x with
    flights := x.flights.filter (fun f => f.index ≠ i)
    picks := x.picks.map (fun y => if y.index = i && y.taken then { y with done := true } else y) })) i) k.queue i

/-- An acknowledgement ends the shipment of a page (R310, R324, R333); the first one of each selected page counts. -/
def ackPage (s : State) (st i : Nat) : State :=
  let x := getStream s st
  match x.flights.find? (fun f => f.index = i) with
  | none => s
  | some f =>
    let k := pickOf s st i
    let fresh := !k.signed
    let s1 := if fresh then noteShip (modStream s st (fun y => { y with
        acked := y.acked + 1, keys := if y.keys.contains f.key then y.keys else y.keys ++ [f.key]
        picks := y.picks.map (fun z => if z = k then { z with signed := true } else z) })) k.queue
        (fun e => { e with acks := e.acks ++ [i] }) else s
    let s2 := endFlight (setKept s1 i 4) st i
    if fresh then streamAdd (addCtr s2 11 st 1 1) st (qCtx s k.queue) 18 k.tally k.scope k.tag.toNat else s2

/-- Sends a page again with `attempt` raised, or gives up (R330). -/
def resend (s : State) (st i : Nat) : State :=
  match (getStream s st).flights.find? (fun f => f.index = i) with
  | none => s
  | some f =>
    if maxAttempts s st < f.attempt + 1 then freezeStream (shipTimeout s st (pickOf s st i) (f.attempt + 1)) st 0x0503
    else
      let g := { f with attempt := f.attempt + 1, deferred := false }
      sendFlight (modFlight s st i (fun _ => g)) st g

/-! ## KV_SHIP (R322, R323) -/

/-- Destination fields of the packet equal those bound to the stream. -/
def sameDest (x : Stream) (p : List Byte) : Bool :=
  decide (x.destFid.toNat = fieldAt p 40 2 % 16384) && decide (x.destKind.toNat = fieldAt p 42 1) &&
    decide (x.dockAddr = fieldAt p 48 8) && decide (x.dockSlots = fieldAt p 56 2) && decide (x.dockTally = fieldAt p 60 2)

/-- The checks of its fields. -/
def shipForm (p : List Byte) : Option CheckFail :=
  let k := fieldAt p 42 1
  let its := fieldFail 31 (fieldAt p 22 2) 0
  firstFail [headerCheck p,
    rsvCheck p [⟨22, 2, 0x1C00, 31⟩, ⟨32, 4, 0xFF000000, 32⟩, ⟨40, 2, 0xC000, 31⟩, rsvAll 43 1 15, ⟨46, 1, 0xF8, 31⟩, rsvAll 47 1 15,
      rsvAll 58 2 15, rsvAll 62 2 15, sigRsv 64, sigRsv 68, rsvAll 72 56 15],
    need (decide (k ≤ 2)) its,
    need (decide (fieldAt p 46 1 % 8 ≤ 4)) its,
    need (if k = 0 then fieldAt p 48 8 = 0 && fieldAt p 56 2 = 0 && fieldAt p 60 2 = 0
      else decide (fieldAt p 48 8 ≠ 0) && fieldAt p 48 8 % 128 = 0 && addrOk (fieldAt p 48 8) && decide (fieldAt p 56 2 ≠ 0) &&
        decide (fieldAt p 60 2 ≠ 0)) its,
    sigCheck p 64, sigCheck p 68]

/-- The stream and the sequence it names. -/
def shipCheck (s : State) (ctx : Nat) (p : List Byte) (again : Bool) : Option CheckFail :=
  let w := fieldAt p 22 2
  let x := getStream s (w % 1024)
  let its := fieldFail 31 w 0
  firstFail [shipForm p,
    need (match partOfCtx s ctx with
      | some pt => decide (pt.streamFirst ≤ w % 1024) && decide (w % 1024 < pt.streamFirst + pt.streamCount)
      | none => false) (placeFail 31 0xFFFFFFFF),
    need (seqOn s ctx (fieldAt p 16 6)).isSome handleFail,
    (match seqOn s ctx (fieldAt p 16 6) with | some y => selCheck (selOf p) y.2 | none => none),
    need (again || (if bitOf w 15 then x.state = 0 else x.state = 1 && sameDest x p)) its,
    need (fieldAt p 42 1 = 0 || (match getTally s ctx (fieldAt p 60 2) with | some t => t.scope = 4 | none => false)) its]

/-- The page may be taken by a stream: sealed or later, SWAPPED included. -/
def takeable (st : Nat) : Bool := decide (2 ≤ st) && decide (st ≤ 6)

/-- Binds the destination of a stream that opens. -/
def openStream (ctx : Nat) (p : List Byte) (x : Stream) : Stream :=
  if bitOf (fieldAt p 22 2) 15 then
    ({ state := 1, destKind := BitVec.ofNat 2 (fieldAt p 42 1), destFid := BitVec.ofNat 14 (fieldAt p 40 2), dockAddr := fieldAt p 48 8
       dockSlots := fieldAt p 56 2, dockTally := fieldAt p 60 2, dockCtx := ctx } : Stream)
  else x

/-- Records the selection with the stream: pages that are eligible already take the next turn, the others wait. -/
def recordShip (s : State) (q : Nat) (p : List Byte) (pages : List Nat) : State :=
  let st := fieldAt p 22 2 % 1024
  let tag := BitVec.ofNat 32 (pkTag p)
  let s1 := modStream s st (fun x =>
    let y := openStream (qCtx s q) p x
    { y with
      state := if bitOf (fieldAt p 22 2) 14 then 2 else 1
      closer := if bitOf (fieldAt p 22 2) 14 then (q, tag) else y.closer
      handle := BitVec.ofNat 48 (fieldAt p 16 6)
      turns := y.turns + 1
      picks := y.picks ++ pages.map (fun i => ⟨i, q, tag, fieldAt p 44 2, fieldAt p 46 1 % 8,
        if takeable (getWay s i).state then y.turns + 1 else 0, false, false, false⟩) })
  modQ s1 q (fun u => { u with journal := u.journal.map (fun e => if e.life = .issued then { e with shipped := true } else e) })

/-- What a KV_SHIP with `wait_ack` waits for: the pages of its selection that are not done, and the manifest. -/
def shipWork (s : State) (q : Nat) (p : List Byte) : Work :=
  let w := fieldAt p 22 2
  let x := getStream s (w % 1024)
  if bitOf w 13 then
    .ship ((x.picks.filter (fun k => k.queue = q && k.tag.toNat = pkTag p && !k.done)).map (·.index)) (bitOf w 14 && x.state = 2)
  else .ship [] false

/-- Every page in flight of a packet is sent in full again from `attempt` 0 (R333). -/
def resendAll (s : State) (st : Nat) (t : Flight → Bool) : State :=
  ((getStream s st).flights.filter t).foldl (fun u f =>
    let g := { f with attempt := 0, deferred := false }
    if isFrozen u 5 st then u else sendFlight (modFlight u st f.index (fun _ => g)) st g) s

/-- The order of keys in a manifest: layer, head, page index. -/
def keyBefore (a b : Nat) : Bool :=
  let f := fun x => (bitsOf x 59 48 * 4096 + bitsOf x 71 60) * 2 ^ 24 + bitsOf x 95 72
  decide (f a < f b)
/-- Inserts a key. -/
def insKey (x : Nat) : List Nat → List Nat
  | [] => [x]
  | y :: t => if keyBefore x y then x :: y :: t else y :: insKey x t
/-- The keys that a manifest lists: those acknowledged for the handle. -/
def manifestKeys (x : Stream) : List Nat :=
  ((x.keys.map (·.toNat)).filter (fun k => k % 2 ^ 48 = x.handle.toNat)).foldr insKey []

/-- The parts of a manifest: up to 256 keys each, at least one part. -/
def manifestParts (l : List Nat) : List (List Nat) := if l.isEmpty then [[]] else chunksOf 256 l

/-- One part as a message. -/
def manifestMsg (s : State) (st : Nat) (keys part : List Nat) (n parts : Nat) : List Byte × List Byte :=
  let all := (keys.map (leBytes 16)).flatten
  let pay := (part.map (leBytes 16)).flatten
  (withCrc (carHead s st 4 ++ leBytes 6 (getStream s st).handle.toNat ++ zeros 10 ++ leBytes 4 keys.length ++ leBytes 2 pay.length ++
    leBytes 2 n ++ leBytes 2 parts ++ zeros 2 ++ leBytes 4 (crc32c all).toNat ++ zeros 16) pay, pay)

/-- The page number that stands for part n of a manifest among a dock's flights. -/
def partNo (n : Nat) : Nat := 2 ^ 24 + n

/-- A manifest part that a dock slot holds unanswered is written there again. -/
def rewritePart (s : State) (st : Nat) (f : Flight) : State :=
  let x := getStream s st
  let keys := manifestKeys x
  let n := f.index - 2 ^ 24
  match (manifestParts keys)[n]?, partOfStream s st with
  | some part, some p =>
    let m := manifestMsg s st keys part n (manifestParts keys).length
    if heldBack s x.dockCtx (srcOf 7 st) 0 then s
    else match xWrite s x.dockCtx (x.dockAddr + f.slot * p.frameUnits * 128) (m.1 ++ m.2) with
      | .error e => waitFault s x.dockCtx (srcOf 7 st) 0 e
      | .ok s1 => streamAdd (modFlight s1 st f.index (fun g => { g with deferred := false })) st x.dockCtx 19 x.dockTally 4 0
  | _, _ => s

/-- Every unanswered manifest part is written again. -/
def rewriteParts (s : State) (st : Nat) : State :=
  ((getStream s st).flights.filter (fun f => decide (2 ^ 24 ≤ f.index))).foldl (fun t f =>
    if isFrozen t 5 st then t else rewritePart t st f) s

/-- KV_SHIP (R322): binds or checks its stream and records its selection; a re-run finds it recorded, and sends again what was
in flight (R333). -/
def execKvShip (q : QueueId) (s : State) : Ans :=
  onIssue s q (fun p => pkOp p = 0x28) (fun p =>
    let again := match (getQ s q).journal with | e :: _ => e.shipped | [] => false
    let st := fieldAt p 22 2 % 1024
    issueChecked s q p (shipCheck s (qCtx s q) p again)
      (match seqOn s (qCtx s q) (fieldAt p 16 6) with
        | none => s
        | some y =>
          let s1 := startRun s q (newRun s .finished)
          let s2 := if again then
              (let t := resendAll s1 st (fun f => decide (f.index < 2 ^ 24) && (pickOf s1 st f.index).queue = q)
               if bitOf (fieldAt p 22 2) 14 then rewriteParts t st else t)
            else recordShip s1 q p (selPages s y.1 (selOf p))
          modRun s2 q (fun r => { r with work := shipWork s2 q p })))

/-! ## Taking pages (R323) -/

/-- Picks in the order in which they are taken. -/
def beforePick (a b : Pick) : Bool := decide (a.turn < b.turn) || (decide (a.turn = b.turn) && decide (a.index < b.index))

/-- The pick that a stream takes next: eligible, and its page not in flight on this stream. -/
def nextPick (s : State) (st : Nat) : Option Pick :=
  bestOf beforePick ((getStream s st).picks.filter (fun k => !k.taken && decide (k.turn ≠ 0) && takeable (getWay s k.index).state &&
    !(getStream s st).flights.any (fun f => f.index = k.index)))

/-- A stream works: open or closing, not frozen. -/
def streamGoes (s : State) (st : Nat) : Bool :=
  devRuns s && decide ((getStream s st).state ≠ 0) && !isFrozen s 5 st && !handing s 22 && !(match s.cfg.apply with
    | none => false
    | some a => match partOfStream s st with | some p => a.changed.contains p.part | none => false)

/-- The page is taken: `ships` rises, and a settled page keeps its state in its trailer and is SHIPPING (R310). -/
def raiseShips (s : State) (i : Nat) : State :=
  let e := getWay s i
  if settled e.state then modWay (setKept s i e.state) i (fun y => { y with ships := y.ships + 1, state := 3 })
  else modWay s i (fun y => { y with ships := y.ships + 1 })

/-- STREAM_TAKE_PAGE (R323): the next eligible page within the window, with a free dock slot for a dock. -/
def execStreamTakePage (st : StreamId) (s : State) : Ans :=
  .next (
    let x := getStream s st
    match nextPick s st with
    | none => s
    | some k =>
      let slot := if x.destKind = 0 then 0 else x.dockNext % max 1 x.dockSlots
      let e := getWay s k.index
      if !streamGoes s st || decide (window s st ≤ x.flights.length) || e.ships = 255 ||
          (x.destKind ≠ 0 && x.flights.any (fun f => f.slot = slot)) then s
      else match poolOf s k.index with
        | none => s
        | some p =>
          let crc := leNat (pageBytes s p e (imageBytes e.kfmt + 16) 4)
          let f : Flight := { index := k.index, key := BitVec.ofNat 128 (keyOf s e), crc := BitVec.ofNat 32 crc, attempt := 0
                              slot := slot, deferred := false, tag := k.tag }
          let s1 := modStream (raiseShips s k.index) st (fun y => { y with
            dockNext := y.dockNext + 1
            flights := y.flights ++ [f]
            picks := y.picks.map (fun z => if z = k then { z with taken := true } else z) })
          sendFlight s1 st f)

/-! ## Manifests (R325, R329) -/

/-- The parts of a manifest for a dock, each into a slot whose last page has been answered; the rest when slots are free. -/
def dockManifest (s : State) (st : Nat) (keys : List Nat) : List (List Nat × Nat) → State
  | [] => modStream s st (fun x => { x with manifestSent := true })
  | (part, n) :: t =>
    let x := getStream s st
    let slot := x.dockNext % max 1 x.dockSlots
    if x.flights.any (fun f => f.slot = slot) || heldBack s x.dockCtx (srcOf 7 st) 0 then s
    else match partOfStream s st with
      | none => s
      | some p =>
        let m := manifestMsg s st keys part n (manifestParts keys).length
        match xWrite s x.dockCtx (x.dockAddr + slot * p.frameUnits * 128) (m.1 ++ m.2) with
        | .error e => waitFault s x.dockCtx (srcOf 7 st) 0 e
        | .ok s1 =>
          let s2 := modStream s1 st (fun y => { y with
            dockNext := y.dockNext + 1, parts := n + 1
            flights := y.flights ++ [⟨partNo n, 0, 0, 0, slot, false, 0⟩] })
          dockManifest (streamAdd s2 st x.dockCtx 19 x.dockTally 4 0) st keys t

/-- SEND_MANIFEST (R325): every page of every selection has ended its shipment. -/
def execSendManifest (st : StreamId) (s : State) : Ans :=
  .next (
    let x := getStream s st
    let keys := manifestKeys x
    let parts := manifestParts keys
    if !streamGoes s st || x.state ≠ 2 || x.manifestSent || x.picks.any (fun k => !k.done) ||
        x.flights.any (fun f => f.index < 2 ^ 24) then s
    else if x.destKind = 0 then
      (parts.zip (upFrom 0 parts.length)).foldl (fun t y =>
        let m := manifestMsg t st keys y.1 y.2 parts.length
        sendCar t st x.destFid.toNat m.1 m.2) (modStream s st (fun y => { y with manifestSent := true }))
    else dockManifest s st keys ((parts.zip (upFrom 0 parts.length)).drop x.parts))

/-- The stream is idle again: what waited for its manifest goes on. -/
def streamIdle (s : State) (st : Nat) : State :=
  let s1 := modStream s st (fun x => ({ acked := x.acked } : Stream))
  (s1.host.queues.map (·.1)).foldl (fun t q =>
    match curPacket t q with
    | none => t
    | some p =>
      if pkOp p = 0x28 && fieldAt p 22 2 % 1024 = st then
        modRun t q (fun r => match r.work with | .ship w _ => { r with work := .ship w false } | _ => r)
      else t) s1

/-- The page that holds a listed key still, at that very key. -/
def heldPage (s : State) (key : Nat) : Option Nat :=
  match seqOf s (key % 2 ^ 48) with
  | none => none
  | some y =>
    let i := pageIdx y.2 (bitsOf key 59 48) (bitsOf key 71 60) (bitsOf key 95 72)
    if (getWay s i).state ≠ 0 && keyOf s (getWay s i) = key then some i else none

/-- A manifest answered with status 1: every listed page still held is shipped again; one released meanwhile freezes the
stream (R325). -/
def shipAgain (s : State) (st : Nat) : State :=
  let x := getStream s st
  let keys := manifestKeys x
  let held := keys.filterMap (heldPage s)
  let s1 := modStream s st (fun y => { y with
    manifestSent := false, parts := 0, turns := y.turns + 1
    picks := y.picks ++ held.map (fun i => { pickOf s st i with taken := false, done := false, turn := y.turns + 1, signed := true }) })
  match keys.find? (fun k => (heldPage s k).isNone) with
  | none => s1
  | some key =>
    let i := match seqOf s (key % 2 ^ 48) with
      | some y => pageIdx y.2 (bitsOf key 59 48) (bitsOf key 71 60) (bitsOf key 95 72)
      | none => 0
    freezeStream (shipNack s1 st (pickOf s1 st i) 6 0) st 0x0502

/-! ## Replies (R328, R330) -/

/-- A reply counts for an open stream: its version is known, its CRC holds, and it comes from the stream's destination. -/
def replyFor (s : State) (src : Nat) (m : CaravanReply) : Bool :=
  m.version = 1 && m.crcOk && decide (m.stream.toNat < 1024) && decide ((getStream s m.stream.toNat).state ≠ 0) &&
    (getStream s m.stream.toNat).destKind = 0 && decide ((getStream s m.stream.toNat).destFid.toNat = src) &&
    !isFrozen s 5 m.stream.toNat

/-- The page in flight that a reply names. -/
def flightOf (s : State) (m : CaravanReply) : Option Flight :=
  (getStream s m.stream.toNat).flights.find? (fun f => f.key = m.key)

/-- CARAVAN_ACK (R330). -/
def execCaravanAck (src : Fid) (m : CaravanReply) (s : State) : Ans :=
  inbound s src.toNat (fun s =>
    if !replyFor s src.toNat m then s
    else match flightOf s m with
      | none => s
      | some f => serveKvAll (ackPage s m.stream.toNat f.index))

/-- A NACK by its reason (R328, R330); a reserved reason counts as 3. -/
def nackPage (s0 : State) (st : Nat) (f : Flight) (reason : Nat) : State :=
  let s := addCtr s0 11 st 3 1
  if reason = 1 then resend s st f.index
  else if reason = 2 then modFlight s st f.index (fun g => { g with deferred := true })
  else if reason = 5 then endFlight (shipNack s st (pickOf s st f.index) 5 f.attempt) st f.index
  else freezeStream (shipNack s st (pickOf s st f.index) (if reason = 4 then 4 else 3) f.attempt) st 0x0502

/-- CARAVAN_NACK (R330). -/
def execCaravanNack (src : Fid) (m : CaravanReply) (s : State) : Ans :=
  inbound s src.toNat (fun s =>
    if !replyFor s src.toNat m then s
    else match flightOf s m with
      | none => s
      | some f => serveKvAll (nackPage s m.stream.toNat f m.code.toNat))

/-- MANIFEST_ACK (R325). -/
def execManifestAck (src : Fid) (m : CaravanReply) (s : State) : Ans :=
  inbound s src.toNat (fun s =>
    let st := m.stream.toNat
    let x := getStream s st
    if !replyFor s src.toNat m || x.state ≠ 2 || !x.manifestSent || decide (m.key.toNat % 2 ^ 48 ≠ x.handle.toNat) then s
    else if m.code = 0 then streamIdle s st
    else if m.code = 1 then shipAgain s st else s)

/-- RETRANSMIT_TIMEOUT (R330): the timer of a page that is not deferred expires. -/
def execRetransmitTimeout (st : StreamId) (w : BitVec 24) (s : State) : Ans :=
  .next (
    if !streamGoes s st || !(getStream s st).flights.any (fun f => f.index = w.toNat && !f.deferred) then s
    else resend s st w.toNat)

/-- RETRY_AFTER_EXPIRY (R330): a deferred page is sent again with the same `attempt`. A manifest part that a dock deferred is
written again in the same way; `w` is then the number of the part, since no page is in flight beside it (DEDUCED). -/
def execRetryAfterExpiry (st : StreamId) (w : BitVec 24) (s : State) : Ans :=
  .next (
    if !streamGoes s st then s
    else match (getStream s st).flights.find? (fun f => (f.index = w.toNat || f.index = partNo w.toNat) && f.deferred) with
      | none => s
      | some f =>
        if 2 ^ 24 ≤ f.index then rewritePart s st f
        else
        let g := { f with deferred := false }
        sendFlight (modFlight s st w.toNat (fun _ => g)) st g)

/-! ## Docks (R329, R335) -/

/-- The function bound to a stream's port. -/
def dockFn (s : State) (st : Nat) : Nat :=
  let x := getStream s st
  hostFn s x.dockCtx (x.destKind.toNat - 1)

/-- A part of a manifest is answered; when every part has been written and answered, the manifest is acknowledged. -/
def ackPart (s : State) (st i : Nat) : State :=
  let s1 := modStream s st (fun x => { x with flights := x.flights.filter (fun f => f.index ≠ i) })
  if (getStream s1 st).manifestSent && (getStream s1 st).flights.isEmpty then streamIdle s1 st else s1

/-- A part of a manifest is refused: reason 2 defers it, reason 3 freezes the stream. The record names no page, so its index is
open. -/
def nackPart (s0 : State) (st : Nat) (f : Flight) (reason : Nat) : State :=
  let s := addCtr s0 11 st 3 1
  if reason = 2 then modFlight s st f.index (fun g => { g with deferred := true })
  else
    let x := getStream s st
    freezeStream (shipNack (drawn s) st
      ⟨(Config.freeWord s.fresh).toNat % 2 ^ 24, x.closer.1, x.closer.2, 0, 0, 0, true, true, true⟩ 3 0) st 0x0502

/-- What a write to CAR_DOCK_ACK does: kind 1 acknowledges the page of a slot, 2 and 3 refuse it. -/
def dockAnswer (s : State) (st kind slot : Nat) : State :=
  let x := getStream s st
  if x.state = 0 || x.destKind = 0 || isFrozen s 5 st then s
  else match x.flights.find? (fun f => f.slot = slot) with
    | none => s
    | some f =>
      if kind = 0 then s
      else if 2 ^ 24 ≤ f.index then (if kind = 1 then ackPart s st f.index else nackPart s st f kind)
      else if kind = 1 then serveKvAll (ackPage s st f.index)
      else serveKvAll (nackPage s st f kind)

/-! ## Release (R324, R330, R474) -/

/-- A KV_SEAL waits to release or renew the page. -/
def releaseAsked (s : State) (i : Nat) : Bool :=
  s.host.queues.any (fun q => match q.2.run with
    | some r => (match r.work with | .sealing t => t.contains i | _ => false)
    | none => false)

/-- Resume: pages whose release has been asked for meanwhile end their shipment, every other unacknowledged page is sent again
from `attempt` 0. -/
def resumeStream (s : State) (st : Nat) : State :=
  let s1 := unfreeze s 5 st
  let gone := ((getStream s1 st).flights.filter (fun f => decide (f.index < 2 ^ 24) && releaseAsked s1 f.index)).map (·.index)
  let s2 := gone.foldl (fun t i => endFlight t st i) s1
  rewriteParts (resendAll (serveKvAll s2) st (fun f => f.index < 2 ^ 24)) st

/-- Discard: the stream goes idle, unacknowledged pages end their shipment, and a KV_SHIP that waits ends ABORTED. -/
def discardStream (s : State) (st : Nat) : State :=
  let s1 := unfreeze s 5 st
  let s2 := (((getStream s1 st).flights.filter (fun f => f.index < 2 ^ 24)).map (·.index)).foldl (fun t i => endFlight t st i) s1
  let s3 := modStream s2 st (fun x => ({ acked := x.acked } : Stream))
  serveKvAll ((s3.host.queues.map (·.1)).foldl (fun t q =>
    match curPacket t q with
    | none => t
    | some p =>
      if pkOp p = 0x28 && fieldAt p 22 2 % 1024 = st && bitOf (fieldAt p 22 2) 13 then completePacket t q 0x0020 else t) s3)

end Sys2Proof.Machine
end

