-- ==== Sys2Proof/Machine/SwapOps.lean ====
section
/-! DEFINITION. Frames given to stalled requesters, swap-out and swap-in (R316 to R320). -/

namespace Sys2Proof.Machine

/-- Starts a swap-in into a frame. -/
def startSwapIn (s : State) (p : Partition) (q i frame : Nat) : State :=
  { s with kv := { s.kv with swaps := s.kv.swaps ++ [⟨i, p.part, (getWay s i).loc, frame, true, q⟩] } }

/-- The tag of the packet of a queue. -/
def queueTag (s : State) (q : Nat) : Nat := match curPacket s q with | some p => pkTag p | none => 0

/-- The requester of a stall goes on with the frame it has been given. -/
def stallGoes (s : State) (t : Stall) (p : Partition) (f : Nat) : State :=
  if t.kind = 4 then
    startSwapIn { s with kv := { s.kv with stalls := s.kv.stalls.filter (fun u => !(u.queue = t.queue && u.kind = 4 && u.index = t.index)) } }
      p t.queue t.index f
  else serveKv s t.queue

/-- FRAME_GRANT (R316, R319): the oldest stalled requester of the partition takes a free frame; its queue, frozen for want of
one, is released and reports it. -/
def execFrameGrant (p : PartId) (s : State) : Ans :=
  .next (
    match getPart s p.val with
    | none => s
    | some pt =>
      match s.kv.stalls.find? (fun t => t.part = p.val && t.frame.isNone), pickFree s pt.frames (usedFrames s pt) with
      | some t, some f =>
        if !devRuns s then s
        else
          let s1 := drawn { s with kv := { s.kv with stalls := s.kv.stalls.map (fun u =>
            if u = t then { u with frame := some f } else u) } }
          let s2 := if isFrozen s1 8 t.queue then
              exhausted (unfreeze s1 8 t.queue) t.queue (queueTag s1 t.queue) t.kind 4 0xFFFF 0 t.seqSlot
            else s1
          stallGoes s2 t pt f
      | _, _ => s)

/-- Requesters that wait while nothing more can free a frame look for a victim again, or are frozen (R318, R319). -/
def relieveNext (s : State) (p : Partition) : State :=
  match s.kv.stalls.find? (fun t => t.part = p.part && t.frame.isNone) with
  | none => s
  | some t =>
    if framesFree s p = 0 && !swapPending s p && !isFrozen s 8 t.queue then relieve s p t.queue (queueTag s t.queue) t.kind t.seqSlot false
    else s

/-- The frame as it is written to the swap slot: byte 22 holds the state to restore (R310). -/
def swapImage (s : State) (p : Partition) (e : WayEntry) : List Byte :=
  let b := frameRead s p e.loc 0 (p.frameUnits * 128)
  if e.state = 3 then b else putAt b (imageBytes e.kfmt + 22) (leBytes 1 e.state)

/-- A swap-out ends: a frame that cannot be read stays resident (R318), else the page is SWAPPED and the frame free. -/
def finishSwapOut (s : State) (p : Partition) (w : Swap) : State :=
  let e := getWay s w.index
  let s0 := { s with kv := { s.kv with swaps := s.kv.swaps.filter (fun x => x ≠ w) } }
  match frameBad s p e.loc 0 (imageBytes e.kfmt + 128) with
  | some b =>
    let s1 := { s0 with kv := { s0.kv with noSwap := s0.kv.noSwap ++ [w.index] } }
    relieveNext (uncorrEvent (freeSlots s1) (qCtx s w.queue) (srcOf 3 w.queue) 0 1 2 b) p
  | none =>
    setWay (gWrite s0 (swapAddr s p w.slot) (swapImage s p e)) w.index { e with state := 5, loc := w.slot }

/-- SWAP_OUT_DONE (R318): the write of a page to its swap slot has been performed. -/
def execSwapOutDone (w : BitVec 24) (s : State) : Ans :=
  .next (
    match s.kv.swaps.find? (fun x => x.index = w.toNat && !x.inward) with
    | none => s
    | some x => match getPart s x.part with
      | none => s
      | some p => if devRuns s then finishSwapOut s p x else s)

/-- SWAP_IN (R120, R320): a reader of queue q needs a SWAPPED page; it takes a frame, or its packet waits for one. -/
def execSwapIn (q : QueueId) (w : BitVec 24) (s : State) : Ans :=
  .next (
    let i := w.toNat
    match poolOf s i with
    | none => s
    | some p =>
      if !queueGoes s q || !s.kv.readers.contains (q.val, i) || (getWay s i).state ≠ 5 || swapping s i ||
          s.kv.stalls.any (fun t => t.kind = 4 && t.index = i) then s
      else match takeFrame s p q (queueTag s q) 4 i (getWay s i).slot with
        | (none, s1) => s1
        | (some f, s1) => startSwapIn s1 p q i f)

/-- A swap-in ends: a CRC that fails ends its reader REPLAY_REQUIRED; else the state kept in the trailer is restored, SHIPPING
while streams ship the page (R320). -/
def finishSwapIn (s : State) (p : Partition) (w : Swap) : State :=
  let e := getWay s w.index
  let s0 := { s with kv := { s.kv with swaps := s.kv.swaps.filter (fun x => x ≠ w) } }
  let b := gBytes s (swapAddr s p w.slot) (p.frameUnits * 128)
  let n := imageBytes e.kfmt
  if crc32c (b.take n) ≠ BitVec.ofNat 32 (fieldAt b (n + 16) 4) then
    (if (getQ s w.queue).run.isSome && s.kv.readers.contains (w.queue, w.index) then replayPacket s0 w.queue else s0)
  else
    freeSlots (setWay (frameWrite s0 p w.frame 0 b) w.index
      { e with state := if e.ships = 0 then fieldAt b (n + 22) 1 else 3, loc := w.frame })

/-- SWAP_IN_DONE (R320). -/
def execSwapInDone (w : BitVec 24) (s : State) : Ans :=
  .next (
    match s.kv.swaps.find? (fun x => x.index = w.toNat && x.inward) with
    | none => s
    | some x => match getPart s x.part with
      | none => s
      | some p => if devRuns s then finishSwapIn s p x else s)

end Sys2Proof.Machine
end

