-- ==== Sys2Proof/Machine/Faces.lean ====
section
/-! DEFINITION. The memory as others see it: BAR2 (R194, R195), refused and configuration requests (R373, R446), invalidations
(R189), refetches (R201), the scrubber and the retirement of pseudo-channels (R200, R465, R466). -/

namespace Sys2Proof.Machine

/-! ## BAR2 (R194) -/

/-- The index of an inbound PCIe requester among frozen masters (R474): port, function, requester ID. -/
def pcieIdx (fn : Nat) (rid : BitVec 16) : Nat := (fn / 32) * 2 ^ 22 + fn % 32 * 2 ^ 17 + rid.toNat

/-- Answers a request. -/
def complete (s : State) (fn : Nat) (rid : BitVec 16) (status : Nat) (data : List Byte) : State := emit s (.completion fn rid status data)

/-- A refused request: its event, and the requester frozen on that function. -/
def refuseBar2 (s : State) (fn : Nat) (rid : BitVec 16) (off : Nat) (wr : Bool) : State :=
  let s1 := raiseEvent s 0x0303 2 0xFF (srcOf 10 fn) (windowDetail 0 wr off)
  freeze s1 6 (pcieIdx fn rid) (partIdx (partOfFn s fn)) 0x0303

/-- Local pieces of a BAR2 access: none where the partition does not hold them, or a write would touch an origin-backed
region. -/
def bar2Pieces (s : State) (fn off n : Nat) (wr : Bool) : Option (List (Nat × Nat)) :=
  match partOfFn s fn with
  | none => none
  | some p =>
    let x := regField s (0x709000 + 4 * fn) 31 22 * 2 ^ 30 + off
    let l := if n = 0 then [] else partPieces p x n
    if decide (x + n ≤ allocSize p) && l.all (fun y => inAlloc s p y.1 && inAlloc s p (y.1 + y.2 - 1) && !(wr && touchesOrigin s y.1 y.2)) then
      some l
    else none

/-- Serves a read: its data, a wait for a refetch, or Completer Abort. -/
def serveRead (s : State) (r : WaitRead) : State :=
  match bar2Pieces s r.fn r.off r.len false with
  | none => complete (refuseBar2 s r.fn r.rid r.off false) r.fn r.rid 1 []
  | some l => match l.findSome? (fun y => badBurst s y.1 y.2) with
    | none =>
      complete (l.foldl (fun t y => correctRange t y.1 y.2) s) r.fn r.rid 0
        ((l.map (fun y => localRead s y.1 y.2)).flatten)
    | some b =>
      if refetching s b || (originOf s b).isSome then
        let s1 := (uncorrectable s 0xFF (srcOf 10 r.fn) 0 none b).2
        { s1 with mem := { s1.mem with reads := s1.mem.reads ++ [r] } }
      else complete (uncorrEvent s 0xFF (srcOf 10 r.fn) 0 (whereFound s b) 4 b) r.fn r.rid 4 []

/-- The function answers through BAR2: the device runs, the function belongs to a partition, and the requester is not frozen. -/
def bar2Open (s : State) (fn : Nat) (rid : BitVec 16) : Bool :=
  s.dev.ready && s.dev.powered && !devFrozen s && (partOfFn s fn).isSome && !isFrozen s 6 (pcieIdx fn rid)

/-- BAR2_READ (R194). -/
def execBar2Read (f : FnId) (rid : BitVec 16) (off : BitVec 40) (len : Nat) (s : State) : Ans :=
  .next (if bar2Open s f rid then serveRead s ⟨f, rid, off.toNat, len⟩ else complete s f rid 1 [])

/-- BAR2_WRITE (R194). -/
def execBar2Write (f : FnId) (rid : BitVec 16) (off : BitVec 40) (data : List Byte) (s : State) : Ans :=
  .next (
    if !bar2Open s f rid then complete s f rid 1 []
    else match bar2Pieces s f off.toNat data.length true with
      | none => complete (refuseBar2 s f rid off.toNat true) f rid 1 []
      | some l => writePieces s l data)

/-! ## Other requests -/

/-- UNSUPPORTED_REQUEST (R373). -/
def execUnsupportedRequest (f : FnId) (rid : BitVec 16) (s : State) : Ans := .next (complete s f rid 1 [])

/-- PCIE_CONFIG_REQUEST (R446): retry status until Ready, except in recovery; afterwards it is served. What a register of the
configuration space holds is not in the spec: a free value. -/
def execPcieConfigRequest (f : FnId) (off : BitVec 12) (s : State) : Ans :=
  .next (
    if !s.dev.powered || (s.dev.perst[f.val / 32]?).getD false then s
    else if s.dev.ready || s.dev.recovery then
      complete (drawn s) f 0 0 (leBytes 4 ((Config.freeWord s.fresh).toNat / 256 ^ (off.toNat % 4)))
    else complete s f 0 2 [])

/-! ## Invalidations (R189) -/

/-- A cached entry of a context that an invalidation of `[va, va + n)` removes: its region of the address space meets it. -/
def inRange (va n : Nat) (c : Cached) : Bool :=
  let z := 2 ^ lvlLow c.level
  decide (c.va / z * z < va + n) && decide (va < c.va / z * z + z)

/-- Starts an invalidation of a context: what is removed is removed at once; none starts while one is in progress. -/
def startInval (s : State) (ctx : Nat) : State :=
  if s.mem.invals.any (fun i => i.ctx = ctx) then s
  else
    let o := xltOff ctx
    let k := regField s (o + 0xC) 29 28
    let va := regField s (o + 0xC) 27 20 * 2 ^ 48 + regField s (o + 0x10) 31 0 * 2 ^ 16
    let pages := regField s (o + 0xC) 19 0
    let n := (if pages = 0 then 2 ^ 20 else pages) * 2 ^ 16
    { s with mem := { s.mem with
      cache := s.mem.cache.filter (fun c => !(c.ctx = ctx && (decide (k ≠ 1) || inRange va n c)))
      invals := s.mem.invals ++ [⟨ctx⟩] } }

/-- INVALIDATION_DONE (R189). -/
def execInvalidationDone (ctx : CtxId) (s : State) : Ans :=
  .next (if devRuns s then { s with mem := { s.mem with invals := s.mem.invals.filter (fun i => i.ctx ≠ ctx) } } else s)

/-- The PASID of a context's host accesses (R190). -/
def ctxPasid (s : State) (ctx : Nat) : Option (BitVec 20) :=
  if regField s (xltOff ctx + 8) 31 31 = 1 then some (BitVec.ofNat 20 (regField s (xltOff ctx + 8) 19 0)) else none

/-- ATS_INVALIDATE (R189): cached host translations of the range are removed. -/
def execAtsInvalidate (p : HostPort) (pasid : Option (BitVec 20)) (addr : BitVec 54) (bytes : Nat) (s : State) : Ans :=
  .next { s with mem := { s.mem with atsCache := s.mem.atsCache.filter (fun e =>
    !(e.2.1 = p && ctxPasid s e.1 = pasid && decide (e.2.2 * 4096 < addr.toNat + bytes) && decide (addr.toNat < e.2.2 * 4096 + 4096))) } }

/-! ## Refetches (R201) -/

/-- A refetch that fails: its consumer's packet ends REPLAY_REQUIRED; without a consumer it is only recorded. -/
def refetchFails (s : State) (r : Refetch) : State :=
  let w := r.place
  match r.issuer with
  | none =>
    let mine := s.mem.reads.filter (fun x => match bar2Pieces s x.fn x.off x.len false with
      | some l => l.any (fun y => decide (y.1 < r.burst + 128) && decide (r.burst < y.1 + y.2))
      | none => false)
    if mine.isEmpty then uncorrEvent s 0xFF r.src 0 w 2 r.burst
    else
      mine.foldl (fun t x => complete (uncorrEvent t 0xFF (srcOf 10 x.fn) 0 w 4 r.burst) x.fn x.rid 4 [])
        { s with mem := { s.mem with reads := s.mem.reads.filter (fun x => !mine.contains x) } }
  | some i =>
    let o := match i with | .chan x => (match getChan s x with | some c => c.owner | none => i) | i => i
    let s1 := uncorrEvent s r.ctx r.src r.tag.toNat w 1 r.burst
    match issuerQueue s o with
    | none => s1
    | some _ => replayOwner s1 o

/-- REFETCH_DONE (R201): the burst from the origin replaces the local copy; what waited for it goes on. -/
def execRefetchDone (n : Nat) (ok : Bool) (data : List Byte) (s : State) : Ans :=
  .next (
    match s.mem.refetches[n]? with
    | none => s
    | some r =>
      if !devRuns s then s
      else
        let s1 := { s with mem := { s.mem with refetches := listDel s.mem.refetches n } }
        if !ok || decide (data.length ≠ 128) then refetchFails s1 r
        else
          let s2 := memWrite (uncorrEvent s1 r.ctx r.src r.tag.toNat r.place 0 r.burst) r.burst data
          s2.mem.reads.foldl serveRead { s2 with mem := { s2.mem with reads := [] } })

/-! ## Pseudo-channels (R465, R466) -/

/-- Distinct bursts with uncorrectable words within the last 2^26 stages. -/
def badBursts (s : State) (k pc : Nat) : Nat :=
  ((((tabGet [] (getStack s k).uncorrectable pc).filter (fun x => s.stage.toNat < x.2.toNat + 2 ^ 26)).map (·.1)).eraseDups).length

/-- The pseudo-channel is past its error limit. -/
def pcFails (s : State) (k pc : Nat) : Bool :=
  !(getStack s k).retired.contains pc &&
    (decide (4 ≤ badBursts s k pc) || decide (65536 < (tabGet (0, 0) (getStack s k).corrected pc).2))

/-- Retires a pseudo-channel: the ninth on a stack is a device failure; else its contents are copied into the next range of
the yield zone. -/
def retirePc (s : State) (k pc : Nat) : State :=
  let n := (getStack s k).retired.length + 1
  if 8 < n then deviceFailure s (srcOf 9 (64 * k + pc)) 4 4 0xFF 0 n ((52 - n) * 1024)
  else
    unitRetired (modStack s k (fun x => { x with
      retired := x.retired ++ [pc], copying := some pc
      uncorrectable := tabPut [] x.uncorrectable pc [], corrected := tabPut (0, 0) x.corrected pc (0, 0) }))
      (srcOf 9 (64 * k + pc)) 4 4 0xFF 3 0 n ((52 - n) * 1024)

/-- Retires the first pseudo-channel of a stack that is past its limit, once no copy is under way. -/
def checkPcs (s : State) (k : Nat) : State :=
  if (getStack s k).copying.isSome || s.dev.failed then s
  else match (upFrom 0 64).find? (pcFails s k) with
    | none => s
    | some pc => retirePc s k pc

/-- Nothing of a range of GiB is left. -/
def loseGib (s : State) (k g : Nat) : State :=
  let a := k * 0x1000000000 + g * 2 ^ 30
  let z := 2 ^ 30
  { s with mem := { s.mem with
    cells := s.mem.cells.filter (fun c => !(decide (a ≤ c.1) && decide (c.1 < a + z)))
    errors := tabDrop (fun w => decide (a / 8 ≤ w) && decide (w < (a + z) / 8)) s.mem.errors } }

/-- PSEUDO_CHANNEL_COPY_DONE (R465): the range taken leaves the allocatable space, and what it held is lost. -/
def execPseudoChannelCopyDone (st : StackId) (pc : Fin 64) (s : State) : Ans :=
  .next (
    if (getStack s st).copying ≠ some pc.val || !unitsMove s then s
    else
      let n := (getStack s st).retired.length
      checkPcs (loseGib (modStack s st (fun x => { x with copying := none })) st (52 - n)) st)

/-! ## Scrubbing (R200) -/

/-- Bytes of a stack that the scrubber covers. -/
def stackBytes : Nat := 0xE38E00000

/-- An uncorrectable word that the scrubber finds, with no consumer (R201): refetched where it is origin-backed. -/
def scrubBad (s : State) (b : Nat) : State :=
  if refetching s b then s
  else
    let src := srcOf 9 (64 * (b / 0x1000000000) + pcAt b)
    match originOf s b with
    | some o => { s with mem := { s.mem with refetches := s.mem.refetches ++ [⟨b, o, none, 0, 0xFF, src, 8⟩] } }
    | none => uncorrEvent s 0xFF src 0 8 2 b

/-- SCRUB (R200): the next burst of the stack is read, corrected and counted. -/
def execScrub (st : StackId) (s : State) : Ans :=
  .next (
    if !devRuns s || !(getStack s st).trained || handing s (25 + st.val) then s
    else
      let off := (getStack s st).scrubAt
      let a := st.val * 0x1000000000 + off
      let s1 := modStack (addCtr s 5 (64 * st.val + pcAt a) 4 1) st (fun x => { x with scrubAt := (off + 128) % stackBytes })
      let s2 := correctRange s1 a 128
      checkPcs (if (badBurst s2 a 128).isSome then scrubBad s2 a else s2) st)

end Sys2Proof.Machine
end

