-- ==== Sys2Proof/Machine/PortOps.lean ====
section
/-! DEFINITION. Rolre ports: training (R346 to R349), lanes and width (R347, R348), the receiver's flit sequence and retries
(R341 to R343), the measurement of link delay (R355), and the epoch (R354 to R364). -/

namespace Sys2Proof.Machine

/-! ## Ports -/

/-- The image enables a Rolre port (R340, R433). -/
def portEnabled (s : State) (p : Nat) : Bool :=
  match s.cfg.image with | none => false | some i => i.rolrePorts.getLsbD p
/-- The reference clock pair of a port is missing (R489). -/
def refAbsent (s : State) (p : Nat) : Bool := (s.dev.refMissing[p / 8]?).getD false
/-- A port in Up. -/
def portUp (s : State) (p : Nat) : Bool := (getPort s p).state = 5
/-- Link layers run while the device is powered, frozen or not (R478). -/
def linksRun (s : State) : Bool := s.dev.powered

/-- Good lanes of a mask. -/
def lanesOf (g : Byte) : List Nat := (upFrom 0 8).filter (fun i => g.getLsbD i)
/-- The width for a number of good lanes (R347). -/
def widthFor (n : Nat) : Nat := if 8 ≤ n then 8 else if 4 ≤ n then 4 else if 2 ≤ n then 2 else if 1 ≤ n then 1 else 0
/-- The w good lanes of lowest index. -/
def inUseOf (g : Byte) (w : Nat) : Byte := BitVec.ofNat 8 (listSum (((lanesOf g).take w).map (fun i => 2 ^ i)))

/-- The fabric ID is assigned while a port is in Up (R349). -/
def settleFid (s : State) : State := { s with fab := { s.fab with fidValid := (upFrom 0 16).any (portUp s) } }

/-- Moves a port to a state. -/
def toState (s : State) (p : Nat) (st : BitVec 3) (f : Port → Port) : State :=
  settleFid (modPort s p (fun x => f { x with state := st, since := s.stage, timed := false, measure := none }))

/-- A port returns to Adapt, or goes Down at the third return in a row (R346). -/
def portReturns (s : State) (p : Nat) : State :=
  let n := (getPort s p).tries.toNat + 1
  toState s p (if 3 ≤ n then 0 else 1) (fun x => { x with tries := BitVec.ofNat 3 n, good := 0, inUse := 0, width := 0 })

/-- PARTNER_SIGNAL_DETECTED (R346): an enabled port with its reference clock leaves Down. -/
def execPartnerSignalDetected (p : RolrePort) (s : State) : Ans :=
  .next (
    if linksRun s && (getPort s p).state = 0 && (getPort s p).tries = 0 && portEnabled s p && !refAbsent s p then
      toState s p 1 id
    else s)

/-- PORT_DOWN_RETRY (R346): 2^20 stages after it went Down a port trains again. -/
def execPortDownRetry (p : RolrePort) (s : State) : Ans :=
  .next (
    let x := getPort s p
    if linksRun s && x.state = 0 && x.tries ≠ 0 && decide (x.since.toNat + 2 ^ 20 ≤ s.stage.toNat) && portEnabled s p &&
        !refAbsent s p then
      toState s p 1 (fun x => { x with tries := 0 })
    else s)

/-- LANE_LOCK (R346): the lanes that have locked; with every lane the port enters FEC lock. -/
def execLaneLock (p : RolrePort) (lanes : BitVec 8) (s : State) : Ans :=
  .next (
    if linksRun s && (getPort s p).state = 1 then
      let g := (getPort s p).good ||| lanes
      if g = 0xFF then toState s p 2 (fun x => { x with good := g }) else modPort s p (fun x => { x with good := g })
    else s)

/-- CODEWORD_ALIGNMENT (R346). -/
def execCodewordAlignment (p : RolrePort) (s : State) : Ans :=
  .next (if linksRun s && (getPort s p).state = 2 then toState s p 3 id else s)

/-- TRAINING_TIMEOUT (R346): Adapt goes on without the lanes that have not locked; a later state returns to Adapt. -/
def execTrainingTimeout (p : RolrePort) (s : State) : Ans :=
  .next (
    let x := getPort s p
    if !linksRun s then s
    else if x.state = 1 && x.good ≠ 0 then toState s p 2 id
    else if decide (1 ≤ x.state.toNat) && decide (x.state.toNat ≤ 4) then portReturns s p
    else s)

/-- The fabric ID that a port is offered cannot be taken: the image pins another, or another port of the device has been
given another (R349). -/
def fidRefused (s : State) (p : Nat) (fid : Fid) : Bool :=
  (match s.cfg.image with
    | none => false
    | some i => i.fidPin.getLsbD 15 && decide (i.fidPin.toNat % 2 ^ 14 ≠ fid.toNat)) ||
  ((upFrom 0 16).any (fun r => decide (r ≠ p) && (decide ((getPort s r).state = 4) || portUp s r)) && decide (s.fab.fid ≠ fid))

/-- TRAINING_FLIT (R346, R349): in Exchange the width is agreed and the fabric ID assigned. -/
def execTrainingFlit (p : RolrePort) (width : BitVec 4) (fid : Fid) (peer : BitVec 16) (s : State) : Ans :=
  .next (
    if !linksRun s || (getPort s p).state ≠ 3 then s
    else if fidRefused s p fid then toState s p 6 (fun x => { x with peer := peer })
    else
      let g := (getPort s p).good
      let w := widthFor (min width.toNat (lanesOf g).length)
      if w = 0 then s
      else toState { s with fab := { s.fab with fid := fid } } p 4 (fun x => { x with
        peer := peer, width := BitVec.ofNat 4 w, inUse := inUseOf g w }))

/-! ## Lanes and width (R347, R348, R470) -/

/-- Source of the events of a lane. -/
def laneSrc (p l : Nat) : Nat := srcOf 8 (16 * p + l)

/-- LANE_NOT_GOOD (R347): the width falls at once when a lane in use stops being good; a port without good lanes trains again. -/
def execLaneNotGood (p : RolrePort) (l : Fin 8) (s : State) : Ans :=
  .next (
    let x := getPort s p
    if !linksRun s || !x.good.getLsbD l.val || decide (x.state.toNat < 4) || x.state = 6 then s
    else
      let g := x.good &&& ~~~(BitVec.ofNat 8 (2 ^ l.val))
      let w := min x.width.toNat (widthFor (lanesOf g).length)
      let s1 := modPort s p (fun y => { y with good := g, width := BitVec.ofNat 4 w, inUse := inUseOf g w })
      let s2 := if w < x.width.toNat then
          addCtr (unitRetired s1 (laneSrc p l) 3 3 l 5 x.gen.toNat w 0) 6 p 5 1
        else s1
      if w = 0 then toState s2 p 1 id else s2)

/-- The width may rise: the good lanes reach the next width and 2^14 stages have passed since the last rise (R348). -/
def mayWiden (s : State) (p : Nat) : Bool :=
  let x := getPort s p
  x.state = 5 && decide (x.width.toNat < widthFor (lanesOf x.good).length) &&
    (x.lastWiden = 0 || decide (x.lastWiden.toNat + 2 ^ 14 ≤ s.stage.toNat))

/-- A port widens: it takes its next generation and passes through Time (R469, R470). -/
def widen (s : State) (p l : Nat) : State :=
  let x := getPort s p
  let w := widthFor (lanesOf x.good).length
  let g := nextGen x.gen
  let s1 := toState s p 4 (fun y => { y with
    width := BitVec.ofNat 4 w, inUse := inUseOf y.good w, lastWiden := s.stage, gen := g })
  addCtr (unitRejoined s1 (laneSrc p l) 3 19 l 5 g.toNat w 0) 6 p 5 1

/-- LANE_GOOD_AGAIN (R347): the lane counts again; the width rises where it may. -/
def execLaneGoodAgain (p : RolrePort) (l : Fin 8) (s : State) : Ans :=
  .next (
    let x := getPort s p
    if !linksRun s || x.good.getLsbD l.val || decide (x.state.toNat < 4) || x.state = 6 then s
    else
      let s1 := modPort s p (fun y => { y with good := y.good ||| BitVec.ofNat 8 (2 ^ l.val) })
      if mayWiden s1 p && unitsMove s1 && !rejoinHeld s1 then widen s1 p l else s1)

/-- UNIT_REJOIN of a lane: a rise of width that has been held back. -/
def rejoinLane (s : State) (p l : Nat) : State :=
  if (getPort s p).good.getLsbD l && !(getPort s p).inUse.getLsbD l && mayWiden s p && !rejoinHeld s then widen s p l else s

/-! ## Flits (R341 to R343) -/

/-- Sends a flit of link control. -/
def sendFlit (s : State) (p kind : Nat) (ws : List Nat) : State := emit s (.flit p kind (ws.map (BitVec.ofNat 64)))

/-- One more, saturating. -/
def satInc {n : Nat} (x : BitVec n) : BitVec n := if x = BitVec.allOnes n then x else x + 1

/-- Asks for a replay from the next flit expected, once; later flits are discarded until it arrives. -/
def askRetry (s : State) (p : Nat) : State :=
  if (getPort s p).retrying then s
  else sendFlit (modPort s p (fun x => { x with retrying := true })) p 6 [(getPort s p).expect.toNat]

/-- RECEIVED_FLIT (R341, R342): a codeword that cannot be corrected or a number that is not the next is asked for again. -/
def execReceivedFlit (p : RolrePort) (f : FlitIn) (s : State) : Ans :=
  .next (
    let x := getPort s p
    if !linksRun s || devFrozen s || decide (x.state.toNat < 4) || x.state = 6 || f.kind = 0 || decide (3 < f.kind.toNat) then s
    else if !f.fecOk then askRetry (addCtr (modPort s p (fun y => { y with uncorrected := satInc y.uncorrected })) 6 p 4 1) p
    else
      let s1 := if f.corrected then addCtr (modPort s p (fun y => { y with corrected := satInc y.corrected })) 6 p 3 1 else s
      if f.fseq ≠ x.expect then askRetry s1 p
      else addCtr (modPort s1 p (fun y => { y with expect := y.expect + 1, retrying := false })) 6 p 1 568)

/-- RETRY_REQUEST (R342, R343): the transmitter replays from the named flit; the eighth replay of one flit in a row makes the
port train again. -/
def execRetryRequest (p : RolrePort) (fseq : BitVec 12) (s : State) : Ans :=
  .next (
    let x := getPort s p
    if !linksRun s || decide (x.state.toNat < 4) || x.state = 6 then s
    else
      let n := if x.replayRow ≠ 0 && x.replayed = fseq then x.replayRow + 1 else 1
      let s1 := addCtr (emit (modPort s p (fun y => { y with replays := satInc y.replays, replayed := fseq, replayRow := n % 8 }))
        (.replay p fseq)) 6 p 2 1
      if n = 8 then toState s1 p 1 (fun y => { y with good := 0, inUse := 0, width := 0 }) else s1)

/-- RESERVED_FLIT (R341): discarded and counted. -/
def execReservedFlit (p : RolrePort) (kind : BitVec 4) (s : State) : Ans :=
  .next (if linksRun s && kind.getLsbD 3 then modPort s p (fun x => { x with reserved := x.reserved + 1 }) else s)

/-! ## Link delay (R355) -/

/-- DELAY_REQUEST: answered with the time it carried and the time it arrived. -/
def execDelayRequest (p : RolrePort) (txTime rxTime : BitVec 64) (s : State) : Ans :=
  .next (
    if linksRun s && ((getPort s p).state = 4 || portUp s p) then sendFlit s p 5 [txTime.toNat, rxTime.toNat] else s)

/-- DELAY_MEASURE: the device sends a request, in Time and on its epoch port. -/
def execDelayMeasure (p : RolrePort) (now : BitVec 64) (s : State) : Ans :=
  .next (
    if linksRun s && ((getPort s p).state = 4 || (portUp s p && s.fab.epoch.source.toNat = p.val)) then
      sendFlit (modPort s p (fun x => { x with measure := some now })) p 4 [now.toNat]
    else s)

/-- A lower-numbered port delivers the epoch, so that this one need not (R355). -/
def epochBelow (s : State) (p : Nat) : Bool :=
  let e := s.fab.epoch
  decide (e.source.toNat < p) && portUp s e.source.toNat && decide (e.silent.toNat < 64)

/-- DELAY_RESPONSE: half the round trip, in ns; a port in Time that is not the epoch port is Up. -/
def execDelayResponse (p : RolrePort) (txTime now : BitVec 64) (s : State) : Ans :=
  .next (
    let x := getPort s p
    if !linksRun s || x.measure ≠ some txTime then s
    else
      let d := (now - txTime).toNat / 2000
      let s1 := modPort s p (fun y => { y with measure := none, timed := true, delayNs := BitVec.ofNat 16 (min 0xFFFF d) })
      if x.state = 4 && epochBelow s1 p then toState s1 p 5 (fun y => { y with tries := 0 }) else s1)

/-! ## The epoch (R354 to R365) -/

/-- EPOCH_HOLDOVER (R371). -/
def holdoverEvent (s : State) (exit_ : Bool) (src : Nat) (last : Stage) (off : Int) : State :=
  raiseEvent s 0x0801 (if exit_ then 0 else 1) 0xFF (srcOf 0 0)
    (leBytes 1 (b2n exit_) ++ leBytes 1 src ++ zeros 2 ++ leBytes 8 last.toNat ++ leBytes 4 (wrapInt 32 off))
/-- EPOCH_LOST (R371): 0 lost, 1 to 3 reacquired. -/
def lostEvent (s : State) (how src : Nat) (n : Stage) (off : Int) : State :=
  raiseEvent s 0x0802 (if how = 0 then 1 else 0) 0xFF (srcOf 0 0)
    (leBytes 1 how ++ leBytes 1 src ++ zeros 2 ++ leBytes 8 n.toNat ++ leBytes 4 (wrapInt 32 off))

/-- 1,024 stages in ns. -/
def kiloStages : Int := 1048576

/-- How an offset converges (R364): 1 slew, 2 hold, 3 step. -/
def convergeBy (off : Int) : Nat := if off < -kiloStages then 3 else if kiloStages < off then 2 else 1

/-- The counter jumps to stage n; what the jump passes over is late, and cuts that it passes over are made at it. -/
def stepTo (s : State) (n : Stage) : State :=
  takeCuts { modEpoch s (fun e => { e with skips := e.skips ++ [(s.stage, n)] }) with stage := n } s.stage.toNat

/-- The offset register holds a step that the next accepted symbol performs. -/
def stepMeasured (s : State) : Bool := decide (s.fab.epoch.offsetNs.toInt < -kiloStages)

/-- An accepted symbol or pulse that marks stage n, from a source, at a sub-stage offset in ns (R364). -/
def acceptEpoch (s : State) (src : Nat) (n : Stage) (offsetNs : Int) : State :=
  let e := s.fab.epoch
  let off := ((s.stage.toNat : Int) - n.toNat) * 1024 + offsetNs
  let how := convergeBy off
  let jump := (!e.acquired && decide (s.stage.toNat < n.toNat)) || (how = 3 && e.state = 2 && stepMeasured s)
  let left := if jump then 0 else off
  let locks := decide (-2 < left) && decide (left < 2)
  let s1 := if e.state = 3 then holdoverEvent s true src e.lastStage off
    else if e.state = 4 then lostEvent s how src n (off / 1024)
    else s
  let s2 := if jump then stepTo s1 n else s1
  modEpoch s2 (fun x => { x with
    state := if locks then 1 else 2
    source := BitVec.ofNat 5 src
    silent := 0
    offsetNs := BitVec.ofInt 32 (clampInt (-2147483648) 2147483647 left)
    lastStage := s2.stage
    acquired := true
    lost := if locks then false else x.lost })

/-- The number a locked device expects: the multiple of 16 next to its own stage (R354). -/
def epochExpects (s : State) (n : Stage) : Bool :=
  decide (n.toNat % 16 = 0) && (s.fab.epoch.state ≠ 1 || decide (n.toNat = (s.stage.toNat + 8) / 16 * 16))

/-- EPOCH_SYMBOL (R354, R355): accepted, it takes a port in Time to Up, and the epoch from the lowest port that delivers. -/
def execEpochSymbol (p : RolrePort) (n : Stage) (fecOk : Bool) (offsetNs : Int) (s : State) : Ans :=
  .next (
    let x := getPort s p
    if !linksRun s || !fecOk || !epochExpects s n || !(portUp s p || (x.state = 4 && x.timed)) then s
    else
      let s1 := if x.state = 4 then toState s p 5 (fun y => { y with tries := 0 }) else s
      if epochBelow s1 p then s1 else acceptEpoch s1 p n offsetNs)

/-- The image permits EPOCH_PULSE (R357). -/
def pulseAllowed (s : State) : Bool := match s.cfg.image with | none => false | some i => i.pulseEn
/-- A port delivers accepted symbols. -/
def portDelivers (s : State) : Bool :=
  decide (s.fab.epoch.source.toNat < 16) && portUp s s.fab.epoch.source.toNat && decide (s.fab.epoch.silent.toNat < 64)

/-- EPOCH_HOLDOVER (R362): the source is silent and no permitted pulse takes over. -/
def execEpochHoldover (s : State) : Ans :=
  .next (
    let e := s.fab.epoch
    if !linksRun s || !(e.state = 1 || e.state = 2) || portDelivers s || (decide (e.source.toNat < 16) && (pulseAllowed s || decide (e.silent.toNat < 64))) then s
    else
      modEpoch (holdoverEvent s false e.source.toNat e.lastStage 0) (fun x => { x with state := 3, heldFrom := s.stage }))

/-- EPOCH_LOST (R363). -/
def execEpochLost (s : State) : Ans :=
  .next (
    let e := s.fab.epoch
    if !linksRun s || e.state ≠ 3 || decide (s.stage.toNat < e.heldFrom.toNat + 2 ^ 20) then s
    else modEpoch (lostEvent s 0 0xFF 0 0) (fun x => { x with state := 4, lost := true, source := 31 }))

/-- EPOCH_PULSE (R357): ignored while a port delivers; ignored and counted when it lies more than 50 ns off its time. -/
def execEpochPulse (offsetNs : Int) (s : State) : Ans :=
  .next (
    let e := s.fab.epoch
    if !linksRun s || !pulseAllowed s then s
    else if e.acquired && !portDelivers s && !(decide (-50 ≤ offsetNs) && decide (offsetNs ≤ 50)) then
      modEpoch s (fun x => { x with pulseIgnored := x.pulseIgnored + 1 })
    else
      let n := e.pulseNext
      modEpoch (if portDelivers s then s else acceptEpoch s 16 n offsetNs) (fun x => { x with pulseNext := n + 1024 }))

/-- EPOCH_PULSE_MISSING (R357): an expected pulse time passes; the next pulse is the one after it. -/
def execEpochPulseMissing (s : State) : Ans :=
  .next (if linksRun s && pulseAllowed s then modEpoch s (fun x => { x with pulseNext := x.pulseNext + 1024 }) else s)

/-- MISSING_REFERENCE_CLOCK (R489): the eight ports of a pair are in state 0; a PCIe port is without a link. -/
def execMissingReferenceClock (c : RefClock) (s : State) : Ans :=
  .next (
    match c with
    | .rolre k =>
      (upFrom (8 * k.val) 8).foldl (fun t p => toState t p 0 (fun x => { x with good := 0, inUse := 0, width := 0, tries := 0 }))
        (modDev s (fun d => { d with refMissing := listSet d.refMissing k.val true }))
    | .pcie p => modDev s (fun d => { d with refMissing := listSet d.refMissing (2 + p.val) true }))

end Sys2Proof.Machine
end

