-- ==== Sys2Proof/Machine/HostOps.lean ====
section
/-! DEFINITION. Queues as the host works them: doorbells, completion heads, enabling, resuming and adopting (R378, R387, R392,
R395, R402), coalesced interrupts (R390), and context reset, context abort, Function Level Reset and PERSTn_N (R396, R399,
R493). -/

namespace Sys2Proof.Machine

/-! ## Effects of writes to HQ pages -/

/-- The tail or head of a ring is in range: below its number of entries (R378). -/
def indexOk (n v : Nat) : Bool := decide (v < n)

/-- A doorbell: the tail that the queue fetches up to. -/
def ringTail (s : State) (q v : Nat) : State := setField s (hqOff q + 0x40) 15 0 v

/-- The host has consumed the entries before a head: those between it and the completion tail remain; records that wait are
written while entries are free (R387). -/
def moveHead (s : State) (q v : Nat) : State :=
  let z := cqSize s q
  let left := ((getQ s q).cqTail.toNat + z - v % z) % z
  let s1 := modQ (setField s (hqOff q + 0x44) 15 0 v) q (fun u => { u with posted := u.posted.drop (u.posted.length - left) })
  drainRecords (getQ s1 q).waiting.length s1 q

/-- The indices of a queue at their reset values. -/
def resetIndices (s : State) (q : Nat) : State :=
  modQ s q (fun u => { u with consumed := 0, cqTail := 0, phase := true, posted := [], unsignalled := 0 })

/-- `enable` of a queue (R392): set, the queue starts from slot 0; cleared, it fetches no more. -/
def setEnable (s : State) (q : Nat) (on : Bool) : State :=
  if on && !qEnabled s q then resetIndices (setField s (hqOff q + 0x24) 31 31 1) q
  else if !on then setField s (hqOff q + 0x24) 31 31 0
  else s

/-- `resume` (R395): no effect on a queue that is not stopped. -/
def resumeQueue (s : State) (q : Nat) : State := modQ s q (fun u => { u with stopped := false })

/-- The standby function of a queue, where it has one. -/
def standbyFn (s : State) (q : Nat) : Option Nat :=
  let w := regWord s (hqOff q + 0x20)
  if bitsOf w.toNat 31 31 = 1 && decide (bitsOf w.toNat 30 29 < 2) then
    some (32 * bitsOf w.toNat 30 29 + bitsOf w.toNat 28 24)
  else none

/-- A queue changes its function: the old one is remembered, so that its doorbells are refused (R14, R402). -/
def changeFn (s : State) (q old new : Nat) : State :=
  if old = new then s else modQ s q (fun u => { u with former := (u.former.filter (fun f => f ≠ old && f ≠ new)) ++ [old] })

/-- Writes several records in order. -/
def writeRecords (s : State) (q : Nat) (l : List (List Byte)) : State := l.foldl (fun t r => writeRecord t q r) s

/-- The rings and write-back of the standby take the place of the old ones. -/
def newBases (s : State) (q : Nat) : State :=
  (upFrom 0 6).foldl (fun t i => setReg t (hqOff q + 4 * i) (regWord t (hqOff q + 0x70 + 4 * i))) s

/-- `adopt` by the standby function (R402): the binding, the rings, the records not consumed, then the later ones. Nothing of
the new submission ring is published, and nothing of the new completion ring consumed, before the standby says so: both
indices start at 0 (DEDUCED from the worked example of R402, where a queue counts exactly the two packets sent again). -/
def adoptQueue (s : State) (q : Nat) : State :=
  match standbyFn s q with
  | none => s
  | some fn =>
    let ctx := qCtx s q
    let old := qFn s q
    let kept := (getQ s q).posted
    let s1 := setField (setField s (hqOff q + 0x1C) 25 24 (fn / 32)) (hqOff q + 0x1C) 23 19 (fn % 32)
    let s2 := if ctxEventFn s ctx = old then
        setField (setField s1 (ctxOff ctx) 27 26 (fn / 32)) (ctxOff ctx) 25 21 (fn % 32)
      else s1
    let s3 := resetIndices (setField (setField (newBases s2 q) (hqOff q + 0x44) 15 0 0) (hqOff q + 0x40) 15 0 0) q
    let s4 := changeFn (writeRecords s3 q kept) q old fn
    drainRecords (getQ s4 q).waiting.length s4 q

/-! ## Coalesced interrupts (R390) -/

/-- MSIX_COALESCE_TIMEOUT (R390): the time since the oldest unsignalled record has passed for the rings of the vector. -/
def execMsixCoalesceTimeout (f : FnId) (vec : Fin 257) (s : State) : Ans :=
  .next (
    let qs := (s.host.queues.filter (fun x => decide (x.2.unsignalled ≠ 0) && decide (qAttach s x.1 ≤ 1) && decide (qFn s x.1 = f.val) &&
      decide (regField s (hqOff x.1 + 0x18) 21 13 = vec.val))).map (·.1)
    if !s.dev.powered || qs.isEmpty then s
    else fireMsix (qs.foldl (fun t q => modQ t q (fun u => { u with unsignalled := 0 })) s) f vec)

/-! ## Resets of a context (R399) -/

/-- The queues bound to a context. -/
def ctxQueues (s : State) (ctx : Nat) : List Nat := (upFrom 0 256).filter (fun q => boundTo s q ctx)

/-- The progress of a queue's collective is kept for its re-run (R294). -/
def saveColl (s : State) (q : Nat) : State :=
  match (getQ s q).run with
  | none => s
  | some r => match r.coll with
    | none => s
    | some ch =>
      let c := getConv s ch
      match c.ops, c.prog with
      | o :: _, some p => if o.queue = q then journalAt s q (fun e => { e with coll := some p }) else s
      | _, _ => s

/-- The work of a queue is discarded and its packets run again from the commit index. -/
def rerunQueue (s : State) (q : Nat) : State := unissue (dropColl (saveColl s q) q) q

/-- Frozen masters of a context: itself, its channels, and the convoy channels that its queues' operations hold. -/
def mastersOf (s : State) (ctx : Nat) (qs : List Nat) (f : Frozen) : Bool :=
  (f.kind = 1 && decide (f.index.toNat = ctx)) ||
  (f.kind = 3 && (match getChan s f.index.toNat with | some c => decide (c.ctx = ctx) | none => false)) ||
  (f.kind = 4 && (match (getConv s f.index.toNat).ops with | o :: _ => qs.contains o.queue | [] => false)) ||
  (f.kind = 8 && qs.contains f.index.toNat)

/-- Releases the frozen masters of a context. -/
def freeMasters (s : State) (ctx : Nat) (qs : List Nat) : State :=
  { s with frozen := s.frozen.filter (fun f => !mastersOf s ctx qs f) }

/-- A context reset (R399). -/
def resetContext (s : State) (ctx : Nat) : State :=
  let qs := ctxQueues s ctx
  qs.foldl rerunQueue (freeMasters (modCfg s (fun c => { c with kept := c.kept.filter (· ≠ ctx) })) ctx qs)

/-- A context reset as it is requested: it waits for an apply to end, and a frozen device discards it (R494). -/
def askContextReset (s : State) (ctx : Nat) : State :=
  if devFrozen s then s
  else if s.cfg.apply.isSome then modDev s (fun d => { d with waitResets := d.waitResets ++ [(false, ctx)] })
  else resetContext s ctx

/-! ## Abort and Function Level Reset (R396) -/

/-- Completes every accepted packet of a queue, in order, with a status. -/
def endAll (status : Nat) : Nat → State → Nat → State
  | 0, s, _ => s
  | k + 1, s, q =>
    match (getQ s q).journal with
    | [] => s
    | e :: t => endAll status k (completePacket (modQ s q (fun u => { u with journal := { e with life := .issued } :: t })) q status) q

/-- A queue of an aborted context: its units stop, its collective is abandoned, its packets end ABORTED. -/
def abortQueue (s : State) (q : Nat) : State :=
  let s1 := dropWork (abandonColl s q) q
  endAll 0x0020 (getQ s1 q).journal.length s1 q

/-- Streams stop working for the queues of a context: shipments end, and what was not taken is not taken. -/
def dropShips (s : State) (qs : List Nat) : State :=
  s.kv.streams.foldl (fun t x =>
    let mine := (x.2.picks.filter (fun k => qs.contains k.queue && k.taken && !k.done)).map (·.index)
    modStream (mine.foldl (fun u i => endFlight u x.1 i) t) x.1 (fun y => { y with
      picks := y.picks.filter (fun k => !(qs.contains k.queue && !k.taken)) })) s

/-- A context abort (R396). -/
def abortContext (s : State) (ctx : Nat) : State :=
  let qs := ctxQueues s ctx
  qs.foldl abortQueue (dropShips (freeMasters s ctx qs) qs)

/-- The queues of a function. -/
def fnQueues (s : State) (fn : Nat) : List Nat := (upFrom 0 256).filter (fun q => decide (qAttach s q ≤ 1) && decide (qFn s q = fn))

/-- A queue of a function that is reset: disabled, its packets discarded without a record. -/
def discardQueue (s : State) (q : Nat) : State :=
  modQ (dropWork (abandonColl s q) q) q (fun u => { u with journal := [], run := none, waiting := [] }) |>
    (fun t => setField t (hqOff q + 0x24) 31 31 0)

/-- A Function Level Reset (R396). -/
def resetFunction (s : State) (fn : Nat) : State :=
  let s1 := setField ((fnQueues s fn).foldl discardQueue s) (evqOff fn + 8) 27 27 0
  { s1 with host := { s1.host with accErr := tabPut {} s1.host.accErr fn {} } }

/-- FUNCTION_LEVEL_RESET (R396). -/
def execFunctionLevelReset (f : FnId) (s : State) : Ans := .next (if s.dev.powered then resetFunction s f else s)

/-- PERST (R493): low, the port's link is held down and every function of the port is reset. -/
def execPerst (p : HostPort) (low : Bool) (s : State) : Ans :=
  .next (
    if !s.dev.powered then s
    else
      let s1 := modDev s (fun d => { d with perst := listSet d.perst p.val low })
      if low && !(s.dev.perst[p.val]?).getD false then (upFrom (32 * p.val) 32).foldl resetFunction s1 else s1)

end Sys2Proof.Machine
end

