-- ==== Sys2Proof/Machine/RolreOps.lean ====
section
/-! DEFINITION. Messages of the fabric that reach memory and tallies: export windows and the doorbell window (R193, R378), read
responses and write acknowledgements (R193, R222), remote tally operations (R249), duplicates (R351), and stale generations
(R468, R471, R473). -/

namespace Sys2Proof.Machine

/-! ## Export windows (R193) -/

/-- An export window. -/
structure Window where
  base : Nat
  len : Nat
  loc : Nat
  group : Nat
  perm : Nat
  part : Partition
  deriving DecidableEq, Repr

/-- Entry i of the export table of a partition, where it is valid. -/
def exportEntry (s : State) (p : Partition) (i : Nat) : Option Window :=
  let b := localRead s (regAddr s (xltPartOff p.part + 8) 7 + 32 * i) 32
  if bitOf (fieldAt b 27 1) 0 then some ⟨fieldAt b 0 8, fieldAt b 8 8, fieldAt b 16 8, fieldAt b 24 2, fieldAt b 26 1, p⟩ else none

/-- Inserts a partition by index. -/
def insPart (p : Partition) : List Partition → List Partition
  | [] => [p]
  | x :: t => if p.part ≤ x.part then p :: x :: t else x :: insPart p t

/-- Every valid window, in ascending partition and entry. -/
def windows (s : State) : List Window :=
  (((parts s).foldr insPart []).map (fun p =>
    (upFrom 0 (min 16 (regField s (xltPartOff p.part + 0x10) 20 16))).filterMap (exportEntry s p))).flatten

/-- The first window that contains an access of n bytes. -/
def windowFor (s : State) (off n : Nat) : Option Window :=
  (windows s).find? (fun w => decide (w.base ≤ off) && decide (off + n ≤ w.base + w.len))

/-- The doorbell window: the last 1 MiB of the aperture. -/
def doorbellBase : Nat := 0xFFFFF00000

/-- The local address that an access from a source reaches, where a window serves it. -/
def exportAddr (s : State) (src off n : Nat) (wr : Bool) : Option Nat :=
  match windowFor s off n with
  | none => none
  | some w =>
    let a := w.loc + (off - w.base)
    if bitOf w.perm (b2n wr) && (w.group = 0xFFFF || inGroup s w.group src) && inAlloc s w.part a && inAlloc s w.part (a + n - 1) &&
        !(wr && touchesOrigin s a n) then some a
    else none

/-! ## Answers -/

/-- Sends an answer on the flow of the message it answers. -/
def answer (s : State) (h : RolreHead) (mkind status : Nat) (data : List Byte) : State :=
  let s1 := emit s (.rolre h.srcFid.toNat 1 mkind (if mkind = 3 then h.offset.toNat else 0) status data none)
  { s1 with fab := { s1.fab with flowSent := tabMod 0 s1.fab.flowSent (h.srcFid.toNat * 65536 + h.flow.toNat) (· + 1) } }

/-- A refused access: WINDOW_VIOLATION with its aperture offset, its source frozen, and the refusal (R193, R474). -/
def refuseFabric (s : State) (h : RolreHead) (wr : Bool) : State :=
  let s1 := raiseEvent s 0x0303 2 0xFF (srcOf 11 h.srcFid.toNat) (windowDetail 0 wr h.offset.toNat)
  answer (freeze s1 7 h.srcFid.toNat 0xFF 0x0303) h (if wr then 4 else 3) 1 []

/-! ## Acceptance (R345, R351) -/

/-- Key of a flow of a source. -/
def flowKey (h : RolreHead) : Nat := h.srcFid.toNat * 65536 + h.flow.toNat
/-- The message has been accepted already. -/
def isDup (s : State) (h : RolreHead) : Bool := decide (2 ^ 31 ≤ (h.flowSeq - tabGet 0 s.fab.flowSeen (flowKey h)).toNat)
/-- Notes an accepted message. -/
def accepted (s : State) (h : RolreHead) : State :=
  { s with fab := { s.fab with flowSeen := tabPut 0 s.fab.flowSeen (flowKey h) (h.flowSeq + 1) } }
/-- One message discarded. -/
def discarded (s : State) : State := { s with fab := { s.fab with discarded := s.fab.discarded + 1 } }

/-- A message with a bad CRC is asked for again by its port and not accepted; one for another device is discarded and
counted; the device accepts none while it is frozen or not Ready. -/
def onMessage (s : State) (h : RolreHead) (k : State → State) : Ans :=
  .next (
    if !s.dev.ready || !s.dev.powered || devFrozen s || s.dev.failed || !h.crcOk then s
    else if !s.fab.fidValid || h.destFid ≠ s.fab.fid then discarded s
    else k s)

/-! ## Signals (R249) -/

/-- The operation that a signal record stands for, in the context of its group on this device. -/
def remoteOp (g : GroupEntry) (src code : Nat) (sg : RemoteSignal) : TallyOp :=
  { code := code, ctx := g.ctx, vid := sg.vid.toNat, scope := sg.scope.toNat, amount := sg.amount, issuer := .remote src, tag := 0
    ord := 0, node := none, dest := 0 }

/-- A remote operation from a source that is not a member of its group (R249). -/
def notMember (s : State) (src code : Nat) (sg : RemoteSignal) : State :=
  let o : TallyOp := { code := code, ctx := 0xFF, vid := sg.vid.toNat, scope := sg.scope.toNat, amount := sg.amount
                       issuer := .remote src, tag := 0, ord := 0, node := none, dest := 0 }
  freeze (raiseEvent s 0x0303 2 0xFF (srcOf 11 src) (tallyDetail o 0 0)) 7 src 0xFF 0x0303

/-- Applies a remote operation; false where its source may not send it. -/
def remoteSignal (s : State) (src code : Nat) (sg : RemoteSignal) : Bool × State :=
  match getGroup s sg.group.val with
  | none => (false, notMember s src code sg)
  | some g =>
    if g.members.any (fun m => m.toNat = src) then (true, applyOp s (remoteOp g src code sg))
    else (false, notMember s src code sg)

/-! ## Requests -/

/-- A write to the doorbell window (R378): HQ_SQ_TAIL and HQ_CQ_HEAD, from the fabric ID bound to the queue. It serves a queue
attached to the fabric in every personality (DEDUCED from R7: the others carry fabric leaf traffic as configured). -/
def doorbell (s : State) (h : RolreHead) (data : List Byte) : Option State :=
  let x := h.offset.toNat - doorbellBase
  let q := x / 4096
  let v := leNat data
  if data.length ≠ 4 || qAttach s q ≠ 2 || decide (qFid s q ≠ h.srcFid.toNat) then none
  else if x % 4096 = 0x40 then some (if indexOk (sqSize s q) v then ringTail s q v else s)
  else if x % 4096 = 0x44 then some (if indexOk (cqSize s q) v then moveHead s q v else s)
  else none

/-- An inbound write: the doorbell window, an export window, or a refusal. -/
def inWrite (s : State) (h : RolreHead) (data : List Byte) (sig : Option RemoteSignal) : State :=
  let done : Option State :=
    if doorbellBase ≤ h.offset.toNat then doorbell s h data
    else (exportAddr s h.srcFid.toNat h.offset.toNat data.length true).map (fun a => memWrite s a data)
  match done with
  | none => refuseFabric s h true
  | some s1 =>
    let s2 := match sig with | none => s1 | some sg => (remoteSignal s1 h.srcFid.toNat 14 sg).2
    answer (accepted s2 h) h 4 0 []

/-- ROLRE_MEMORY_WRITE (R193, R378). -/
def execRolreMemoryWrite (h : RolreHead) (data : List Byte) (sig : Option RemoteSignal) (s : State) : Ans :=
  onMessage s h (fun s =>
    if isFrozen s 7 h.srcFid.toNat then answer (discarded s) h 4 1 []
    else if isDup s h then answer s h 4 0 []
    else inWrite s h data sig)

/-- ROLRE_READ_REQUEST (R193): words that cannot be corrected are sent as they are (R343). -/
def execRolreReadRequest (h : RolreHead) (len : Nat) (s : State) : Ans :=
  onMessage s h (fun s =>
    if isFrozen s 7 h.srcFid.toNat then answer (discarded s) h 3 1 []
    else match (if doorbellBase ≤ h.offset.toNat then none else exportAddr s h.srcFid.toNat h.offset.toNat len false) with
      | none => refuseFabric s h false
      | some a => answer (correctRange (accepted s h) a len) h 3 0 (localRead s a len))

/-- ROLRE_TALLY_OPERATION (R249): ADD or SUB from a member of the group, acknowledged once it has been applied. -/
def execRolreTallyOperation (h : RolreHead) (sig : RemoteSignal) (sub : Bool) (s : State) : Ans :=
  onMessage s h (fun s =>
    if isFrozen s 7 h.srcFid.toNat then discarded s
    else if isDup s h then answer s h 4 0 []
    else
      let r := remoteSignal s h.srcFid.toNat (if sub then 2 else 14) sig
      if r.1 then answer (accepted r.2 h) h 4 0 [] else r.2)

/-! ## Generations (R468, R471, R473) -/

/-- The unit that an issuer stands for: source, unit code, slot and current generation. -/
def unitOf (s : State) (i : Issuer) : Option (Nat × Nat × Nat × BitVec 16) :=
  match i with
  | .chan x => some (srcOf 12 (x / 64), 7, 0xFF, (getClu s (x / 64)).gen)
  | i => (issuerEng s i).map (fun e => (srcOf 1 e, 1, slotOf s e, if (getEng s e).retired then 0 else genOf s (cluOf e) (slotOf s e)))

/-- Drops a stale message: counted, and reported at the first of its generation. -/
def dropStale (s : State) (u : Nat × Nat × Nat × BitVec 16) (gen : BitVec 16) (what : Nat) : State :=
  let s1 := addCtr (modDev s (fun d => { d with stale := d.stale + 1 })) 1 0 0 1
  if s.dev.staleSeen.contains (u.1, gen) then s1
  else
    raiseEvent (modDev s1 (fun d => { d with staleSeen := d.staleSeen ++ [(u.1, gen)] })) 0x0703 0 0xFF u.1
      (leBytes 1 u.2.1 ++ leBytes 1 u.2.2.1 ++ leBytes 2 gen.toNat ++ leBytes 2 u.2.2.2.toNat ++ leBytes 1 what ++ zeros 9)

/-! ## Answers that arrive (R193, R222, R344) -/

/-- The oldest message that an answer may answer: its flow, its destination and one of some kinds. -/
def sentFor (s : State) (h : RolreHead) (kinds : List Nat) : Option Sent :=
  s.fab.sent.find? (fun x => kinds.contains x.kind && x.dest = h.srcFid && x.flow = h.flow && !x.refused)

/-- Changes the first of a list that equals an element. -/
def replaceFirst {α : Type} [DecidableEq α] (a : α) (b : Option α) : List α → List α
  | [] => []
  | x :: t => if x = a then (match b with | none => t | some y => y :: t) else x :: replaceFirst a b t

/-- The message has been answered. -/
def settleSent (s : State) (x : Sent) : State := { s with fab := { s.fab with sent := replaceFirst x none s.fab.sent } }

/-- Context and tag of the master of a message. -/
def whoCtx (s : State) (i : Issuer) : Nat :=
  match i with
  | .chan x => (match getChan s x with | some c => c.ctx | none => 0xFF)
  | i => (match issuerQueue s i with | some q => qCtx s q | none => 0xFF)
/-- Tag of the packet that a master works for. -/
def whoTag (s : State) (i : Issuer) : Nat :=
  match i with
  | .chan x => (match getChan s x with | some c => c.tag.toNat | none => 0)
  | i => (match issuerQueue s i with | some q => queueTag s q | none => 0)

/-- A refused access (R193): WINDOW_VIOLATION against the issuing master, which is frozen. -/
def refusedAccess (s : State) (x : Sent) : State :=
  let s1 := { s with fab := { s.fab with sent := replaceFirst x (some { x with refused := true }) s.fab.sent } }
  match x.who with
  | none => settleSent s x
  | some i =>
    let ctx := whoCtx s i
    let s2 := raiseEvent s1 0x0303 2 ctx (issuerSrc i) (windowDetail (whoTag s i) (x.kind = 1) x.addr)
    match i with
    | .drover d => noteFaulter (freeze s2 2 (grpOf d) (partIdx (partOfCtx s ctx)) 0x0303) i
    | .chan c => setChan (if ctx = 0xFF then s2 else freezeCtx s2 ctx 0x0303) c
        ((getChan s c).map (fun y => { y with state := 3, cause := 4 }))
    | _ => if ctx = 0xFF then s2 else freezeCtx s2 ctx 0x0303

/-- ROLRE_READ_RESPONSE: the data of a fabric read, or its refusal; a response to a unit whose generation has been closed is
dropped. -/
def execRolreReadResponse (h : RolreHead) (data : List Byte) (s : State) : Ans :=
  onMessage s h (fun s =>
    match sentFor s h [2] with
    | none => s
    | some x =>
      match x.who.bind (unitOf s) with
      | some u => if u.2.2.2 ≠ h.generation then dropStale s u h.generation 1 else respond s h x data
      | none => respond s h x data)
where
  /-- what a response brings -/
  respond (s : State) (h : RolreHead) (x : Sent) (data : List Byte) : State :=
    if h.rstatus = 1 then refusedAccess (accepted s h) x
    else if data.length ≠ x.bytes then s
    else
      let s1 := settleSent (accepted s h) x
      let ch := match x.who with | some (.chan c) => c | _ => 0
      { s1 with
        mem := { s1.mem with outside := putOutside s1.mem.outside x.addr data }
        fab := { s1.fab with got := s1.fab.got ++ [(ch, x.addr, x.bytes)] } }

/-- ROLRE_WRITE_ACK: a fabric write or a remote SIGNAL has been performed, or the write has been refused. -/
def execRolreWriteAck (h : RolreHead) (s : State) : Ans :=
  onMessage s h (fun s =>
    match sentFor s h [1, 5] with
    | none => s
    | some x =>
      if h.rstatus = 1 then refusedAccess (accepted s h) x
      else
        let s1 := settleSent (accepted s h) x
        match x.kind, x.who with
        | 5, some (.queue q) => modRun s1 q (fun r => { r with work := .tally true })
        | _, _ => s1)

/-- Refused accesses of a master are sent again when it is released: the write from the bytes it was to write (R193). -/
def sendAgain (s : State) (mine : Issuer → Bool) : State :=
  let l := s.fab.sent.filter (fun x => x.refused && (match x.who with | some i => mine i | none => false))
  l.foldl (fun t x =>
    let s1 := { t with fab := { t.fab with
      sent := replaceFirst x none t.fab.sent ++ [{ x with refused := false }]
      flowSent := tabMod 0 t.fab.flowSent (x.dest.toNat * 65536 + x.flow.toNat) (· + 1) } }
    emit s1 (.rolre x.dest.toNat (if x.kind = 5 then 1 else 0) x.kind (x.addr % 2 ^ 40) 0
      (if x.kind = 1 then gBytes s x.addr x.bytes else if x.kind = 2 then leBytes 4 x.bytes else []) none)) s

end Sys2Proof.Machine
end

