-- ==== Sys2Proof/Machine/PowerOps.lean ====
section
/-! DEFINITION. The power controller: steps and fast constraints (R403, R404, R411, R412, R415), throttle reasons (R417, R418),
control intervals (R406 to R408, R419, R420), group frequency lock (R413, R414), sensors (R410) and guard bands (R405). -/

namespace Sys2Proof.Machine

/-- The power control loop runs: powered, booted, and not in the device freeze (R478). -/
def powerRuns (s : State) : Bool := s.dev.ready && s.dev.powered && !devFrozen s

/-- The interval control runs; while its domain hands over, the step is held (R450). -/
def controlRuns (s : State) : Bool := powerRuns s && !handing s 2

/-! ## Steps (R403, R404, R415) -/

/-- A legal step code (R403). -/
def legalCode (c : Nat) : Bool := decide (c = 24) || (decide (32 ≤ c) && decide (c ≤ 74))
/-- next(a) of R413. -/
def nextCode (a : Nat) : Nat := if a = 24 then 32 else a + 4
/-- A legal code that the controller's model finds: R408 does not give the fused part of the model, so any of them. -/
def freeCode (s : State) : BitVec 7 :=
  let w := Config.choice s.fresh % 44
  if w = 0 then 24 else BitVec.ofNat 7 (31 + w)

/-- Compute die d. -/
def getDie (s : State) (d : Nat) : Die := (s.power.dies[d]?).getD {}
/-- Changes compute die d. -/
def modDie (s : State) (d : Nat) (f : Die → Die) : State :=
  modPower s (fun w => { w with dies := match w.dies[d]? with | some x => listSet w.dies d (f x) | none => w.dies })

/-- The step of a die: the lower of the device step and its fast constraints (R415). -/
def dieStep (s : State) (d : Nat) : Nat :=
  if s.power.critical || s.power.alertOn then 24 else min s.power.devCode.toNat (getDie s d).limiter.toNat

/-- c_max (R406, R416, R419). -/
def cMax (s : State) : Nat :=
  let w := s.power
  min (min 74 w.hostMax.toNat) (min (if w.fixedEn then w.fixedCode.toNat else 74) (if w.cal = 2 then 64 else 74))

/-! ## Throttle reasons (R417, R418) -/

/-- The least agreed step of the partitions that are locked. -/
def agreedStep (s : State) : Nat := (s.power.locks.filter (fun l => l.on && l.state = 1)).foldl (fun m l => min m l.agreed.toNat) 127

/-- L_r on a die; 127 where the reason sets no limit. -/
def limitCode (s : State) (r d : Nat) : Nat :=
  let w := s.power
  match r with
  | 1 => if w.cal = 0 then w.capCode.toNat else 127
  | 2 => (getDie s d).limiter.toNat
  | 3 => if w.critical then 24 else w.heatCode.toNat
  | 4 => if w.alertOn then 24 else 127
  | 5 => if agreedStep s < w.u.toNat then agreedStep s else 127
  | 6 => let h := if w.fixedEn then w.fixedCode.toNat else w.hostMax.toNat
         if h < 74 then h else 127
  | _ => if w.cal = 0 then 127 else w.divCode.toNat

/-- Reason r is active on a die. c_max already holds the host's code, so HOST_REQUEST is held against 74. -/
def activeOn (s : State) (r d : Nat) : Bool :=
  (decide (limitCode s r d ≤ dieStep s d) && decide (limitCode s r d < (if r = 6 then 74 else cMax s))) ||
  (s.power.fallBy = some r && decide (s.power.devCode.toNat < s.power.u.toNat))

/-- The dies on which a reason is active. -/
def activeDies (s : State) (r : Nat) : Nat := b2n (activeOn s r 0) + 2 * b2n (activeOn s r 1)

/-- A temperature as a number of 1/8 °C. -/
def tempOf (t : BitVec 16) : Int := signedOf 16 t.toNat

/-- The reading nearest to, or furthest past, its throttle limit. -/
def hottest (s : State) : BitVec 16 :=
  let all := (s.power.dies.map (fun d => (d.tmax, (760 : Int)))) ++ [(s.power.ioTemp, 800)] ++ s.power.hbmTemp.map (fun t => (t, 760))
  (all.foldl (fun (m : BitVec 16 × Int) x => if m.2 < tempOf x.1 - x.2 then (x.1, tempOf x.1 - x.2) else m) (0, -1000000)).1

/-- Bytes 28 to 31 of THROTTLE. -/
def reasonWord (s : State) (r : Nat) : Nat :=
  let w := s.power
  match r with
  | 1 => w.capW
  | 2 => w.dieLimitW
  | 3 => wrapInt 32 (tempOf (hottest s))
  | 4 => w.alert.toNat
  | 5 => (match w.locks.find? (fun l => l.on && l.state = 1 && decide (l.agreed.toNat = agreedStep s)) with
      | some l => l.group.toNat + 256 * l.agreed.toNat
      | none => 0)
  | 6 => if w.fixedEn then w.fixedCode.toNat else w.hostMax.toNat
  | _ => w.measW.toNat

/-- THROTTLE (R418). -/
def throttleEvent (s : State) (r : Nat) (exit : Bool) (dies limit stages : Nat) : State :=
  let low := match dies with
    | 1 => dieStep s 0
    | 2 => dieStep s 1
    | _ => min (dieStep s 0) (dieStep s 1)
  raiseEvent s 0x0602 (if r = 1 ∨ r = 5 ∨ r = 6 then 0 else 1) 0xFF (srcOf 13 (if dies = 3 then 0 else dies))
    (leBytes 1 r ++ leBytes 1 (b2n exit) ++ leBytes 1 low ++ leBytes 1 limit ++ leBytes 1 dies ++ zeros 3 ++
      leBytes 4 (if exit then min 0xFFFFFFFF stages else 0) ++ leBytes 4 (reasonWord s r))

/-- Reason r. -/
def getReason (s : State) (r : Nat) : Reason := (s.power.reasons[r - 1]?).getD {}
/-- Changes reason r. -/
def modReason (s : State) (r : Nat) (f : Reason → Reason) : State :=
  modPower s (fun w => { w with reasons := listSet w.reasons (r - 1) (f (getReason s r)) })

/-- One reason after a change of the steps or limits: its entry is reported at once. -/
def lookReason (s : State) (r : Nat) : State :=
  let x := getReason s r
  let d := activeDies s r
  let l := min (limitCode s r 0) (limitCode s r 1)
  if d = 0 then modReason s r (fun y => { y with dies := 0 })
  else
    let s1 := modReason s r (fun y => { y with dies := BitVec.ofNat 2 d, last := BitVec.ofNat 2 d, limit := BitVec.ofNat 7 l, quiet := 0 })
    if x.reported then s1 else throttleEvent (modReason s1 r (fun y => { y with reported := true, run := 0 })) r false d l 0

/-- Every reason. -/
def lookReasons (s : State) : State := (upFrom 1 7).foldl lookReason s

/-- At a stage boundary: an active reason counts a stage; one that has gone quiet counts its silence. -/
def reasonStage (x : Reason) : Reason :=
  if x.dies ≠ 0 then { x with stages := x.stages + 1, run := x.run + 1, quiet := 0 }
  else if x.reported then { x with run := x.run + 1, quiet := x.quiet + 1 }
  else x

/-- At a control boundary: the exit of a reason that was inactive for the whole interval. -/
def leaveReason (s : State) (r : Nat) : State :=
  let x := getReason s r
  if x.reported && x.dies = 0 && decide (256 ≤ x.quiet) then
    throttleEvent (modReason s r (fun y => { y with reported := false, run := 0, quiet := 0 })) r true x.last.toNat x.limit.toNat (x.run - x.quiet)
  else s

/-- After a change: a die whose step falls takes its lowered guard band (R405), then the reasons. -/
def settleSteps (before s : State) : State :=
  let low := fun (t : State) (d : Nat) =>
    if dieStep t d < dieStep before d then modDie t d (fun x => { x with guardMv := x.guardNext }) else t
  lookReasons (low (low s 0) 1)

/-! ## The device step (R404, R413) -/

/-- A scheduled change takes effect; one after its stage is a late event (R361, R404). -/
def applyStep (s : State) : State :=
  match s.power.next with
  | none => s
  | some (n, c) =>
    if s.stage.toNat < n.toNat then s
    else
      let s1 := if n.toNat < s.stage.toNat then lateEvent s 3 0 n else s
      let falls := decide (c.toNat < s.power.devCode.toNat)
      let s2 := modPower s1 (fun w => { w with devCode := c, next := none })
      let why := if falls then (match (upFrom 1 7).find? (fun r => decide (min (limitCode s2 r 0) (limitCode s2 r 1) ≤ c.toNat)) with
        | some r => some r
        | none => s2.power.fallBy) else s2.power.fallBy
      settleSteps s (modPower s2 (fun w => { w with fallBy := if w.u.toNat ≤ c.toNat then none else why }))

/-- STEP_CHANGE (R404). -/
def execStepChange (s : State) : Ans := .next (if controlRuns s then applyStep s else s)

/-! ## Group frequency lock (R413, R414) -/

/-- The lock of partition p. -/
def getLock (s : State) (p : Nat) : Lock := (s.power.locks[p]?).getD {}
/-- Changes the lock of partition p. -/
def modLock (s : State) (p : Nat) (f : Lock → Lock) : State :=
  modPower s (fun w => { w with locks := listSet w.locks p (f (getLock s p)) })

/-- The group that partition p is bound to, where it is valid and the partition's own. -/
def lockEntry (s : State) (p : Nat) : Option GroupEntry :=
  if (getLock s p).on then
    match getGroup s (getLock s p).group.toNat with
    | some e => if e.part = p then some e else none
    | none => none
  else none
/-- Partitions that take part in a lock. -/
def lockedParts (s : State) : List Nat := (upFrom 0 8).filter (fun p => (lockEntry s p).isSome)

/-- One partition's round: the agreed step, or the step of a failed round. -/
def decideLock (s : State) (p : Nat) : State × Option Nat :=
  let l := getLock s p
  match lockEntry s p with
  | none => (modLock s p (fun x => { x with state := if x.on then 3 else 0, votes := [] }), none)
  | some e =>
    let mine := l.votes.filter (fun v => v.1 = s.power.boundary)
    let keep := l.votes.filter (fun v => s.power.boundary < v.1)
    if (upFrom 0 e.members.length).all (fun i => mine.any (fun v => v.2.1 = i)) then
      let a := mine.foldl (fun m v => min m v.2.2.toNat) 127
      (modLock s p (fun x => { x with state := 1, agreed := BitVec.ofNat 7 a, votes := keep }), some a)
    else
      (modLock s p (fun x => { x with
        state := 2, votes := keep, failed := if x.failed = 0x3FFF then x.failed else x.failed + 1 }),
       some (min s.power.mine.toNat s.power.devCode.toNat))

/-- The round of the last boundary is decided, and the step scheduled at N + 64. -/
def decideRound (s : State) : State :=
  if !s.power.roundOpen then s
  else
    let r := (upFrom 0 8).foldl (fun (a : State × Option Nat) p =>
      let x := decideLock a.1 p
      (x.1, match a.2, x.2 with | some m, some n => some (min m n) | none, y => y | y, none => y)) (s, none)
    lookReasons (modPower r.1 (fun w => { w with
      roundOpen := false, next := some (BitVec.ofNat 64 (w.boundary + 64), BitVec.ofNat 7 (r.2.getD w.mine.toNat)) }))

/-- LOCK_ROUND_DEADLINE (R413): at N + 48. -/
def execLockRoundDeadline (s : State) : Ans :=
  .next (if controlRuns s && decide (s.power.boundary + 48 ≤ s.stage.toNat) then decideRound s else s)

/-- A proposal is recorded with every partition bound to the group of which its source is a member. -/
def noteProposal (s : State) (src : Fid) (g : GroupId) (n : Nat) (c : BitVec 7) (p : Nat) : State :=
  match lockEntry s p with
  | none => s
  | some e =>
    let pos := (upFrom 0 e.members.length).filter (fun i => e.members[i]? = some src && decide (i ≠ e.selfPos))
    if (getLock s p).group.toNat ≠ g.val || decide (n < s.power.boundary) || pos.isEmpty then s
    else modLock s p (fun x => { x with votes := x.votes.filter (fun v => !(v.1 = n && pos.contains v.2.1)) ++ pos.map (fun i => (n, i, c)) })

/-- LOCK_PROPOSAL (R413). -/
def execLockProposal (src : Fid) (g : GroupId) (boundary : Stage) (code : BitVec 7) (s : State) : Ans :=
  .next (if controlRuns s then (upFrom 0 8).foldl (fun t p => noteProposal t src g boundary.toNat code p) s else s)

/-- Sends the proposal of a partition to every other member, and counts its own. -/
def sendProposal (s : State) (c : BitVec 7) (p : Nat) : State :=
  match lockEntry s p with
  | none => s
  | some e =>
    let n := s.power.boundary
    let s1 := (upFrom 0 e.members.length).foldl (fun t i => match e.members[i]? with
      | some f => if i = e.selfPos then t else emit t (.proposal f.toNat (getLock s p).group.toNat (BitVec.ofNat 64 n) c)
      | none => t) s
    modLock s1 p (fun x => { x with votes := x.votes ++ [(n, e.selfPos, c)] })

/-! ## Control intervals (R406 to R408, R419) -/

/-- The integer part of a value that is not negative. -/
def floorNat : FpVal → Nat
  | .fin false m e => if 0 ≤ e then m * 2 ^ e.toNat else m / 2 ^ (-e).toNat
  | _ => 0

/-- µJ in 2⁻¹⁰ µJ of one interval as an average power in W: 256 stages last 262.144 µs. -/
def wattsOf (e : Nat) : Nat := e * 1000 / (262144 * 1024)

/-- E_est exactly: k × E_raw. -/
def estOf (s : State) (raw : Nat) : FpVal := mulV (v32 s.power.k.toNat) (ofInt raw)
/-- E_meas exactly. -/
def measOf (feed : Nat) : FpVal := .fin false feed (-10)

/-- The deviation is above 25 %. -/
def deviates (est meas : FpVal) : Bool := ltV meas (mulV (ofInt 4) (addV est meas.neg).abs)

/-- k + (E_meas / E_raw − k) / 16, rounded once to FP32; without activity the quotient does not exist and k is free. -/
def nextK (s : State) (raw feed : Nat) : Word :=
  if raw = 0 then Config.freeWord s.fresh
  else
    let num := addV (mulV (mulV (ofInt 15) (v32 s.power.k.toNat)) (ofInt raw)) (measOf feed)
    BitVec.ofNat 32 (divV fp32 num (ofInt (16 * raw))).1

/-- The state of R419 after an interval, with the events of the change: kind and intervals that decided it. -/
def calStep (w : Power) (absent div : Bool) : Power × List (Nat × Nat) :=
  if w.cal = 0 then
    if absent then ({ w with cal := 2, diverging := 0 }, [(2, 1)])
    else if !div then ({ w with diverging := 0 }, [])
    else if 2 ≤ w.diverging then ({ w with cal := 1, diverging := 0, agreeing := 0 }, [(0, 3)])
    else ({ w with diverging := w.diverging + 1 }, [])
  else if w.cal = 1 then
    if absent then ({ w with cal := 2, agreeing := 0 }, [(1, 1), (2, 1)])
    else if div then ({ w with agreeing := 0 }, [])
    else if 7 ≤ w.agreeing then ({ w with cal := 0, agreeing := 0, diverging := 0 }, [(1, 8)])
    else ({ w with agreeing := w.agreeing + 1 }, [])
  else if absent then (w, [])
  else ({ w with cal := 0, diverging := b2n div }, [(3, 1)])

/-- ESTIMATE_DIVERGENCE (R419). -/
def divergenceEvent (s : State) (x : Nat × Nat) : State :=
  raiseEvent s 0x0601 (if x.1 = 0 ∨ x.1 = 2 then 1 else 0) 0xFF (srcOf 13 0)
    (leBytes 1 x.1 ++ leBytes 1 x.2 ++ zeros 2 ++ leBytes 4 s.power.est.toNat ++ leBytes 4 s.power.meas.toNat ++
      leBytes 4 s.power.k.toNat)

/-- The excursion hold (R407): 38 intervals above the cap start 38 intervals of hold. -/
def excursion (w : Power) (exceeded : Bool) : Power :=
  let n := if exceeded then w.overCap + 1 else 0
  if 38 ≤ n then { w with overCap := 0, hold := 38 } else { w with overCap := n, hold := w.hold - 1 }

/-- The registers written since the last boundary take effect (R421). -/
def takeRegs (s : State) : State :=
  let s1 := modPower s (fun w => { w with
    capW := regField s 0x300004 31 20, dieLimitW := regField s 0x300004 19 9
    fixedEn := regField s 0x300008 31 31 = 1, fixedCode := BitVec.ofNat 7 (regField s 0x300008 30 24)
    hostMax := BitVec.ofNat 7 (regField s 0x300008 23 17) })
  (upFrom 0 8).foldl (fun t p => modLock t p (fun x =>
    let on := regField s (0x300040 + 4 * p) 31 31 = 1
    let g := BitVec.ofNat 8 (regField s (0x300040 + 4 * p) 28 21)
    { x with on := on, group := g, votes := if on && x.on && x.group = g then x.votes else [] })) s1

/-- `lstate` of the partitions whose lock is off, or whose group is not valid or not theirs. -/
def lockStates (s : State) : State :=
  (upFrom 0 8).foldl (fun t p => modLock t p (fun x =>
    { x with state := if !x.on then 0 else if (lockEntry s p).isNone then 3 else if x.state = 3 then 0 else x.state })) s

/-- What was learned of phases that the interval lay wholly within (R408); the value learned is free. -/
def learn (s : State) (n : Nat) : State :=
  (s.power.phases.filter (fun x => x.awaits.isNone && decide (x.start.toNat + 256 ≤ n))).foldl (fun t x =>
    let v := some (Config.freeWord t.fresh)
    let one := tabSet t.power.learned (256 * x.ctx + x.id.toNat) v
    drawn (modPower t (fun w => { w with learned := tabSet one (16384 + x.cls.toNat) v }))) s

/-- A share of an amount: any part of it, or the whole for the last of a list. -/
def freeShare (s : State) (last : Bool) (rest : Nat) : Nat := if last then rest else Config.choice s.fresh % (rest + 1)

/-- The energy of the queues of a partition: parts of its own energy. -/
def queueEnergy (s : State) (p : Partition) (e : Nat) : State :=
  ((s.host.queues.filter (fun x => p.contexts.contains (qCtx s x.1))).foldl (fun (a : State × Nat) x =>
    let n := freeShare a.1 false a.2
    (drawn (modQ a.1 x.1 (fun u => { u with energy := u.energy + n })), a.2 - n)) (s, e)).1

/-- Attribution (R420): the partitions together take E_est. How much each takes, beyond the sum, is not given by numbers. -/
def attributeTo : State → Nat → List Partition → State
  | s, _, [] => s
  | s, e, p :: t =>
    let n := freeShare s t.isEmpty e
    let s1 := drawn (modPower s (fun w => { w with partEnergy := tabMod 0 w.partEnergy p.part (· + n) }))
    attributeTo (queueEnergy s1 p n) (e - n) t

/-- The codes of R417 that the controller's model finds; every one is free. -/
def findCodes (s : State) : State :=
  let a := modPower s (fun w => { w with capCode := freeCode s })
  let b := modPower (drawn a) (fun w => { w with heatCode := freeCode (drawn a) })
  drawn (modPower (drawn b) (fun w => { w with divCode := freeCode (drawn b) }))

/-- The sustainable step (R406, R415): under c_max, every limit found, and every constraint in force. -/
def sustainable (s : State) : Nat :=
  let w := s.power
  if w.critical || w.alertOn then 24
  else min (min (cMax s) w.heatCode.toNat)
    (min (if w.cal = 0 then w.capCode.toNat else w.divCode.toNat) (min (getDie s 0).limiter.toNat (getDie s 1).limiter.toNat))

/-- The proposal (R413); after EPOCH_LOST never above the step in force (R365). -/
def proposalOf (s : State) : Nat :=
  let a := s.power.devCode.toNat
  let p := min s.power.u.toNat (nextCode a)
  if s.fab.epoch.lost then min p a else p

/-- The step for the next interval: scheduled at N + 64, or proposed to the group. -/
def scheduleStep (s : State) : State :=
  let c := BitVec.ofNat 7 (proposalOf s)
  let s1 := modPower s (fun w => { w with mine := c })
  if (lockedParts s1).isEmpty then
    modPower s1 (fun w => { w with next := some (BitVec.ofNat 64 (w.boundary + 64), c) })
  else (lockedParts s1).foldl (fun t p => sendProposal t c p) (modPower s1 (fun w => { w with roundOpen := true }))

/-- The interval that ended at the last boundary is evaluated, with its measurement or without one. -/
def closeInterval (s : State) (raw : Nat) (feed : Option Nat) : State :=
  let est := estOf s raw
  let uj := floorNat est
  let div := match feed with | some f => deviates est (measOf f) | none => false
  let exceeded := match feed with | some f => decide (s.power.capW * (262144 * 1024) < f * 1000) | none => false
  let r := calStep s.power feed.isNone div
  let k := match feed with | some f => if s.power.cal = 0 ∧ r.1.cal = 0 then nextK s raw f else s.power.k | none => s.power.k
  let w := excursion { r.1 with
    awaiting := none, k := k, est := BitVec.ofNat 32 (min 0xFFFFFFFF uj)
    meas := BitVec.ofNat 32 (match feed with | some f => min 0xFFFFFFFF (f / 1024) | none => 0)
    measW := BitVec.ofNat 16 (match feed with | some f => min 0xFFFF (wattsOf f) | none => 0)
    estW := BitVec.ofNat 16 (min 0xFFFF (wattsOf (uj * 1024))) } exceeded
  let s1 := r.2.foldl divergenceEvent (drawn { s with power := w })
  let s2 := findCodes (attributeTo (learn s1 w.boundary) uj (parts s1))
  let s3 := modPower s2 (fun w => { w with u := BitVec.ofNat 7 (sustainable s2) })
  scheduleStep (lookReasons (modPower s3 (fun w => { w with
    fallBy := if w.u.toNat ≤ w.devCode.toNat then none else w.fallBy })))

/-- What the previous interval left open is ended before the next boundary. -/
def endInterval (s : State) : State :=
  applyStep (decideRound (match s.power.awaiting with | some raw => closeInterval s raw none | none => s))

/-- The feed's converter-fault bit shows the state of the weighhouse's converters (R424, R426). -/
def noteConverter (s : State) (m : PowerReading) : State :=
  modWeigh s (fun w => if !w.powered || w.state = 0 then w else if m.feedFault then { w with state := 2, cur := { w.cur with flags := w.cur.flags ||| 4 } }
    else if w.state = 2 && m.feed.isSome then { w with state := 1 } else w)

/-- CONTROL_INTERVAL (R406): at the boundary, or late where a step of the counter passed over it (R364). -/
def execControlInterval (m : PowerReading) (s0 : State) : Ans :=
  .next (
    let s := noteConverter s0 m
    if !controlRuns s || decide (s.stage.toNat < s.power.boundary + 256) then s
    else
      let n := s.stage.toNat / 256 * 256
      let s1 := endInterval s
      let s2 := if passedOver s1 (BitVec.ofNat 64 n) then lateEvent s1 4 0 (BitVec.ofNat 64 n) else s1
      let s3 := lockStates (takeRegs (modPower ((upFrom 1 7).foldl leaveReason s2) (fun w => { w with boundary := n })))
      match m.feed with
      | none => modPower s3 (fun w => { w with awaiting := some m.raw })
      | some f => closeInterval s3 m.raw (if m.feedFault then none else some f))

/-- CONTROL_FEED_TIMEOUT (R424): no feed by N + 4. -/
def execControlFeedTimeout (s : State) : Ans :=
  .next (
    match s.power.awaiting with
    | none => s
    | some raw => if controlRuns s && decide (s.power.boundary + 4 ≤ s.stage.toNat) then closeInterval s raw none else s)

/-! ## The current limiter (R411) -/

/-- One step of the limiter down from the die's clock: never below 32, then the floor state. -/
def limiterDown (c : Nat) : Nat := if 32 < c then max 32 (c - 8) else 24
/-- One code up. -/
def limiterUp (c : Nat) : Nat := if c = 24 then 32 else c + 1

/-- CURRENT_LIMITER_SAMPLE (R411): one reading of 128 ns; a stage holds eight. -/
def execCurrentLimiterSample (d : DieId) (watts : Nat) (s : State) : Ans :=
  .next (
    if !powerRuns s then s
    else
      let x := getDie s d.val
      let lim := s.power.dieLimitW
      let exceeded := if lim < watts then x.exceeded + 1 else 0
      let under := if watts * 10 < lim * 9 then x.under + 1 else 0
      let s1 := modDie s d.val (fun y => { y with exceeded := exceeded % 4, under := under })
      let s2 :=
        if 4 ≤ exceeded then modDie s1 d.val (fun y => { y with limiter := BitVec.ofNat 7 (limiterDown (dieStep s d.val)) })
        else if x.limiter ≠ 127 && decide (128 ≤ under) && under % 8 = 0 then
          let c := limiterUp x.limiter.toNat
          modDie s1 d.val (fun y => { y with limiter := if s.power.devCode.toNat ≤ c then 127 else BitVec.ofNat 7 c })
        else s1
      settleSteps s s2)

/-! ## Sensors and alerts (R410, R412) -/

/-- A reading beside its critical and trip limits, in °C. -/
def readings (t : SensorReading) : List (BitVec 16 × Int × Int) :=
  [(t.die0, 105, 115), (t.die1, 105, 115), (t.io, 108, 115)] ++ t.hbm.map (fun x => (x, 100, 105))

/-- SENSOR_READ (R410). -/
def execSensorRead (t : SensorReading) (s : State) : Ans :=
  .next (
    if !powerRuns s then s
    else
      let l := readings t
      let hot := l.any (fun x => decide (8 * (x.2.1 - 5) < tempOf x.1))
      let crit := l.any (fun x => decide (8 * x.2.1 ≤ tempOf x.1))
      let trip := l.any (fun x => decide (8 * x.2.2 ≤ tempOf x.1))
      let s1 := modDie (modDie s 0 (fun x => { x with tmax := t.die0 })) 1 (fun x => { x with tmax := t.die1 })
      let s2 := settleSteps s (modPower s1 (fun w => { w with
        ioTemp := t.io, hbmTemp := t.hbm.take 12, critical := w.critical || crit, hotAt := if hot then s.stage else w.hotAt }))
      if trip then emit (modDev (freezeDevice s2 3) (fun d => { d with therm := true })) .thermTripN else s2)

/-- THERMAL_FLOOR_EXIT (R410): every sensor has stayed 5 °C below its critical limit for 256 stages. -/
def execThermalFloorExit (s : State) : Ans :=
  .next (
    if powerRuns s && s.power.critical && decide (s.power.hotAt.toNat + 256 ≤ s.stage.toNat) then
      settleSteps s (modPower s (fun w => { w with critical := false }))
    else s)

/-- SUPPLY_ALERT (R412). -/
def execSupplyAlert (sources : BitVec 5) (s : State) : Ans :=
  .next (
    if !powerRuns s || sources = 0 then s
    else settleSteps s (modPower s (fun w => { w with
      alert := if w.alertOn then w.alert ||| sources else sources, alertOn := true, alertAt := s.stage })))

/-- SUPPLY_ALERT_CLEAR (R412): the device step restarts from code 32. -/
def execSupplyAlertClear (s : State) : Ans :=
  .next (
    if powerRuns s && s.power.alertOn && decide (s.power.alertAt.toNat + 256 ≤ s.stage.toNat) then
      settleSteps s (modPower s (fun w => { w with
        alertOn := false, alert := 0, devCode := 32, next := none, fallBy := some 4 }))
    else s)

/-! ## Guard bands (R405) -/

/-- Logs a trim, newest first; the log keeps 1,024 entries. -/
def logTrim (s : State) (x : Trim) : State := modPower s (fun w => { w with trimLog := (x :: w.trimLog).take 1024 })

/-- GUARD_BAND_REVIEW (R405): one review of a die at a multiple of 2²⁶ stages. -/
def execGuardBandReview (d : DieId) (slackMv : Nat) (s : State) : Ans :=
  .next (
    let x := getDie s d.val
    let n := s.stage.toNat / 2 ^ 26
    if !powerRuns s || decide (n ≤ x.reviewed) then s
    else
      let s1 := modDie s d.val (fun y => { y with reviewed := n })
      let g := x.guardMv.toNat
      let log := fun (t : State) (v : Nat) => modDie (logTrim t
        ⟨BitVec.ofNat 64 (n * 2 ^ 26), BitVec.ofNat 8 d.val, x.guardMv, BitVec.ofNat 8 v, BitVec.ofNat 8 (min 255 slackMv)⟩) d.val (fun y =>
          { y with trims := if y.trims = 0xFFFF then y.trims else y.trims + 1 })
      if g + 15 < slackMv && decide (x.floorMv.toNat + 5 ≤ g) then
        modDie (log s1 (g - 5)) d.val (fun y => { y with guardNext := BitVec.ofNat 8 (g - 5) })
      else if slackMv < g + 5 && decide (g + 5 ≤ 75) then
        modDie (log s1 (g + 5)) d.val (fun y => { y with guardMv := BitVec.ofNat 8 (g + 5), guardNext := BitVec.ofNat 8 (g + 5) })
      else s1)

end Sys2Proof.Machine
end

