-- ==== Sys2Proof/Machine/Weighhouse.lean ====
section
/-! DEFINITION. The weighhouse: samples, interval records and their chain (R423, R425, R426), checkpoints and their signatures
(R427, R428), recalibration (R429) and the end of its supply (R492). -/

namespace Sys2Proof.Machine

/-! ## Genesis and intervals -/

/-- The public key. -/
def weighKey : List Byte := (upFrom 0 64).map Config.weighKey

/-- The interval that begins at a stage; bit 0 of its flags says that the epoch is not locked. -/
def newInterval (s : State) (first : Stage) (partly : Bool) : Interval :=
  { first := first, flags := BitVec.ofNat 8 (b2n (decide (s.fab.epoch.state ≠ 1)) + 8 * b2n partly) }

/-- A checkpoint is taken (R427); the newest 8 are kept. -/
def takeCheckpoint (s : State) (kind : Nat) : State :=
  let w := s.weigh
  let bytes := leBytes 2 1 ++ leBytes 1 kind ++ leBytes 1 w.sealNo.toNat ++ leBytes 4 w.ckptIndex ++ leBytes 8 s.stage.toNat ++
    leBytes 4 (if w.index = 0 then 0xFFFFFFFF else w.index - 1) ++ zeros 4 ++ leBytes 8 w.total ++ bytesAt w.chain 0 32 ++
    bytesAt w.nonce 0 32 ++ shake256 weighKey
  let l := w.ckpts ++ [⟨bytes, false, 0⟩]
  modWeigh s (fun w => { w with ckptIndex := w.ckptIndex + 1, ckpts := l.drop (l.length - 8) })

/-- Genesis (R426, R427): a new chain from a nonce, and its checkpoint. -/
def genesis (s : State) (nonce : List Byte) : State :=
  takeCheckpoint (modWeigh s (fun w => { w with
    state := 1, powered := true, req := false, index := 0, records := [], total := 0, carry := 0, ckpts := [], ckptIndex := 0
    nonce := nonce, chain := shake256 (nonce ++ weighKey), ckptWindow := s.stage.toNat / 2 ^ 26
    cur := newInterval s s.stage true })) 0

/-- A nonce that the random source draws. -/
def freeNonce (s : State) : List Byte := ((upFrom s.fresh 8).map (fun i => leBytes 4 (Config.freeWord i).toNat)).flatten

/-- Genesis in progress ends. -/
def weighReady (s : State) : State :=
  if s.weigh.state = 0 then genesis { s with fresh := s.fresh + 8 } (freeNonce s) else s

/-- The energy of the interval in whole µJ, and what is carried (R423). -/
def intervalEnergy (w : Weigh) : Nat × Nat := ((w.cur.energy + w.carry) / 2 ^ 40, (w.cur.energy + w.carry) % 2 ^ 40)

/-- Bytes 0 to 31 of a record (R426). -/
def recordHead (w : Weigh) : List Byte :=
  leBytes 8 w.cur.first.toNat ++ leBytes 8 (intervalEnergy w).1 ++ leBytes 4 w.cur.samples.toNat ++ leBytes 2 w.cur.hi.toNat ++
  leBytes 2 w.cur.lo.toNat ++ leBytes 4 w.index ++ [w.cur.flags] ++ leBytes 1 w.sealNo.toNat ++ zeros 2

/-- Closes the interval: its record, chained; the newest 4,096 are kept. -/
def closeRecord (s : State) (partly : Bool) : State :=
  modWeigh s (fun w =>
    let v := { w with cur := { w.cur with flags := if partly then w.cur.flags ||| 8 else w.cur.flags } }
    let head := recordHead v
    let h := shake256 (v.chain ++ head)
    { v with index := v.index + 1, total := v.total + (intervalEnergy v).1, carry := (intervalEnergy v).2, chain := h
             records := ((head ++ h) :: v.records).take 4096 })

/-- The first stage of the window of 2²⁰ stages. -/
def windowStart (s : State) : Nat := s.stage.toNat / 2 ^ 20 * 2 ^ 20
/-- The interval being measured lies before the present window. -/
def intervalDue (s : State) : Bool := decide (s.weigh.cur.first.toNat < windowStart s)

/-- At a boundary the interval closes and the next opens; a boundary that a step passed over is late (R364, R371). -/
def turnInterval (s : State) : State :=
  if !intervalDue s then s
  else
    let b := BitVec.ofNat 64 (windowStart s)
    let s1 := if passedOver s b then lateEvent s 5 0 b else s
    modWeigh (closeRecord s1 false) (fun w => { w with cur := newInterval s b false })

/-- The weighhouse measures: it has its supply and is past genesis. -/
def weighRuns (s : State) : Bool := s.weigh.powered

/-- WEIGHHOUSE_SAMPLE (R423): the exact product of calibrated voltage and current, over 1 µs; a current at the converter's
last code lies beyond its range. -/
def execWeighhouseSample (volts amps : BitVec 16) (s : State) : Ans :=
  .next (
    if !weighRuns s then s
    else
      let s1 := turnInterval (weighReady s)
      let p := Config.weighVolts s.weigh.calibration volts * Config.weighAmps s.weigh.calibration amps
      let w := BitVec.ofNat 16 (min 0xFFFF (p / 2 ^ 40))
      modWeigh s1 (fun x => { x with cur :=
        { x.cur with
          energy := x.cur.energy + p, samples := x.cur.samples + 1
          hi := if x.cur.samples = 0 || decide (x.cur.hi.toNat < w.toNat) then w else x.cur.hi
          lo := if x.cur.samples = 0 || decide (w.toNat < x.cur.lo.toNat) then w else x.cur.lo
          flags := if amps = 0xFFFF then x.cur.flags ||| 2 else x.cur.flags } }))

/-- WEIGHHOUSE_INTERVAL (R423). -/
def execWeighhouseInterval (s : State) : Ans := .next (if weighRuns s then turnInterval (weighReady s) else s)

/-- WEIGHHOUSE_CHECKPOINT (R427): at a multiple of 2²⁶ stages, over the intervals closed there. -/
def execWeighhouseCheckpoint (s : State) : Ans :=
  .next (
    if !weighRuns s then s
    else
      let s1 := turnInterval (weighReady s)
      let n := s.stage.toNat / 2 ^ 26
      if n ≤ s1.weigh.ckptWindow then s1
      else takeCheckpoint (modWeigh s1 (fun w => { w with ckptWindow := n })) 1)

/-- A requested checkpoint (R428): one made while another is pending is absorbed. -/
def requestCheckpoint (s : State) : State :=
  if !weighRuns s || s.weigh.req then s
  else takeCheckpoint (modWeigh (weighReady s) (fun w => { w with req := true })) 2

/-- Signs the first unsigned checkpoint of a list. -/
def signFirst (n : Nat) : List Checkpoint → List Checkpoint
  | [] => []
  | c :: t => if c.signed then c :: signFirst n t else { c with signed := true, draw := n } :: t

/-- CHECKPOINT_SIGNED (R427): in order, one at a time; a request is served once no requested checkpoint is left unsigned. -/
def execCheckpointSigned (s : State) : Ans :=
  .next (
    if !weighRuns s then s
    else
      let l := signFirst s.fresh s.weigh.ckpts
      drawn (modWeigh s (fun w => { w with
        ckpts := l, req := w.req && l.any (fun c => !c.signed && fieldAt c.bytes 2 1 = 2) })))

/-- The signature bytes of a signed checkpoint. -/
def signatureByte (c : Checkpoint) (i : Nat) : Byte := if c.signed then Config.weighSignature c.bytes c.draw i else 0

/-- WEIGHHOUSE_RECALIBRATION (R429): the interval is closed as partial, the fuse is blown, and where the reference was
measured the new calibration holds and a checkpoint is taken. -/
def execWeighhouseRecalibration (authorised measured : Bool) (s : State) : Ans :=
  .next (
    if !weighRuns s || !authorised || s.weigh.sealNo = 63 then s
    else
      let s1 := closeRecord (turnInterval (weighReady s)) true
      let s2 := modWeigh s1 (fun w => { w with sealNo := w.sealNo + 1, cur := newInterval s s.stage true })
      if measured then takeCheckpoint (modWeigh s2 (fun w => { w with calibration := w.calibration + 1 })) 3 else s2)

/-- WEIGHHOUSE_POWER_OFF (R492): below 12 V its domain loses power; seal and calibration are fuses. -/
def execWeighhousePowerOff (s : State) : Ans :=
  .next (
    if s.dev.powered || !weighRuns s then s
    else modWeigh s (fun w => { sealNo := w.sealNo, calibration := w.calibration, powered := false }))

end Sys2Proof.Machine
end

