-- ==== Sys2Proof/Machine/ImageCheck.lean ====
section
/-! DEFINITION. Ecloth images: their form (R430 to R436) and the checks that make one valid (R437). A failed check is its code
and the offset of the first failing byte. -/

namespace Sys2Proof.Machine

/-! ## Form -/

/-- Bytes of an image past its body: the signer's key and the signature. -/
def imageTail : Nat := 64 + 29792
/-- The body of an image. -/
def imageBody (b : List Byte) : List Byte := (b.drop 128).take (fieldAt b 24 4)
/-- The public key of the signer. -/
def imageKey (b : List Byte) : List Byte := bytesAt b (128 + fieldAt b 24 4) 64

/-- A section: its type, where its content lies in the image, and its content. -/
structure Sect where
  kind : Nat
  off : Nat
  data : List Byte

/-- The sections of a body that begins at an offset of the image, or the offset of the first failing byte. -/
def sections : Nat → Nat → List Byte → Except Nat (List Sect)
  | _, _, [] => .ok []
  | 0, off, _ => .error off
  | k + 1, off, b =>
    let n := fieldAt b 4 4
    if b.length < 16 then .error off
    else if !decide (1 ≤ fieldAt b 0 2) || decide (7 < fieldAt b 0 2) then .error off
    else if fieldAt b 2 2 ≠ 0 then .error (off + 2)
    else if n % 8 ≠ 0 || decide (b.length < 16 + n) then .error (off + 4)
    else if !allZero (bytesAt b 8 8) then .error (off + 8)
    else match sections k (off + 16 + n) (b.drop (16 + n)) with
      | .error e => .error e
      | .ok l => .ok (⟨fieldAt b 0 2, off + 16, (b.drop 16).take n⟩ :: l)

/-- The sections of an image. -/
def imageSections (b : List Byte) : Except Nat (List Sect) := sections (fieldAt b 14 2) 128 (imageBody b)

/-- The sections of one type. -/
def ofKind (l : List Sect) (k : Nat) : List Sect := l.filter (fun x => x.kind = k)
/-- The content of the only section of a type. -/
def oneOf (l : List Sect) (k : Nat) : List Byte := match ofKind l k with | x :: _ => x.data | [] => []

/-- The set bits of a field. -/
def bitList (x n : Nat) : List Nat := (upFrom 0 n).filter (bitOf x)

/-- A partition section (R435). -/
def partitionOf (b : List Byte) : Partition where
  part := fieldAt b 0 1
  clusters := bitList (fieldAt b 4 10) 80
  stackIds := bitList (fieldAt b 14 2) 12
  ports := bitList (fieldAt b 16 2) 16
  functions := bitList (fieldAt b 18 8) 64
  ownerFn := fieldAt b 26 1
  droverRsv := fieldAt b 27 1
  accShare := fieldAt b 28 1
  lockEn := bitOf (fieldAt b 29 1) 7
  lockGroup := fieldAt b 30 1
  powerShare := fieldAt b 32 2
  tallyShare := fieldAt b 34 2
  poolFirst := fieldAt b 36 4 % 2 ^ 24
  poolCount := fieldAt b 40 4 % 2 ^ 25
  frameBase := fieldAt b 44 8
  frames := fieldAt b 52 4 % 2 ^ 24
  frameUnits := fieldAt b 56 2
  seqShare := fieldAt b 58 2
  streamFirst := fieldAt b 60 2
  streamCount := fieldAt b 62 2
  channels := bitList (fieldAt b 64 4) 32
  contexts := bitList (fieldAt b 68 8) 64

/-- The image as the device holds it. -/
def imageOf (b : List Byte) (l : List Sect) : Image :=
  let d := oneOf l 1
  { serial := BitVec.ofNat 64 (fieldAt b 16 8), personality := BitVec.ofNat 8 (fieldAt d 0 1), pcieUse := BitVec.ofNat 8 (fieldAt d 1 1)
    rolrePorts := BitVec.ofNat 16 (fieldAt d 2 2), fidPin := BitVec.ofNat 16 (fieldAt d 4 2), pulseEn := bitOf (fieldAt d 6 1) 0
    cfgFn := fieldAt d 7 1, capW := fieldAt d 8 2, dieLimitW := fieldAt d 10 2
    clusterMap := (chunksOf 2 (oneOf l 2)).map (fun x => ((x[0]?).getD 0, (x[1]?).getD 0))
    parts := (ofKind l 3).map (fun x => partitionOf x.data)
    queues := chunksOf 8 (oneOf l 4), contexts := chunksOf 4 (oneOf l 5), groups := (ofKind l 6).map (·.data)
    keys := chunksOf 40 (oneOf l 7) }

/-! ## Queue and context entries (R436) -/

/-- The context of a queue entry; 0xFF for an unused queue. -/
def qeCtx (e : List Byte) : Nat := fieldAt e 0 1
/-- Its attachment. -/
def qeAttach (e : List Byte) : Nat := bitsOf (fieldAt e 1 1) 3 2
/-- The function index it is attached to. -/
def qeFn (e : List Byte) : Nat := 32 * (qeAttach e % 2) + bitsOf (fieldAt e 2 1) 4 0
/-- The standby function index, where the entry names one on a port. -/
def qeStandby (e : List Byte) : Option Nat :=
  let b := fieldAt e 3 1
  if bitOf b 7 && decide (bitsOf b 6 5 < 2) then some (32 * bitsOf b 6 5 + bitsOf b 4 0) else none
/-- The event function of a context entry, where it lies on a port. -/
def ceEvent (e : List Byte) : Option Nat :=
  if bitsOf (fieldAt e 2 1) 1 0 < 2 then some (32 * bitsOf (fieldAt e 2 1) 1 0 + fieldAt e 3 1 % 32) else none

/-! ## Checks (R437) -/

/-- A failed check: code and offset. -/
abbrev Bad := Option (Nat × Nat)
/-- A condition that must hold. -/
def must (code off : Nat) (ok : Bool) : Bad := if ok then none else some (code, off)
/-- The first failure. -/
def firstBad (l : List Bad) : Bad := l.findSome? id

/-- Check 1: the header. -/
def headerBad (s : State) (b : List Byte) : Bad :=
  let g := fieldAt b 12 1
  firstBad [
    must 1 0 (bytesAt b 0 8 = [0x45, 0x43, 0x4C, 0x4F, 0x54, 0x48, 0x30, 0x31]),
    must 1 8 (fieldAt b 8 2 = 1), must 1 10 (fieldAt b 10 2 = 0x5C12),
    must 1 12 (decide (g < 4) && bitOf g (b2n (smallGrade s))), must 1 13 (fieldAt b 13 1 = 0),
    must 1 14 (decide (1 ≤ fieldAt b 14 2) && decide (fieldAt b 14 2 ≤ 512)),
    must 1 24 (decide (fieldAt b 24 4 ≤ 2 ^ 22) && b.length = 128 + fieldAt b 24 4 + imageTail), must 1 28 (fieldAt b 28 4 = 0)]

/-- The signer is the boot ROM's or an enrolled owner that is not revoked; the first owner is enrolled by its own image
(R431). -/
def signerOk (s : State) (b : List Byte) (enrol : Bool) : Bool :=
  let d := bytesAt b 96 32
  d = Config.imageKeyDigest || s.cfg.owners.any (fun o => o.2.1 = d && !o.2.2) || (enrol && s.cfg.owners.isEmpty)

/-- Check 2: digest, signer and signature; `signed` is the verdict of the signature check itself. -/
def signatureBad (s : State) (b : List Byte) (signed enrol : Bool) : Bad :=
  firstBad [
    must 2 32 (bytesAt b 32 64 = shakeBytes 64 (imageBody b)),
    must 2 96 (bytesAt b 96 32 = shake256 (imageKey b) && signerOk s b enrol),
    must 2 (128 + fieldAt b 24 4 + 64) signed]

/-- Content of one section: lengths, reserved fields and the ranges its layout states. -/
def sectionBad (x : Sect) : Bad :=
  let d := x.data
  let n := d.length
  let at_ := fun (o : Nat) (ok : Bool) => must 3 (x.off + o) ok
  match x.kind with
  | 1 => firstBad [at_ 0 (n = 48), at_ 8 (decide (320 ≤ fieldAt d 8 2) && decide (fieldAt d 8 2 ≤ 3200)),
      at_ 10 (decide (400 ≤ fieldAt d 10 2) && decide (fieldAt d 10 2 ≤ 1650)), at_ 12 (allZero (d.drop 12))]
  | 2 => at_ 0 (n = 160)
  | 3 => firstBad [at_ 0 (n = 128 && decide (fieldAt d 0 1 < 8)), at_ 1 (fieldAt d 1 3 = 0), at_ 14 (decide (fieldAt d 14 2 < 4096)),
      at_ 27 (decide (fieldAt d 27 1 ≤ 16)), at_ 28 (decide (8 ≤ fieldAt d 28 1) && decide (fieldAt d 28 1 ≤ 32)),
      at_ 29 (fieldAt d 29 1 % 128 = 0), at_ 31 (fieldAt d 31 1 = 0), at_ 39 (fieldAt d 39 1 = 0),
      at_ 40 (decide (fieldAt d 40 4 < 2 ^ 25)), at_ 44 (fieldAt d 44 8 % 0x10000 = 0), at_ 55 (fieldAt d 55 1 = 0),
      at_ 56 (decide (1 ≤ fieldAt d 56 2) && decide (fieldAt d 56 2 ≤ 2047)), at_ 76 (allZero (d.drop 76))]
  | 4 => firstBad [at_ 0 (n = 2048), at_ 6 ((chunksOf 8 d).all (fun e => fieldAt e 6 2 = 0 && (qeCtx e = 0xFF || decide (qeCtx e < 64))))]
  | 5 => firstBad [at_ 0 (n = 256), at_ 0 ((chunksOf 4 d).all (fun e => (fieldAt e 0 1 = 0xFF || decide (fieldAt e 0 1 < 8)) && decide (fieldAt e 1 1 < 16)))]
  | 6 => at_ 3 (fieldAt d 3 5 = 0)
  | _ => firstBad [at_ 0 (n % 40 = 0 && decide (n ≤ 160)), at_ 0 ((chunksOf 40 d).all (fun e =>
      decide (fieldAt e 0 1 < 4) && (fieldAt e 1 1 = 1 || (fieldAt e 1 1 = 2 && allZero (e.drop 8))) && allZero (bytesAt e 2 6)))]

/-- Check 3: the sections. -/
def sectionsBad (l : List Sect) : Bad :=
  let n := fun (k : Nat) => (ofKind l k).length
  firstBad ([must 3 128 (n 1 = 1 && n 2 = 1 && decide (n 3 ≤ 8) && n 4 = 1 && n 5 = 1 && decide (n 6 ≤ 256) && decide (n 7 ≤ 1))] ++
    l.map sectionBad ++
    [must 3 128 (((ofKind l 3).map (fun x => fieldAt x.data 0 1)).eraseDups.length = n 3)])

/-- Offset of the section of a type. -/
def offOf (l : List Sect) (k : Nat) : Nat := match ofKind l k with | x :: _ => x.off | [] => 128

/-- Physical cluster of a logical one in the map, as 40 × die + number. -/
def physOf (i : Image) (c : Nat) : Option Nat :=
  match i.clusterMap[c]? with
  | some (p, _) => if p.toNat < 40 then some (40 * (c / 40) + p.toNat) else none
  | none => none

/-- Check 4: the cluster map. -/
def mapBad (s : State) (l : List Sect) (i : Image) : Bad :=
  let o := offOf l 2
  firstBad ((upFrom 0 80).map (fun c =>
    match i.clusterMap[c]? with
    | none => some (4, o)
    | some (p, sp) =>
      must 4 (o + 2 * c) (if cluPresent s c then
        decide (p.toNat < 40) && decide (sp.toNat ≤ 16) && (!smallGrade s || Config.clusterEnabled (40 * (c / 40) + p.toNat)) &&
          !((upFrom (c / 40 * 40) (c % 40)).any (fun x => physOf i x = physOf i c))
      else p = 0xFF)))

/-- Two lists have nothing in common. -/
def apart (a b : List Nat) : Bool := a.all (fun x => !b.contains x)
/-- Two ranges have nothing in common. -/
def rangesApart (a n b m : Nat) : Bool := n = 0 || m = 0 || decide (a + n ≤ b) || decide (b + m ≤ a)

/-- Resources two partitions share: the offset of the field in the second one's section. -/
def sharedBad (o : Nat) (p r : Partition) : Bad :=
  firstBad [must 5 (o + 4) (apart p.clusters r.clusters), must 5 (o + 14) (apart p.stackIds r.stackIds), must 5 (o + 16) (apart p.ports r.ports),
    must 5 (o + 18) (apart p.functions r.functions), must 5 (o + 68) (apart p.contexts r.contexts), must 5 (o + 64) (apart p.channels r.channels),
    must 5 (o + 36) (rangesApart p.poolFirst p.poolCount r.poolFirst r.poolCount),
    must 5 (o + 60) (rangesApart p.streamFirst p.streamCount r.streamFirst r.streamCount)]

/-- Check 5: every partition against those before it. -/
def disjointBad : List Partition → List (Nat × Partition) → Bad
  | _, [] => none
  | before, (o, p) :: t => match firstBad (before.map (fun r => sharedBad o r p)) with
    | some e => some e
    | none => disjointBad (before ++ [p]) t

/-- Check 6: shares and ranges. -/
def sharesBad (l : List (Nat × Partition)) : Bad :=
  let sum := fun (f : Partition → Nat) => listSum (l.map (fun x => f x.2))
  let o := match l with | x :: _ => x.1 | [] => 128
  firstBad ([must 6 (o + 32) (decide (sum (·.powerShare) ≤ 1024)), must 6 (o + 34) (decide (sum (·.tallyShare) ≤ 16384)),
    must 6 (o + 58) (decide (sum (·.seqShare) ≤ 4096))] ++
    l.map (fun x => firstBad [must 6 (x.1 + 36) (decide (x.2.poolFirst + x.2.poolCount ≤ 16777216)),
      must 6 (x.1 + 60) (decide (x.2.streamFirst + x.2.streamCount ≤ 1024))]))

/-- Check 7: the frame area. -/
def framesBad (x : Nat × Partition) : Bad :=
  firstBad [must 7 (x.1 + 44) (decide (x.2.frameBase + x.2.frames * (x.2.frameUnits * 128) ≤ allocSize x.2)),
    must 7 (x.1 + 56) (decide (65664 ≤ x.2.frameUnits * 128))]

/-- `pcie_use` of a port in an image. -/
def useOf (i : Image) (p : Nat) : Nat := bitsOf i.pcieUse.toNat (2 * p + 1) (2 * p)

/-- Check 8: owners, functions, contexts and queues of one partition stand together and agree with `pcie_use`. -/
def ownersBad (l : List Sect) (i : Image) : Bad :=
  let ps := (ofKind l 3).map (fun x => (x.off, partitionOf x.data))
  let partCtx := fun (c : Nat) => ps.find? (fun x => x.2.contexts.contains c)
  firstBad (
    ps.map (fun x => firstBad [must 8 (x.1 + 26) (x.2.functions.contains x.2.ownerFn),
      must 8 (x.1 + 18) (x.2.functions.all (fun f => decide (useOf i (f / 32) ≠ 0)))]) ++
    (upFrom 0 64).map (fun c =>
      let e := (i.contexts[c]?).getD []
      must 8 (offOf l 5 + 4 * c) (match partCtx c with
        | none => fieldAt e 0 1 = 0xFF
        | some x => fieldAt e 0 1 = x.2.part && (match ceEvent e with | some f => x.2.functions.contains f | none => true))) ++
    (upFrom 0 256).map (fun q =>
      let e := (i.queues[q]?).getD []
      must 8 (offOf l 4 + 8 * q) (qeCtx e = 0xFF || (match partCtx (qeCtx e) with
        | none => false
        | some x => decide (qeAttach e ≠ 3) &&
            (qeAttach e = 2 || (x.2.functions.contains (qeFn e) && useOf i (qeFn e / 32) = 1)) &&
            (match qeStandby e with
              | some f => x.2.functions.contains f && decide (useOf i (f / 32) ≠ 0) && decide (useOf i (f / 32) ≠ 3)
              | none => true)))))

/-- Check 9: the groups. -/
def groupsBad (l : List Sect) : Bad :=
  let ps := (ofKind l 3).map (fun x => partitionOf x.data)
  firstBad ((ofKind l 6).map (fun x =>
    let g := fieldAt x.data 0 2
    let c := fieldAt x.data 2 1
    let img := x.data.drop 8
    firstBad [must 9 x.off (decide (g < 256) && ps.any (fun p => p.channels.contains (g % 32) && p.contexts.contains c)),
      must 9 (x.off + 8) ((groupImage img).isSome && decide (64 + 2 * fieldAt img 0 2 ≤ img.length))]))

/-- Check 10: personality and ports. -/
def personalityBad (l : List Sect) (i : Image) : Bad :=
  let a := useOf i 0
  let b := useOf i 1
  let o := offOf l 1
  let ok := match i.personality.toNat with
    | 0 => decide (a ≤ 1) && decide (b ≤ 1)
    | 1 => (a = 1 && b = 2) || (a = 2 && b = 1)
    | 2 => (a = 0 || a = 3) && (b = 0 || b = 3)
    | _ => false
  firstBad [must 10 o (decide (i.personality.toNat ≤ 2)), must 10 (o + 1) (ok && decide (i.pcieUse.toNat < 16)),
    must 10 (o + 7) (decide (i.cfgFn < 64))]

/-- Check 11: the serial number must be greater than that in force, but for a boot from flash. -/
def serialBad (s : State) (i : Image) (boot : Bool) : Bad :=
  must 11 16 (boot || match s.cfg.image with | none => true | some j => decide (j.serial.toNat < i.serial.toNat))

/-- All checks of R437 but the last: the image, or the first failure. -/
def checkImage (s : State) (b : List Byte) (signed enrol boot : Bool) : Except (Nat × Nat) Image :=
  match firstBad [headerBad s b] with
  | some e => .error e
  | none => match signatureBad s b signed enrol with
    | some e => .error e
    | none => match imageSections b with
      | .error off => .error (3, off)
      | .ok l =>
        let i := imageOf b l
        let ps := (ofKind l 3).map (fun x => (x.off, partitionOf x.data))
        match must 3 14 (l.length = fieldAt b 14 2) with
        | some e => .error e
        | none => match sectionsBad l with
          | some e => .error e
          | none => match firstBad ([mapBad s l i, disjointBad [] ps, sharesBad ps] ++ ps.map framesBad ++
              [ownersBad l i, groupsBad l, personalityBad l i, serialBad s i boot]) with
            | some e => .error e
            | none => .ok i

end Sys2Proof.Machine
end

