-- ==== Sys2Proof/Machine/Configure.lean ====
section
/-! DEFINITION. Applying an Ecloth image: what changes, quiescing, the conditions of R441, the new resources and registers
(R439 to R444), owner keys (R431), and partition resets (R493 to R495), which an apply can hold back. -/

namespace Sys2Proof.Machine

/-! ## Partition resets -/

/-- A partition reset acts on every context of the partition (R399, R493). -/
def resetPartition (s : State) (p : Nat) : State :=
  match getPart s p with
  | none => s
  | some x => x.contexts.foldl resetContext (modDev s (fun d => { d with partReset := some p, resetStatus := 0 }))

/-- Resets that waited for an apply are performed when it has ended (R494). -/
def waitedResets (s : State) : State :=
  s.dev.waitResets.foldl (fun t x => if x.1 then resetPartition t x.2 else resetContext t x.2)
    (modDev s (fun d => { d with waitResets := [] }))

/-! ## Events and the end of a command -/

/-- CONFIG_APPLIED (R444). -/
def configApplied (s : State) (outcome code : Nat) (changed : List Nat) (serial : Nat) (off : Nat) : State :=
  raiseEvent s 0x0901 (if outcome = 0 ∨ outcome = 3 then 0 else 1) 0xFF (srcOf 0 0)
    (leBytes 1 outcome ++ leBytes 1 code ++ leBytes 1 (listSum (changed.map (fun p => 2 ^ p))) ++ zeros 1 ++ leBytes 8 serial ++ leBytes 4 off)

/-- The image is written to flash. -/
def writeFlash (s : State) (b : List Byte) : State := modCfg s (fun c => { c with flash := b, flashOk := true })

/-- The command ends: idle, or applied with device-wide changes pending; what waited for it goes on. -/
def endApply (s : State) : State :=
  waitedResets (modCfg s (fun c => { c with apply := none, cstate := if c.waiting then 5 else 0 }))

/-- A rejected image. -/
def rejectImage (s : State) (code off : Nat) (serial : Nat) : State :=
  configApplied (modCfg s (fun c => { c with lastError := BitVec.ofNat 4 code })) 1 code [] serial off

/-! ## Owner keys (R431) -/

/-- One key entry: enrolled into an empty slot, or revoked for good. -/
def keyEntry (o : Tab (List Byte × Bool)) (e : List Byte) : Tab (List Byte × Bool) :=
  let n := fieldAt e 0 1
  match fieldAt e 1 1, tabFind o n with
  | 1, none => tabSet o n (some (bytesAt e 8 32, false))
  | 2, some (d, _) => tabSet o n (some (d, true))
  | _, _ => o

/-- Enrolment of the first owner, and the keys of an image that an enrolled owner has signed. -/
def enrolKeys (s : State) (b : List Byte) (i : Image) (enrol : Bool) : State :=
  let d := bytesAt b 96 32
  modCfg s (fun c =>
    let o := if enrol && c.owners.isEmpty then [(0, (d, false))] else c.owners
    { c with owners := if c.owners.any (fun x => x.2.1 = d && !x.2.2) then i.keys.foldl keyEntry o else o })

/-! ## What changes (R439) -/

/-- The device section or the cluster map differs. -/
def deviceWide (a b : Image) : Bool :=
  !(a.personality = b.personality && a.pcieUse = b.pcieUse && a.rolrePorts = b.rolrePorts && a.fidPin = b.fidPin &&
    a.pulseEn = b.pulseEn && a.cfgFn = b.cfgFn && a.capW = b.capW && a.dieLimitW = b.dieLimitW && decide (a.clusterMap = b.clusterMap))

/-- Partition p of an image. -/
def imagePart (i : Image) (p : Nat) : Option Partition := i.parts.find? (fun x => x.part = p)
/-- An image's partition that holds a resource. -/
def partHolder (i : Image) (f : Partition → Bool) : Option Partition := i.parts.find? f
/-- The index of that partition; 255 for none. -/
def holderIdx (i : Image) (f : Partition → Bool) : Nat := partIdx (partHolder i f)

/-- Contexts of partition p in an image. -/
def imageCtxs (i : Image) (p : Nat) : List Nat := match imagePart i p with | some x => x.contexts | none => []
/-- A queue entry belongs to partition p of an image. -/
def queueIn (i : Image) (p q : Nat) : Bool := (imageCtxs i p).contains (qeCtx ((i.queues[q]?).getD []))
/-- The group sections whose channel a partition of the image holds. -/
def groupsIn (i : Image) (p : Nat) : List (List Byte) :=
  match imagePart i p with | some x => i.groups.filter (fun g => x.channels.contains (fieldAt g 0 2 % 32)) | none => []

/-- Partition p is changed from one image to another. -/
def partChanged (a b : Image) (p : Nat) : Bool :=
  decide (imagePart a p ≠ imagePart b p) ||
  (upFrom 0 256).any (fun q => (queueIn a p q || queueIn b p q) && decide (a.queues[q]? ≠ b.queues[q]?)) ||
  (imageCtxs a p ++ imageCtxs b p).any (fun c => decide (a.contexts[c]? ≠ b.contexts[c]?)) ||
  decide (groupsIn a p ≠ groupsIn b p)

/-! ## Registers whose reset is the image (R436) -/

/-- HQ_CFG, HQ_BIND and HQ_STANDBY of a queue; an unused queue is attached to nothing. -/
def loadQueue (i : Image) (s : State) (q : Nat) : State :=
  let e := (i.queues[q]?).getD []
  let o := hqOff q
  if qeCtx e = 0xFF || e.isEmpty then setReg (setField (setField s (o + 0x18) 23 23 0) (o + 0x18) 22 22 0) (o + 0x1C) (putField 0 25 24 3)
  else
    let b1 := fieldAt e 1 1
    let b3 := fieldAt e 3 1
    let s1 := setField (setField s (o + 0x18) 23 23 (b1 % 2)) (o + 0x18) 22 22 (bitsOf b1 1 1)
    let bind := putField (putField (putField (putField 0 31 26 (qeCtx e)) 25 24 (qeAttach e)) 23 19 (fieldAt e 2 1 % 32)) 18 5 (fieldAt e 4 2 % 2 ^ 14)
    setReg (setReg s1 (o + 0x1C) bind) (o + 0x20) (putField (putField (putField 0 31 31 (bitsOf b3 7 7)) 30 29 (bitsOf b3 6 5)) 28 24 (bitsOf b3 4 0))

/-- GLB_CTX of a context. -/
def loadCtx (i : Image) (s : State) (c : Nat) : State :=
  let e := (i.contexts[c]?).getD []
  setReg s (ctxOff c) (putField (putField (putField 0 31 28 (fieldAt e 1 1 % 16)) 27 26 (fieldAt e 2 1 % 4)) 25 21 (fieldAt e 3 1 % 32))

/-- A group of an image, where this device is in its list. -/
def loadGroup (i : Image) (s : State) (x : List Byte) : State :=
  let g := fieldAt x 0 2
  let c := fieldAt x 2 1
  match partHolder i (fun p => p.channels.contains (g % 32)) with
  | none => s
  | some p => (groupLoad s p.part g c (x.drop 8)).2

/-! ## A new image (R439) -/

/-- The image is only to be written to flash: every difference waits for a warm device reset. -/
def onlyFlash (s : State) (b : List Byte) (i : Image) : State :=
  configApplied (endApply (modCfg (writeFlash s b) (fun c => { c with waiting := true }))) 3 0 [] i.serial.toNat 0

/-- An apply whose image is valid. -/
def acceptImage (s : State) (b : List Byte) (i : Image) (kst : Nat) : State :=
  match s.cfg.image with
  | none => onlyFlash s b i
  | some a =>
    let ch := (upFrom 0 8).filter (partChanged a i)
    if !ch.isEmpty then
      modCfg s (fun c => { c with cstate := 2, apply := some ⟨i, b, ch, s.stage, 1024 * max 1 kst⟩ })
    else if deviceWide a i then onlyFlash s b i
    else configApplied (endApply (writeFlash (modCfg s (fun c => { c with image := some { a with serial := i.serial }, inForce := b })) b)) 0 0 [] i.serial.toNat 0

/-- A configuration command is in work, or firmware is being updated (R438, R443). -/
def cfgBusy (s : State) : Bool := s.cfg.apply.isSome || !s.sec.updating.isEmpty || !(s.cfg.cstate = 0 || s.cfg.cstate = 5)

/-- CFG_CMD validate (R437): a rejection is kept in `last_error`. -/
def validateImage (s : State) (b : List Byte) (signed : Bool) : State :=
  match checkImage s b signed false false with
  | .error e => modCfg s (fun c => { c with lastError := BitVec.ofNat 4 e.1 })
  | .ok _ => s

/-- CFG_CMD apply (R439). -/
def applyImage (s : State) (b : List Byte) (signed enrol : Bool) (kst : Nat) : State :=
  match checkImage s b signed enrol false with
  | .error e => rejectImage s e.1 e.2 (fieldAt b 16 8)
  | .ok i => acceptImage (enrolKeys s b i enrol) b i kst

/-! ## Quiescing (R440, R441) -/

/-- The changed partitions have come to rest: nothing of their queues is in execution, and none of their contexts is frozen. -/
def quiesced (s : State) (a : Apply) : Bool :=
  a.changed.all (fun p => match getPart s p with
    | none => true
    | some x => x.contexts.all (fun c => !isFrozen s 1 c && (ctxQueues s c).all (fun q => (getQ s q).run.isNone)))

/-- Contexts of a partition that the save takes: those with an accepted packet. -/
def savedCtxs (s : State) (p : Partition) : List Nat := p.contexts.filter (fun c => (ctxQueues s c).any (fun q => !(getQ s q).journal.isEmpty))

/-- Every cluster of a partition has images enough for a save. -/
def imagesEnough (s : State) (p : Partition) : Bool :=
  p.clusters.all (fun c => decide ((savedCtxs s p).length +
    (if (getClu s c).parked.isSome || (getClu s c).cstate = 3 then 2 else 0) + (s.cfg.kept.filter (p.contexts.contains ·)).length ≤ 32))

/-- Nothing accepted passes to another partition. -/
def noWorkPasses (s : State) (a b : Image) : Bool :=
  (upFrom 0 256).all (fun q =>
    (getQ s q).journal.isEmpty ||
    (holderIdx a (fun p => p.contexts.contains (qCtx s q)) = holderIdx b (fun p => p.contexts.contains (qCtx s q)) &&
      qeCtx ((b.queues[q]?).getD []) = qCtx s q &&
      (decide (2 ≤ qAttach s q) ||
        holderIdx a (fun p => p.functions.contains (qFn s q)) = holderIdx b (fun p => p.functions.contains (qFn s q)))))

/-- The pool, frames, sequences and streams that one partition keeps in use stay in its new resources. -/
def kvKept (s : State) (b : Image) (p : Partition) : Bool :=
  let n := imagePart b p.part
  let inPool := fun (i : Nat) => match n with | some x => decide (x.poolFirst ≤ i) && decide (i < x.poolFirst + x.poolCount) | none => false
  let sameFrames := match n with | some x => x.frameBase = p.frameBase && x.frameUnits = p.frameUnits && decide (x.stackIds = p.stackIds) | none => false
  let inFrames := fun (f : Nat) => sameFrames && (match n with | some x => decide (f < x.frames) | none => false)
  let base := listSum ((b.parts.filter (fun x => x.part < p.part)).map (·.seqShare))
  let inSlots := fun (k : Nat) => match n with | some x => decide (base ≤ k) && decide (k < base + x.seqShare) | none => false
  let inStreams := fun (k : Nat) => match n with | some x => decide (x.streamFirst ≤ k) && decide (k < x.streamFirst + x.streamCount) | none => false
  s.kv.waybill.all (fun e => !(decide (p.poolFirst ≤ e.1) && decide (e.1 < p.poolFirst + p.poolCount)) || inPool e.1 || (wayOf e.2).state = 0) &&
  (usedFrames s p).all inFrames &&
  s.kv.sequences.all (fun q => decide (q.2.part ≠ p.part) || (inSlots q.1 && (let z := q.2.layers * q.2.heads * q.2.pages
    z = 0 || (inPool q.2.base && inPool (q.2.base + z - 1))))) &&
  s.kv.streams.all (fun x => x.2.state = 0 || !(decide (p.streamFirst ≤ x.1) && decide (x.1 < p.streamFirst + p.streamCount)) || inStreams x.1)

/-- The tallies of contexts that stay keep their homes. -/
def talliesKept (s : State) (b : Image) (p : Partition) : Bool :=
  match imagePart b p.part with
  | none => true
  | some x =>
    let l := s.sync.tallies.filter (fun t => p.contexts.contains (t.1 / 65536) && x.contexts.contains (t.1 / 65536))
    l.all (fun t => deviceHome t.2 || x.clusters.contains (homeClu t.2)) && decide ((l.filter (fun t => deviceHome t.2)).length ≤ x.tallyShare)

/-- The conditions of R441. -/
def applyAllowed (s : State) (a b : Image) (changed : List Nat) : Bool :=
  changed.all (fun p => match imagePart a p with | some x => imagesEnough s x && talliesKept s b x | none => true) &&
  noWorkPasses s a b && a.parts.all (kvKept s b)

/-! ## The new resources -/

/-- A stack's contents are zeros with valid word codes. -/
def zeroStack (s : State) (k : Nat) : State :=
  { s with mem := { s.mem with
    cells := s.mem.cells.filter (fun c => !(decide (k * 0x1000000000 ≤ c.1) && decide (c.1 < k * 0x1000000000 + 0xD00000000)))
    errors := tabDrop (fun w => decide (k * 0x1000000000 ≤ 8 * w) && decide (8 * w < k * 0x1000000000 + 0xD00000000)) s.mem.errors } }

/-- A cluster that changes hands is scrubbed; one that is given out then rejoins (R470). -/
def passCluster (a b : Image) (s : State) (c : Nat) : State :=
  let x := holderIdx a (fun p => p.clusters.contains c)
  let y := holderIdx b (fun p => p.clusters.contains c)
  if x = y then s
  else if y = 255 || (getClu s c).cstate = 3 then zeroCluster s c
  else modClu (zeroCluster s c) c (fun z => { z with cstate := 2 })

/-- A stack that changes hands is scrubbed. -/
def passStack (a b : Image) (s : State) (k : Nat) : State :=
  if holderIdx a (fun p => p.stackIds.contains k) = holderIdx b (fun p => p.stackIds.contains k) then s else zeroStack s k

/-- The groups of changed partitions whose channel the partition no longer holds are invalidated. -/
def dropGroups (s : State) (b : Image) (changed : List Nat) : State :=
  (upFrom 0 256).foldl (fun t g => match getGroup t g with
    | none => t
    | some e =>
      if changed.contains e.part && !(match imagePart b e.part with | some x => x.channels.contains (g % 32) | none => false) then setGroup t g none
      else t) s

/-- The registers and groups of the changed partitions take the new image's values. -/
def loadChanged (s : State) (a b : Image) (changed : List Nat) : State :=
  let s1 := ((upFrom 0 256).filter (fun q => changed.any (fun p => queueIn a p q || queueIn b p q))).foldl (loadQueue b) s
  let s2 := ((upFrom 0 64).filter (fun c => changed.any (fun p => (imageCtxs a p).contains c || (imageCtxs b p).contains c))).foldl (loadCtx b) s1
  let gs := (changed.map (fun p => (groupsIn b p).filter (fun g => !a.groups.contains g))).flatten
  let s3 := gs.foldl (loadGroup b) (dropGroups s2 b changed)
  { s3 with mem := { s3.mem with cache := s3.mem.cache.filter (fun c => !changed.any (fun p => (imageCtxs a p).contains c.ctx || (imageCtxs b p).contains c.ctx)) } }

/-- Device-wide parts stay as they are until the next warm device reset. -/
def mixImage (a b : Image) : Image :=
  { b with personality := a.personality, pcieUse := a.pcieUse, rolrePorts := a.rolrePorts, fidPin := a.fidPin, pulseEn := a.pulseEn
           cfgFn := a.cfgFn, capW := a.capW, dieLimitW := a.dieLimitW, clusterMap := a.clusterMap }

/-- One saved context is restored, or its restore fails (R442): its queues are disabled and its images kept. -/
def restoreCtx (s : State × List Nat) (c : Nat) : State × List Nat :=
  let t := s.1
  if Config.restoreFails t.fresh then
    ((ctxQueues t c).foldl (fun u q => setEnable u q false) (drawn (modCfg t (fun x => { x with kept := x.kept ++ [c] }))), s.2 ++ [c])
  else (drawn t, s.2)

/-- Steps 5 to 7 of R440. -/
def performApply (s : State) (p : Apply) (a : Image) : State :=
  let b := p.image
  let saved := (p.changed.map (fun i => match imagePart a i, imagePart b i with
    | some x, some y => (savedCtxs s x).filter (y.contexts.contains ·)
    | _, _ => [])).flatten
  let s1 := (upFrom 0 12).foldl (passStack a b) ((upFrom 0 80).foldl (passCluster a b) s)
  let s2 := loadChanged (modCfg s1 (fun c => { c with image := some (mixImage a b), inForce := p.bytes })) a b p.changed
  let r := saved.foldl restoreCtx (s2, [])
  let s3 := writeFlash (modCfg r.1 (fun c => { c with waiting := c.waiting || deviceWide a b })) p.bytes
  let s4 := if r.2.isEmpty then configApplied s3 0 0 p.changed b.serial.toNat 0
    else r.2.foldl (fun t c => configApplied t 4 c p.changed b.serial.toNat 0) s3
  endApply s4

/-- An apply that is abandoned: every partition goes on unchanged. -/
def abandonApply (s : State) (p : Apply) (outcome code : Nat) : State :=
  let s1 := if code = 0 then s else modCfg s (fun c => { c with lastError := BitVec.ofNat 4 code })
  endApply (configApplied s1 outcome code p.changed p.image.serial.toNat 0)

/-- APPLY_QUIESCE_DONE (R440). -/
def execApplyQuiesceDone (s : State) : Ans :=
  .next (
    match s.cfg.apply, s.cfg.image with
    | some p, some a =>
      if !devRuns s || !quiesced s p then s
      else if applyAllowed s a p.image p.changed then performApply s p a
      else abandonApply s p 1 12
    | _, _ => s)

/-- APPLY_QUIESCE_TIMEOUT (R440): some packet has not completed within the limit. -/
def execApplyQuiesceTimeout (s : State) : Ans :=
  .next (
    match s.cfg.apply with
    | none => s
    | some p =>
      if s.dev.ready && s.dev.powered && !quiesced s p && decide (p.since.toNat + p.limit ≤ s.stage.toNat) then abandonApply s p 2 0
      else s)

end Sys2Proof.Machine
end

