-- ==== Sys2Proof/Machine/BootOps.lean ====
section
/-! DEFINITION. Power-on, boot, recovery and resets of the device (R445 to R448, R491 to R496, R499), and firmware: versions,
live updates and their hand-overs (R449 to R452). -/

namespace Sys2Proof.Machine

/-! ## Cold state -/

/-- A cluster after power-on: what fuses and the parameter sector keep, and the generations of R467. -/
def coldCluster (x : Cluster) : Cluster :=
  let serves := fun (slot : Nat) => !bitOf x.retired.toNat slot && decide (x.spare.toNat ≠ slot)
  { retired := x.retired, spare := x.spare, parked := x.parked, serve := x.serve, lives := x.lives, unitFailed := x.unitFailed
    cstate := if x.cstate = 3 then 3 else 0
    gens := ((upFrom 0 17).filter (fun i => serves i != decide (i ≠ 16))).map (fun i => (i, BitVec.ofNat 16 (b2n (serves i)))) }

/-- A compute die after power-on: its fuses. -/
def coldDie (d : Die) : Die := { floorMv := d.floorMv, trims := d.trims }

/-- Everything but the weighhouse, the flash and the fuses at its reset value (R493). -/
def coldState (s : State) : State :=
  { State.reset with
    pending := s.pending, out := s.out, fresh := s.fresh, ident := s.ident, weigh := s.weigh
    comp := { clusters := tabMap {} (fun _ x => coldCluster x) s.comp.clusters
              engines := (s.comp.engines.filter (fun x => x.2.retired)).map (fun x => (x.1, { retired := true })) }
    power := { dies := s.power.dies.map coldDie, trimLog := s.power.trimLog }
    cfg := { flash := s.cfg.flash, flashOk := s.cfg.flashOk, owners := s.cfg.owners }
    sec := { minSvn := s.sec.minSvn, flashVers := s.sec.flashVers, flashSvn := s.sec.flashSvn, flashRaise := s.sec.flashRaise
             flashDigest := s.sec.flashDigest, imageSvn := s.sec.imageSvn }
    dev := { ready := false, perst := s.dev.perst, refMissing := s.dev.refMissing } }

/-! ## Boot (R445) -/

/-- Registers whose power-on value is the image's, and its groups (R269, R433, R435, R436). -/
def loadImage (s : State) (i : Image) : State :=
  let s1 := (upFrom 0 64).foldl (loadCtx i) ((upFrom 0 256).foldl (loadQueue i) s)
  let s2 := setReg s1 0x300004 (putField (putField 0 31 20 i.capW) 19 9 i.dieLimitW)
  let s3 := i.parts.foldl (fun t p => setReg t (0x300040 + 4 * p.part) (putField (putField 0 31 31 (b2n p.lockEn)) 28 21 p.lockGroup)) s2
  let s4 := if i.fidPin.getLsbD 15 then { s3 with fab := { s3.fab with fid := BitVec.ofNat 14 i.fidPin.toNat } } else s3
  lockStates (takeRegs (i.groups.foldl (loadGroup i) s4))

/-- A cluster that fails its self-test at boot is handled as a retirement. -/
def bootFailed (s : State) (c : Nat) : State := if cluPresent s c && (getClu s c).cstate ≠ 3 then parkCluster s c 2 6 else s

/-- A stack that fails training: every partition that holds it is not started. It holds part of the device reservation, which
lies in every stack (R184), so the device fails (R466). -/
def bootStack (s : State) (k : Nat) : State :=
  let lost := match s.cfg.image with | none => [] | some i => (i.parts.filter (fun p => p.stackIds.contains k)).map (·.part)
  deviceFailure (modCfg (modStack s k (fun x => { x with trained := false })) (fun c => { c with notStarted := c.notStarted ++ lost }))
    (srcOf 0 0) 5 6 0xFF 0 0 0

/-- The device becomes Ready under the image in flash, or under the null configuration where that is not valid (R447). -/
def bootFrom4 (s : State) : State :=
  let s1 := match checkImage s s.cfg.flash s.cfg.flashOk false true with
    | .error _ => modCfg s (fun c => { c with image := none, nullConfig := true, inForce := [] })
    | .ok i => loadImage (modCfg s (fun c => { c with image := some i, nullConfig := false, inForce := c.flash })) i
  let s2 := s.dev.badStacks.foldl bootStack (s.dev.badClusters.foldl bootFailed s1)
  modDev s2 (fun d => { d with ready := true, recovery := false, bootHeld := false, badClusters := [], badStacks := [] })

/-- From step 3: the firmware in flash runs, and fuses the minimum security version where it is to (R449). -/
def bootFrom3 (s : State) : State :=
  bootFrom4 (modSec s (fun c => { c with
    rstate := 0, svn := c.flashSvn, running := c.flashVers, bootDigest := c.flashDigest
    minSvn := if c.flashRaise && decide (c.minSvn.toNat < c.flashSvn.toNat) then c.flashSvn else c.minSvn }))

/-- From step 2, with what the boot finds in flash and in its self-tests. -/
def bootFrom2 (s : State) (b : BootFacts) : State :=
  let s1 := modDev (modCfg s (fun c => { c with flash := b.ecloth, flashOk := b.eclothOk })) (fun d => { d with
    bootHeld := false, badClusters := b.failedClusters.map (·.val), badStacks := b.failedStacks.map (·.val) })
  if b.firmwareOk && decide (s.sec.minSvn.toNat ≤ s.sec.flashSvn.toNat) then bootFrom3 s1
  else modDev (modSec s1 (fun c => { c with rstate := 1 })) (fun d => { d with recovery := true })

/-! ## Power (R491, R492, R499) -/

/-- The 32 bytes of a nonce. -/
def nonceBytes (n : BitVec 256) : List Byte := leBytes 32 n.toNat

/-- POWER_ON (R491): genesis where the weighhouse had lost its supply; FLASH_EXT_N low holds the boot before step 2. -/
def execPowerOn (flashExtLow : Bool) (b : BootFacts) (s : State) : Ans :=
  .next (
    if s.dev.powered then s
    else
      let s1 := modDev (coldState s) (fun d => { d with lastDev := 0, perst := [false, false] })
      let s2 := if s1.weigh.powered then s1 else genesis s1 (nonceBytes b.nonce)
      if flashExtLow then modDev s2 (fun d => { d with bootHeld := true }) else bootFrom2 s2 b)

/-- FLASH_EXT_RELEASE (R499). -/
def execFlashExtRelease (b : BootFacts) (s : State) : Ans :=
  .next (if s.dev.powered && s.dev.bootHeld then bootFrom2 s b else s)

/-- POWER_DOWN (R492): what is not kept by flash, fuses and the weighhouse is lost; the weighhouse closes its interval as
partial and goes on. -/
def execPowerDown (s : State) : Ans :=
  .next (
    if !s.dev.powered then s
    else
      let s1 := if weighRuns s && s.weigh.state ≠ 0 then closeRecord (turnInterval s) true else s
      let s2 := modDev (coldState s1) (fun d => { d with powered := false, perst := [false, false] })
      if weighRuns s then modWeigh s2 (fun w => { w with cur := newInterval s2 s2.stage true, ckptWindow := 0 }) else s2)

/-- COLD_RESET (R493); ignored after a thermal trip (R494). -/
def execColdReset (b : BootFacts) (s : State) : Ans :=
  .next (
    if !s.dev.powered || s.dev.therm then s
    else
      let s1 := if s.dev.haltDriven then emit s (.haltAllN false) else s
      bootFrom2 (modDev (coldState s1) (fun d => { d with lastDev := 1, haltIgnored := s.dev.fstate = 2 })) b)

/-! ## Warm device reset (R399, R493, R494) -/

/-- The image last written to flash, where it is another than that in force, takes force (R439, R445). -/
def reloadImage (s : State) : State :=
  if !s.cfg.waiting then s
  else match checkImage s s.cfg.flash s.cfg.flashOk false true with
    | .error _ => s
    | .ok i => loadImage (modCfg s (fun c => { c with image := some i, nullConfig := false, waiting := false, inForce := c.flash })) i

/-- The power controller after a reset: code 64; the registers keep what they hold. -/
def resetPower (w : Power) : Power :=
  { dies := w.dies.map (fun d => { d with limiter := 127, exceeded := 0, under := 0 })
    trimLog := w.trimLog, learned := w.learned, partEnergy := w.partEnergy, reasons := w.reasons.map (fun r => { stages := r.stages })
    capW := w.capW, dieLimitW := w.dieLimitW, fixedEn := w.fixedEn, fixedCode := w.fixedCode, hostMax := w.hostMax
    locks := w.locks.map (fun l => { l with votes := [] }), boundary := w.boundary, ioTemp := w.ioTemp, hbmTemp := w.hbmTemp }

/-- Every queue runs again from its commit index, and every frozen master is released. -/
def rerunAll (s : State) : State :=
  let qs := (s.host.queues.map (·.1)).filter (fun q => !(getQ s q).journal.isEmpty)
  let s1 := qs.foldl rerunQueue { s with frozen := [] }
  { s1 with mem := { s1.mem with refetches := [], reads := [], cache := [], atsCache := [], invals := [] }
            fab := { s1.fab with sent := [], got := [] } }

/-- A warm device reset: an apply and the hand-overs that have not started end, the freeze ends, and accepted work runs
again. -/
def warmReset (s : State) (cause : Nat) : State :=
  if !s.dev.powered || s.dev.therm || s.dev.bootHeld || s.dev.recovery then s
  else
    let s1 := modCfg s (fun c => { c with apply := none, cstate := 0, kept := [] })
    let s2 := modSec s1 (fun c => { c with updating := [], notReady := [], held := none, waitPort := none })
    let s3 := if s.dev.haltDriven then emit s2 (.haltAllN false) else s2
    let s4 := modDev s3 (fun d => { d with
      ready := true, fstate := 0, fcause := 0, fstage := 0, haltDriven := false, haltIgnored := d.haltIgnored || decide (d.fstate = 2)
      lastDev := BitVec.ofNat 3 cause, resetStatus := 0, partReset := none, waitResets := [], frozenOverflow := false, dstate := 0 })
    modPower (reloadImage (rerunAll s4)) resetPower

/-- WARM_DEVICE_RESET (R493): a short pulse on DEV_RESET_N. -/
def execWarmDeviceReset (s : State) : Ans := .next (warmReset s 2)

/-- A permitted GLB_RESET (R494, R495): kind 1 waits for an apply, is refused while another partition is being reset, and
absorbed for the same one; kind 2 supersedes. -/
def glbReset (s : State) (kind p : Nat) : State × Bool :=
  let status := fun (n : Nat) => modDev s (fun d => { d with resetStatus := BitVec.ofNat 3 n })
  if s.dev.therm then (status 3, true)
  else if kind = 2 then (warmReset s 3, true)
  else if kind ≠ 1 then (s, true)
  else match s.dev.partReset with
    | some x => if x = p then (status 2, true) else (status 1, false)
    | none =>
      if s.cfg.apply.isSome then (modDev s (fun d => { d with waitResets := d.waitResets ++ [(true, p)] }), true)
      else (resetPartition s p, true)

/-! ## Firmware (R448 to R452) -/

/-- FIRMWARE_UPDATED (R452). -/
def firmwareEvent (s : State) (dom outcome : Nat) (old new svn : Word) : State :=
  raiseEvent s 0x0902 (if outcome = 0 ∨ outcome = 3 then 0 else 1) 0xFF (srcOf 0 0)
    (leBytes 1 dom ++ leBytes 1 outcome ++ zeros 2 ++ leBytes 4 old.toNat ++ leBytes 4 new.toNat ++ leBytes 4 svn.toNat)

/-- A version out of a list; 0 past its end. -/
def verAt (l : List Word) (d : Nat) : Word := (l[d]?).getD 0

/-- A firmware image is written to flash. -/
def flashFirmware (s : State) (fw : Firmware) : State :=
  modSec s (fun c => { c with
    flashVers := (upFrom 0 37).map (verAt fw.versions), flashSvn := fw.svn, flashRaise := fw.raiseSvn, flashDigest := fw.digest
    imageSvn := fw.svn })

/-- A firmware image that may run (R449). -/
def firmwareOk (s : State) (fw : Firmware) (verified : Bool) : Bool := verified && decide (s.sec.minSvn.toNat ≤ fw.svn.toNat)

/-- `go` in recovery (R448). -/
def recoveryGo (s : State) (fw : Firmware) (verified : Bool) : State :=
  if !s.dev.recovery || !(s.sec.rstate = 1 || s.sec.rstate = 5) then s
  else if !firmwareOk s fw verified then modSec s (fun c => { c with rstate := 5 })
  else
    let old := s.sec.running
    firmwareEvent (bootFrom3 (flashFirmware s fw)) 0xFF 5 (verAt old 0) (verAt fw.versions 0) fw.svn

/-- The units of a domain are quiesced as R450 gives: a Rolre port goes Down and retrains. -/
def quiesceDomain (s : State) (d : Nat) : State :=
  if 3 ≤ d ∧ d ≤ 18 then
    let p := d - 3
    if portUp s p then
      modSec (toState s p 0 (fun x => { x with tries := 0, width := 0, good := 0, inUse := 0 })) (fun c => { c with waitPort := some p })
    else s
  else s

/-- The hand-overs go on in ascending order, one at a time; the next port waits until the previous one is Up again. -/
def handOver : Nat → State → State
  | 0, s => s
  | k + 1, s =>
    if s.sec.held.isSome then s
    else match s.sec.updating with
      | [] => s
      | d :: t =>
        if (match s.sec.waitPort with | some p => decide (3 ≤ d) && decide (d ≤ 18) && !portUp s p | none => false) then s
        else
          let s1 := quiesceDomain (modSec s (fun c => { c with waitPort := none })) d
          if s.sec.notReady.contains d then modSec s1 (fun c => { c with held := some d })
          else
            let s2 := modSec s1 (fun c => { c with
              updating := t, running := listSet ((upFrom 0 37).map (verAt c.running)) d (verAt c.flashVers d) })
            handOver k (firmwareEvent s2 d 0 (verAt s.sec.running d) (verAt s.sec.flashVers d) s.sec.imageSvn)

/-- All that can be handed over now. -/
def handOvers (s : State) : State := handOver s.sec.updating.length s

/-- A PLDM request that asks the agent to come back: busy while the dragoman hands over (R450), or to retry (R443). -/
def pldmRetry (s : State) : State := emit s (.pldm 0x8A [])

/-- FIRMWARE_UPDATE (R451): verified, written to flash, and handed over domain by domain. -/
def execFirmwareUpdate (fw : Firmware) (verified : Bool) (notReady : List Nat) (s : State) : Ans :=
  .next (
    if !s.dev.powered then s
    else if s.dev.recovery then recoveryGo s fw verified
    else if !s.dev.ready then s
    else if cfgBusy s then pldmRetry s
    else if !firmwareOk s fw verified then firmwareEvent s 0xFF 1 0 0 fw.svn
    else
      let s1 := firmwareEvent (flashFirmware s fw) 0xFF 3 0 0 fw.svn
      let todo := (upFrom 0 37).filter (fun d => decide (verAt s.sec.running d ≠ verAt s1.sec.flashVers d))
      handOvers (modSec s1 (fun c => { c with updating := todo, notReady := notReady, held := none, waitPort := none })))

/-- HANDOVER_TIMEOUT (R451): the domain goes back to its old code, and the others go on; a port that does not come Up again
holds the next one back no longer. -/
def execHandoverTimeout (dom : Fin 37) (s : State) : Ans :=
  .next (
    if !s.dev.powered then s
    else if s.sec.waitPort = some (dom.val - 3) && decide (3 ≤ dom.val) then handOvers (modSec s (fun c => { c with waitPort := none }))
    else if s.sec.held ≠ some dom.val then s
    else
      let s1 := modSec s (fun c => { c with held := none, updating := c.updating.filter (· ≠ dom.val) })
      handOvers (firmwareEvent s1 dom 2 (verAt s.sec.running dom) (verAt s.sec.flashVers dom) s.sec.imageSvn))

end Sys2Proof.Machine
end

