-- ==== Sys2Proof/Machine/Attest.lean ====
section
/-! DEFINITION. Attestation and management: the SPDM responder (R453 to R456), its signature queue and large responses, and
PLDM for platform monitoring (R457). Response and error codes are those of SPDM 1.2 and PLDM, which the spec names and does
not repeat. -/

namespace Sys2Proof.Machine

/-! ## Answers -/

/-- Sends an SPDM response. -/
def spdmSend (s : State) (code : Nat) (data : List Byte) : State := emit s (.spdm code data)
/-- ERROR. -/
def spdmError (s : State) (e : Nat) (data : List Byte) : State := spdmSend s 0x7F (leBytes 1 e ++ data)

/-- The number of a transport. -/
def transportNo : Transport → Nat
  | .doe p => p.val
  | .mctpI3c => 2
  | .mctpPcie p => 3 + p.val
/-- MCTP over either physical medium. -/
def overMctp : Transport → Bool
  | .doe _ => false
  | _ => true

/-- Until Ready, and while the dragoman hands over, MCTP requests are answered busy (R450, R497). -/
def mgmtBusy (s : State) : Bool := !s.dev.ready || handing s 0

/-- How far a transport has negotiated. -/
def connLevel (s : State) (t : Transport) : Nat := tabGet 0 s.sec.conn (transportNo t)
/-- Sets it. -/
def setLevel (s : State) (t : Transport) (n : Nat) : State := modSec s (fun c => { c with conn := tabPut 0 c.conn (transportNo t) n })

/-- Serves a request of a transport that has negotiated far enough: busy, not ready, or in its turn. -/
def onSpdm (s : State) (t : Transport) (level : Nat) (k : State) : Ans :=
  .next (
    if !s.dev.powered then s
    else if mgmtBusy s then (if overMctp t then spdmError s 3 [] else s)
    else if handing s 1 then spdmError s 0x42 []
    else if connLevel s t < level then spdmError s 4 []
    else k)

/-! ## Negotiation and certificates (R453, R454) -/

/-- GET_VERSION: SPDM 1.2; the negotiation of the transport begins again. -/
def execGetVersion (t : Transport) (s : State) : Ans := onSpdm s t 0 (setLevel (spdmSend s 0x04 [0x12]) t 1)
/-- GET_CAPABILITIES. -/
def execGetCapabilities (t : Transport) (s : State) : Ans := onSpdm s t 1 (setLevel (spdmSend s 0x61 []) t 2)
/-- NEGOTIATE_ALGORITHMS. -/
def execNegotiateAlgorithms (t : Transport) (s : State) : Ans := onSpdm s t 2 (setLevel (spdmSend s 0x63 []) t 3)
/-- GET_DIGESTS: slot 0 is the only one. -/
def execGetDigests (t : Transport) (s : State) : Ans :=
  onSpdm s t 3 (spdmSend s 0x01 (leBytes 1 1 ++ Config.chainDigest s.sec.bootDigest))
/-- GET_CERTIFICATE: a part of the chain and what remains of it. -/
def execGetCertificate (t : Transport) (slot : BitVec 4) (off len : Nat) (s : State) : Ans :=
  onSpdm s t 3 (
    let c := Config.certChain s.sec.bootDigest
    if slot ≠ 0 || decide (c.length ≤ off) then spdmError s 1 []
    else
      let part := (c.drop off).take len
      spdmSend s 0x02 (leBytes 2 part.length ++ leBytes 2 (min 0xFFFF (c.length - off - part.length)) ++ part))

/-! ## Signatures (R455) -/

/-- ⌈log₂ n⌉ for n ≥ 1. -/
def clog2 (n : Nat) : Nat := if n ≤ 1 then 0 else Nat.log2 (n - 1) + 1

/-- A response that needs a signature: queued, and answered ResponseNotReady with the time after which to ask again. -/
def queueSignature (s : State) (code : Nat) (content : List Byte) : State :=
  let ahead := (s.sec.jobs.filter (fun j => !j.ready)).length
  let tok := s.sec.tokens + 1
  spdmError (modSec s (fun c => { c with tokens := tok, jobs := c.jobs ++ [⟨tok, code, content, false⟩] })) 0x42
    (leBytes 1 (21 + clog2 (ahead + 1)) ++ [tok])

/-- Marks the first job that is not ready. -/
def signNext : List SignJob → List SignJob
  | [] => []
  | j :: t => if j.ready then j :: signNext t else { j with ready := true } :: t

/-- SIGNATURE_DONE (R455): in the order of the requests. -/
def execSignatureDone (s : State) : Ans :=
  .next (if s.dev.powered && s.dev.ready && !handing s 1 then modSec s (fun c => { c with jobs := signNext c.jobs }) else s)

/-- RESPOND_IF_READY (R455): a signed response is large and is read by CHUNK_GET. -/
def execRespondIfReady (t : Transport) (token : Byte) (s : State) : Ans :=
  onSpdm s t 3 (
    match s.sec.jobs.find? (fun j => j.token = token) with
    | none => spdmError s 1 []
    | some j =>
      if !j.ready then spdmError s 0x42 (leBytes 1 21 ++ [token])
      else
        let h := s.sec.handles + 1
        let s1 := drawn (modSec s (fun c => { c with
          jobs := c.jobs.filter (fun x => x.token ≠ token), handles := h, chunkNext := 0
          large := some (h, leBytes 1 j.code ++ j.response, s.fresh, 0) }))
        spdmError s1 0x0F [h])

/-- Byte i of a large response: its content, then the 29,792 bytes of the signature. -/
def largeByte (content : List Byte) (draw i : Nat) : Byte :=
  if i < content.length then (content[i]?).getD 0 else Config.spdmSignature content draw (i - content.length)

/-- CHUNK_GET (R454): the next chunk of a large response; its length is the transport's. -/
def execChunkGet (t : Transport) (handle : Byte) (seqNo : BitVec 16) (s : State) : Ans :=
  onSpdm s t 3 (
    match s.sec.large with
    | none => spdmError s 1 []
    | some (h, content, draw, pos) =>
      if h ≠ handle || seqNo ≠ s.sec.chunkNext then spdmError s 1 []
      else
        let total := content.length + 29792
        let n := min (total - pos) (Config.choice s.fresh % 4096 + 1)
        let last := decide (total ≤ pos + n)
        let s1 := drawn (modSec s (fun c => { c with
          chunkNext := c.chunkNext + 1, large := if last then none else some (h, content, draw, pos + n) }))
        spdmSend s1 0x06 (leBytes 1 (b2n last) ++ [h] ++ leBytes 2 seqNo.toNat ++ (upFrom pos n).map (largeByte content draw)))

/-- CHUNK_SEND (R454): the chunks of a large request in order; the request, when whole, is served as a request of its own. -/
def execChunkSend (t : Transport) (handle : Byte) (seqNo : BitVec 16) (last : Bool) (data : List Byte) (s : State) : Ans :=
  onSpdm s t 3 (
    let cur := match s.sec.partialReq with
      | some (h, n, l) => if h = handle then (n, l) else (0, [])
      | none => (0, [])
    if seqNo ≠ cur.1 then spdmError (modSec s (fun c => { c with partialReq := none })) 1 []
    else
      spdmSend (modSec s (fun c => { c with
        partialReq := if last then none else some (handle, cur.1 + 1, cur.2 ++ data) })) 0x05 ([handle] ++ leBytes 2 seqNo.toNat))

/-! ## Measurements and challenges (R455, R456) -/

/-- OTP state: the minimum security version, the owner slots, the weighhouse seal counter. -/
def otpBytes (s : State) : List Byte :=
  leBytes 4 s.sec.minSvn.toNat ++ (s.cfg.owners.map (fun o => leBytes 1 o.1 ++ leBytes 1 (b2n o.2.2) ++ o.2.1)).flatten ++ leBytes 1 s.weigh.sealNo.toNat

/-- Measurement block i, 1 to 42. -/
def measurementBlock (s : State) (i : Nat) : List Byte :=
  bytesAt (if i = 2 then s.sec.bootDigest
    else if i = 40 then shakeBytes 64 s.cfg.inForce
    else if 3 ≤ i ∧ i ≤ 39 then Config.measurement i (leBytes 4 (verAt s.sec.running (i - 3)).toNat)
    else if i = 42 then Config.measurement i (otpBytes s)
    else Config.measurement i []) 0 64

/-- The blocks a request names: none for 0, which asks for their number; all for 0xFF; else one. -/
def blocksAsked (i : Nat) : List Nat := if i = 0 then [] else if i = 0xFF then upFrom 1 42 else [i]

/-- GET_MEASUREMENTS (R456). -/
def execGetMeasurements (t : Transport) (index : Byte) (signed : Bool) (s : State) : Ans :=
  onSpdm s t 3 (
    let i := index.toNat
    if 42 < i && i ≠ 0xFF then spdmError s 1 []
    else
      let data := leBytes 1 (if i = 0 then 42 else (blocksAsked i).length) ++
        ((blocksAsked i).map (fun k => leBytes 1 k ++ measurementBlock s k)).flatten
      if signed then queueSignature s 0x60 data else spdmSend s 0x60 data)

/-- CHALLENGE (R455). -/
def execChallenge (t : Transport) (slot : BitVec 4) (s : State) : Ans :=
  onSpdm s t 3 (if slot ≠ 0 then spdmError s 1 [] else queueSignature s 0x03 (Config.chainDigest s.sec.bootDigest))

/-! ## Sessions (R454) -/

/-- KEY_EXCHANGE: at most four sessions; the response is signed, and its session identifier is the device's to choose. -/
def execKeyExchange (t : Transport) (slot : BitVec 4) (s : State) : Ans :=
  onSpdm s t 3 (
    if slot ≠ 0 then spdmError s 1 []
    else if 4 ≤ s.sec.sessions.length then spdmError s 0x0A []
    else
      let id := Config.freeWord s.fresh
      queueSignature (drawn (modSec s (fun c => { c with sessions := c.sessions ++ [⟨id, false⟩] }))) 0x64 (leBytes 4 id.toNat))

/-- A request of a session. -/
def onSession (s : State) (t : Transport) (id : Word) (open_ : Bool) (k : State) : Ans :=
  onSpdm s t 3 (if s.sec.sessions.any (fun x => x.id = id && x.established = open_) then k else spdmError s 2 [])

/-- FINISH. -/
def execFinish (t : Transport) (session : BitVec 32) (s : State) : Ans :=
  onSession s t session false (spdmSend (modSec s (fun c => { c with
    sessions := c.sessions.map (fun x => if x.id = session then { x with established := true } else x) })) 0x65 [])
/-- HEARTBEAT. -/
def execHeartbeat (t : Transport) (session : BitVec 32) (s : State) : Ans := onSession s t session true (spdmSend s 0x68 [])
/-- KEY_UPDATE: updating one key, all keys, or verifying the new one. -/
def execKeyUpdate (t : Transport) (session : BitVec 32) (op : Byte) (s : State) : Ans :=
  onSession s t session true (if op = 1 ∨ op = 2 ∨ op = 3 then spdmSend s 0x69 [op] else spdmError s 1 [])
/-- END_SESSION. -/
def execEndSession (t : Transport) (session : BitVec 32) (s : State) : Ans :=
  onSession s t session true (spdmSend (modSec s (fun c => { c with sessions := c.sessions.filter (fun x => x.id ≠ session) })) 0x6C [])

/-! ## PLDM for platform monitoring (R457) -/

/-- A reading: the temperatures of R410 in 1/8 °C, then the measured and estimated power in W. -/
def sensorValue (s : State) (n : Nat) : Option Nat :=
  if n < 2 then some (getDie s n).tmax.toNat
  else if n = 2 then some s.power.ioTemp.toNat
  else if n < 15 then some ((s.power.hbmTemp[n - 3]?).getD 0).toNat
  else if n = 15 then some s.power.measW.toNat
  else if n = 16 then some s.power.estW.toNat
  else none

/-- PLDM_PLATFORM_REQUEST (R457): readings are served over MCTP; a change of configuration is refused. -/
def execPldmPlatformRequest (t : Transport) (changes : Bool) (sensor : Nat) (s : State) : Ans :=
  .next (
    if !s.dev.powered || !overMctp t then s
    else if mgmtBusy s then emit s (.pldm 0x03 [])
    else if changes then emit s (.pldm 0x05 [])
    else match sensorValue s sensor with
      | none => emit s (.pldm 0x80 [])
      | some v => emit s (.pldm 0 (leBytes 2 v)))

end Sys2Proof.Machine
end

