-- ==== Sys2Proof/Machine/DroverScalar.lean ====
section
/-! DEFINITION. Scalar drover instructions (R156, R157, R164, R167 to R169). -/

namespace Sys2Proof.Machine

/-! ## Integer arithmetic (R156, R157) -/

/-- rd := op rs1 rs2. -/
def alu (s : State) (d : DroverId) (a : RArgs) (op : Word → Word → Word) : State :=
  writeX s d a.rd (op (getX s d a.rs1.toNat) (getX s d a.rs2.toNat))

/-- Signed quotient truncated toward zero; all ones for a zero divisor; −2³¹ / −1 is −2³¹ (R157). -/
def divS (x y : Word) : Word := if y = 0 then BitVec.allOnes 32 else BitVec.ofInt 32 (Int.tdiv x.toInt y.toInt)
/-- Signed remainder; the dividend for a zero divisor (R157). -/
def remS (x y : Word) : Word := if y = 0 then x else BitVec.ofInt 32 (Int.tmod x.toInt y.toInt)
/-- Unsigned quotient. -/
def divU (x y : Word) : Word := if y = 0 then BitVec.allOnes 32 else BitVec.ofNat 32 (x.toNat / y.toNat)
/-- Unsigned remainder. -/
def remU (x y : Word) : Word := if y = 0 then x else BitVec.ofNat 32 (x.toNat % y.toNat)
/-- Leading zeros. -/
def leadingZeros (x : Word) : Word := if x = 0 then 32 else BitVec.ofNat 32 (31 - Nat.log2 x.toNat)
/-- Count of ones. -/
def countOnes (x : Word) : Word := BitVec.ofNat 32 ((List.range 32).countP (fun i => x.getLsbD i))
/-- 1 or 0. -/
def oneIf (b : Bool) : Word := if b then 1 else 0

/-- ADD. -/
def execAddR (d : DroverId) (a : RArgs) (s : State) : Ans :=
  onDrover s d (.addR d a) (fun s => alu s d a (fun x y => x + y))

/-- SUB. -/
def execSubR (d : DroverId) (a : RArgs) (s : State) : Ans :=
  onDrover s d (.subR d a) (fun s => alu s d a (fun x y => x - y))

/-- AND. -/
def execAndR (d : DroverId) (a : RArgs) (s : State) : Ans :=
  onDrover s d (.andR d a) (fun s => alu s d a (fun x y => x &&& y))

/-- OR. -/
def execOrR (d : DroverId) (a : RArgs) (s : State) : Ans :=
  onDrover s d (.orR d a) (fun s => alu s d a (fun x y => x ||| y))

/-- XOR. -/
def execXorR (d : DroverId) (a : RArgs) (s : State) : Ans :=
  onDrover s d (.xorR d a) (fun s => alu s d a (fun x y => x ^^^ y))

/-- SLL: shift by rs2[4:0]. -/
def execSll (d : DroverId) (a : RArgs) (s : State) : Ans :=
  onDrover s d (.sll d a) (fun s => alu s d a (fun x y => x <<< (y.toNat % 32)))

/-- SRL. -/
def execSrl (d : DroverId) (a : RArgs) (s : State) : Ans :=
  onDrover s d (.srl d a) (fun s => alu s d a (fun x y => x >>> (y.toNat % 32)))

/-- SRA. -/
def execSra (d : DroverId) (a : RArgs) (s : State) : Ans :=
  onDrover s d (.sra d a) (fun s => alu s d a (fun x y => x.sshiftRight (y.toNat % 32)))

/-- SLT. -/
def execSlt (d : DroverId) (a : RArgs) (s : State) : Ans :=
  onDrover s d (.slt d a) (fun s => alu s d a (fun x y => oneIf (x.slt y)))

/-- SLTU. -/
def execSltu (d : DroverId) (a : RArgs) (s : State) : Ans :=
  onDrover s d (.sltu d a) (fun s => alu s d a (fun x y => oneIf (x.ult y)))

/-- MIN. -/
def execMinR (d : DroverId) (a : RArgs) (s : State) : Ans :=
  onDrover s d (.minR d a) (fun s => alu s d a (fun x y => if x.slt y then x else y))

/-- MAX. -/
def execMaxR (d : DroverId) (a : RArgs) (s : State) : Ans :=
  onDrover s d (.maxR d a) (fun s => alu s d a (fun x y => if x.slt y then y else x))

/-- MINU. -/
def execMinu (d : DroverId) (a : RArgs) (s : State) : Ans :=
  onDrover s d (.minu d a) (fun s => alu s d a (fun x y => if x.ult y then x else y))

/-- MAXU. -/
def execMaxu (d : DroverId) (a : RArgs) (s : State) : Ans :=
  onDrover s d (.maxu d a) (fun s => alu s d a (fun x y => if x.ult y then y else x))

/-- MUL. -/
def execMulR (d : DroverId) (a : RArgs) (s : State) : Ans :=
  onDrover s d (.mulR d a) (fun s => alu s d a (fun x y => x * y))

/-- MULH: high 32 bits of the signed product. -/
def execMulh (d : DroverId) (a : RArgs) (s : State) : Ans :=
  onDrover s d (.mulh d a) (fun s => alu s d a (fun x y => BitVec.ofInt 32 ((x.toInt * y.toInt) / 2 ^ 32)))

/-- MULHU. -/
def execMulhu (d : DroverId) (a : RArgs) (s : State) : Ans :=
  onDrover s d (.mulhu d a) (fun s => alu s d a (fun x y => BitVec.ofNat 32 (x.toNat * y.toNat / 2 ^ 32)))

/-- DIV (R157). -/
def execDivR (d : DroverId) (a : RArgs) (s : State) : Ans :=
  onDrover s d (.divR d a) (fun s => alu s d a (fun x y => divS x y))

/-- DIVU. -/
def execDivu (d : DroverId) (a : RArgs) (s : State) : Ans :=
  onDrover s d (.divu d a) (fun s => alu s d a (fun x y => divU x y))

/-- REM. -/
def execRemR (d : DroverId) (a : RArgs) (s : State) : Ans :=
  onDrover s d (.remR d a) (fun s => alu s d a (fun x y => remS x y))

/-- REMU. -/
def execRemu (d : DroverId) (a : RArgs) (s : State) : Ans :=
  onDrover s d (.remu d a) (fun s => alu s d a (fun x y => remU x y))

/-- CLZ. -/
def execClz (d : DroverId) (a : RArgs) (s : State) : Ans :=
  onDrover s d (.clz d a) (fun s => alu s d a (fun x _ => leadingZeros x))

/-- POPC. -/
def execPopc (d : DroverId) (a : RArgs) (s : State) : Ans :=
  onDrover s d (.popc d a) (fun s => alu s d a (fun x _ => countOnes x))

/-- rd := op rs1 imm. -/
def alui (s : State) (d : DroverId) (a : IArgs) (op : Word → BitVec 16 → Word) : State :=
  writeX s d a.rd (op (getX s d a.rs1.toNat) a.imm)

/-- ADDI. -/
def execAddi (d : DroverId) (a : IArgs) (s : State) : Ans :=
  onDrover s d (.addi d a) (fun s => alui s d a (fun x i => x + i.signExtend 32))

/-- SLTI. -/
def execSlti (d : DroverId) (a : IArgs) (s : State) : Ans :=
  onDrover s d (.slti d a) (fun s => alui s d a (fun x i => oneIf (x.slt (i.signExtend 32))))

/-- ANDI: immediate zero-extended. -/
def execAndi (d : DroverId) (a : IArgs) (s : State) : Ans :=
  onDrover s d (.andi d a) (fun s => alui s d a (fun x i => x &&& i.setWidth 32))

/-- ORI. -/
def execOri (d : DroverId) (a : IArgs) (s : State) : Ans :=
  onDrover s d (.ori d a) (fun s => alui s d a (fun x i => x ||| i.setWidth 32))

/-- XORI. -/
def execXori (d : DroverId) (a : IArgs) (s : State) : Ans :=
  onDrover s d (.xori d a) (fun s => alui s d a (fun x i => x ^^^ i.setWidth 32))

/-- LUI. -/
def execLui (d : DroverId) (a : IArgs) (s : State) : Ans :=
  onDrover s d (.lui d a) (fun s => alui s d a (fun _ i => i.setWidth 32 <<< 16))

/-- SLLI. -/
def execSlli (d : DroverId) (a : ShArgs) (s : State) : Ans :=
  onDrover s d (.slli d a) (fun s => let x := getX s d a.rs1.toNat; writeX s d a.rd (x <<< a.amt.toNat))

/-- SRLI. -/
def execSrli (d : DroverId) (a : ShArgs) (s : State) : Ans :=
  onDrover s d (.srli d a) (fun s => let x := getX s d a.rs1.toNat; writeX s d a.rd (x >>> a.amt.toNat))

/-- SRAI. -/
def execSrai (d : DroverId) (a : ShArgs) (s : State) : Ans :=
  onDrover s d (.srai d a) (fun s => let x := getX s d a.rs1.toNat; writeX s d a.rd (x.sshiftRight a.amt.toNat))

/-! ## FP32 arithmetic (R153, R156) -/

/-- rd := op rs1 rs2 with flags. -/
def fpu (s : State) (d : DroverId) (a : RArgs) (op : Nat → Nat → Nat × FFlags) : State :=
  writeXF s d a.rd (op (getX s d a.rs1.toNat).toNat (getX s d a.rs2.toNat).toNat)
/-- A comparison as 1 or 0. -/
def cmpNat (r : Bool × FFlags) : Nat × FFlags := (b2n r.1, r.2)

/-- FADD. -/
def execFadd (d : DroverId) (a : RArgs) (s : State) : Ans :=
  onDrover s d (.fadd d a) (fun s => fpu s d a (fun x y => fpAdd fp32 x y))

/-- FSUB. -/
def execFsub (d : DroverId) (a : RArgs) (s : State) : Ans :=
  onDrover s d (.fsub d a) (fun s => fpu s d a (fun x y => fpSub fp32 x y))

/-- FMUL. -/
def execFmul (d : DroverId) (a : RArgs) (s : State) : Ans :=
  onDrover s d (.fmul d a) (fun s => fpu s d a (fun x y => fpMul fp32 x y))

/-- FDIV. -/
def execFdiv (d : DroverId) (a : RArgs) (s : State) : Ans :=
  onDrover s d (.fdiv d a) (fun s => fpu s d a (fun x y => fpDiv fp32 x y))

/-- FMIN: minimumNumber. -/
def execFmin (d : DroverId) (a : RArgs) (s : State) : Ans :=
  onDrover s d (.fmin d a) (fun s => fpu s d a (fun x y => fpMinMax fp32 false x y))

/-- FMAX: maximumNumber. -/
def execFmax (d : DroverId) (a : RArgs) (s : State) : Ans :=
  onDrover s d (.fmax d a) (fun s => fpu s d a (fun x y => fpMinMax fp32 true x y))

/-- FEQ. -/
def execFeq (d : DroverId) (a : RArgs) (s : State) : Ans :=
  onDrover s d (.feq d a) (fun s => fpu s d a (fun x y => cmpNat (fpEq fp32 x y)))

/-- FLT. -/
def execFlt (d : DroverId) (a : RArgs) (s : State) : Ans :=
  onDrover s d (.flt d a) (fun s => fpu s d a (fun x y => cmpNat (fpLt fp32 x y)))

/-- FLE. -/
def execFle (d : DroverId) (a : RArgs) (s : State) : Ans :=
  onDrover s d (.fle d a) (fun s => fpu s d a (fun x y => cmpNat (fpLe fp32 x y)))

/-- FSQRT. -/
def execFsqrt (d : DroverId) (a : RArgs) (s : State) : Ans :=
  onDrover s d (.fsqrt d a) (fun s => fpu s d a (fun x _ => fpSqrt fp32 x))

/-- FCVTWS: nearest-even, saturating, NaN to 0. -/
def execFcvtws (d : DroverId) (a : RArgs) (s : State) : Ans :=
  onDrover s d (.fcvtws d a) (fun s => fpu s d a (fun x _ => (wrapInt 32 (toIntSat 32 (v32 x)).1, (toIntSat 32 (v32 x)).2)))

/-- FCVTSW. -/
def execFcvtsw (d : DroverId) (a : RArgs) (s : State) : Ans :=
  onDrover s d (.fcvtsw d a) (fun s => fpu s d a (fun x _ => toIeee fp32 (ofInt (signedOf 32 x))))

/-- FMA: rd := rd + rs1 × rs2, rounded once. -/
def execFma (d : DroverId) (a : RArgs) (s : State) : Ans :=
  onDrover s d (.fma d a) (fun s =>
    let c := (getX s d a.rd.toNat).toNat
    fpu s d a (fun x y => fpFma fp32 x y c))

/-! ## Loads and stores (R145, R146, R156) -/

/-- A scalar load of n bytes; `ext` extends the value read. -/
def loadX (s : State) (d : DroverId) (a : IArgs) (n : Nat) (ext : Nat → Word) : State :=
  loadThen s d (effAddr s d a) n n (fun t bs => setX t d a.rd.toNat (ext (leNat bs)))
/-- A scalar store of the low n bytes of rd. -/
def storeX (s : State) (d : DroverId) (a : IArgs) (n : Nat) : State :=
  storeThen s d (effAddr s d a) n (leBytes n (getX s d a.rd.toNat).toNat)

/-- LW. -/
def execLw (d : DroverId) (a : IArgs) (s : State) : Ans :=
  onDrover s d (.lw d a) (fun s => loadX s d a 4 (fun v => BitVec.ofNat 32 v))

/-- LH. -/
def execLh (d : DroverId) (a : IArgs) (s : State) : Ans :=
  onDrover s d (.lh d a) (fun s => loadX s d a 2 (fun v => (BitVec.ofNat 16 v).signExtend 32))

/-- LHU. -/
def execLhu (d : DroverId) (a : IArgs) (s : State) : Ans :=
  onDrover s d (.lhu d a) (fun s => loadX s d a 2 (fun v => BitVec.ofNat 32 v))

/-- LB. -/
def execLb (d : DroverId) (a : IArgs) (s : State) : Ans :=
  onDrover s d (.lb d a) (fun s => loadX s d a 1 (fun v => (BitVec.ofNat 8 v).signExtend 32))

/-- LBU. -/
def execLbu (d : DroverId) (a : IArgs) (s : State) : Ans :=
  onDrover s d (.lbu d a) (fun s => loadX s d a 1 (fun v => BitVec.ofNat 32 v))

/-- SW. -/
def execSw (d : DroverId) (a : IArgs) (s : State) : Ans :=
  onDrover s d (.sw d a) (fun s => storeX s d a 4)

/-- SH. -/
def execSh (d : DroverId) (a : IArgs) (s : State) : Ans :=
  onDrover s d (.sh d a) (fun s => storeX s d a 2)

/-- SB. -/
def execSb (d : DroverId) (a : IArgs) (s : State) : Ans :=
  onDrover s d (.sb d a) (fun s => storeX s d a 1)

/-! ## Branches and jumps (R156) -/

/-- pc := pc + 4 × offset if the comparison holds, else the next instruction. -/
def branch (s : State) (d : DroverId) (a : BArgs) (p : Word → Word → Bool) : State :=
  if p (getX s d a.rs1.toNat) (getX s d a.rs2.toNat) then
    modDrv s d (fun v => { v with pc := v.pc + 4 * a.off.signExtend 32 })
  else pcNext s d

/-- BEQ. -/
def execBeq (d : DroverId) (a : BArgs) (s : State) : Ans :=
  onDrover s d (.beq d a) (fun s => branch s d a (fun x y => x == y))

/-- BNE. -/
def execBne (d : DroverId) (a : BArgs) (s : State) : Ans :=
  onDrover s d (.bne d a) (fun s => branch s d a (fun x y => x != y))

/-- BLT. -/
def execBlt (d : DroverId) (a : BArgs) (s : State) : Ans :=
  onDrover s d (.blt d a) (fun s => branch s d a (fun x y => x.slt y))

/-- BGE. -/
def execBge (d : DroverId) (a : BArgs) (s : State) : Ans :=
  onDrover s d (.bge d a) (fun s => branch s d a (fun x y => !x.slt y))

/-- BLTU. -/
def execBltu (d : DroverId) (a : BArgs) (s : State) : Ans :=
  onDrover s d (.bltu d a) (fun s => branch s d a (fun x y => x.ult y))

/-- BGEU. -/
def execBgeu (d : DroverId) (a : BArgs) (s : State) : Ans :=
  onDrover s d (.bgeu d a) (fun s => branch s d a (fun x y => !x.ult y))

/-- JAL: x31 := pc + 4; pc := pc + 4 × offset. -/
def execJal (d : DroverId) (off : BitVec 26) (s : State) : Ans :=
  onDrover s d (.jal d off) (fun s =>
    let pc := (getDrv s d).pc
    modDrv (setX s d 31 (pc + 4)) d (fun v => { v with pc := pc + 4 * off.signExtend 32 }))

/-- JALR: rd := pc + 4; pc := rs1 with bits 1:0 cleared. -/
def execJalr (d : DroverId) (a : RArgs) (s : State) : Ans :=
  onDrover s d (.jalr d a) (fun s =>
    let pc := (getDrv s d).pc
    let t := getX s d a.rs1.toNat
    modDrv (setX s d a.rd.toNat (pc + 4)) d (fun v => { v with pc := t &&& ~~~3#32 }))

/-! ## Control registers (R164) -/

/-- Size of the macro area of an engine in KiB (R101, R435). -/
def macroKib (s : State) (e : Nat) : Nat :=
  match partOfClu s (cluOf e) with | none => 512 | some p => 512 - 16 * p.droverRsv

/-- The control register of an index. DRV_CYCLE is open: cycles are outside the model (log 8), so a read is a free value. -/
def csrRead (s : State) (d : Nat) (i : Nat) : Word :=
  match i with
  | 0 => BitVec.ofNat 32 (d % 64)
  | 1 => BitVec.ofNat 32 (engOf d)
  | 2 => BitVec.ofNat 32 (cluOf (engOf d))
  | 3 => (getDrv s d).ordinal
  | 4 => BitVec.ofNat 32 (getGrp s (grpOf d)).count
  | 5 => Config.freeWord s.fresh
  | 6 => BitVec.ofNat 32 s.stage.toNat
  | 7 => (getDrv s d).fflags.setWidth 32
  | 8 => drvTag s d
  | _ => BitVec.ofNat 32 (1024 * macroKib s (engOf d))

/-- CSRR: rd := the control register rs2. -/
def execCsrr (d : DroverId) (a : RArgs) (s : State) : Ans :=
  onDrover s d (.csrr d a) (fun s =>
    let w := csrRead s d a.rs2.toNat
    writeX (if a.rs2 = 5 then drawn s else s) d a.rd w)

/-- CSRW: FFLAGS := rs1. -/
def execCsrw (d : DroverId) (a : RArgs) (s : State) : Ans :=
  onDrover s d (.csrw d a) (fun s =>
    let w := getX s d a.rs1.toNat
    pcNext (modDrv s d (fun v => { v with fflags := BitVec.ofNat 5 w.toNat })) d)

/-! ## Tally instructions and fences (R167, R168) -/

/-- The operation of a drover on a tally of its launch's context. -/
def drvOp (s : State) (d code scope : Nat) (vid : Nat) (amount : Word) (dest : Nat) : TallyOp :=
  { code := code, ctx := drvCtx s d, vid := vid, scope := scope, amount := amount, issuer := .drover d, tag := drvTag s d,
    ord := (getDrv s d).ord, node := none, dest := dest }

/-- Issues a tally instruction: the drover waits until its operation has come back. Bits 31:16 of rs1 must be zero (R167). -/
def tallyInstr (s : State) (d : DroverId) (a : SArgs) (code : Nat) (amount : Word) : State :=
  let w := getX s d a.rs1.toNat
  if 0x10000 ≤ w.toNat then drvIllegal s d
  else
    let o := drvOp s d code a.scope.toNat w.toNat amount a.rd.toNat
    match getTally s o.ctx o.vid with
    | none => unmapped s o
    | some _ => sendOp (modDrv s d (fun v => { v with st := .waiting, ord := v.ord + 1 })) o

/-- TSIG: release, then an ADD of rs2, which is 1 to 255 (R167). -/
def execTsig (d : DroverId) (a : SArgs) (s : State) : Ans :=
  onDrover s d (.tsig d a) (fun s =>
    let n := getX s d a.rs2.toNat
    if n = 0 || decide (255 < n.toNat) then drvIllegal s d else tallyInstr s d a 8 n)

/-- TWAIT: wait until the tally reaches rs2. -/
def execTwait (d : DroverId) (a : SArgs) (s : State) : Ans :=
  onDrover s d (.twait d a) (fun s => tallyInstr s d a 9 (getX s d a.rs2.toNat))

/-- TBAR: one arrival, stated count rs2, and wait for the release. -/
def execTbar (d : DroverId) (a : SArgs) (s : State) : Ans :=
  onDrover s d (.tbar d a) (fun s => tallyInstr s d a 10 (getX s d a.rs2.toNat))

/-- TREAD: rd := the value of the tally. -/
def execTread (d : DroverId) (a : SArgs) (s : State) : Ans :=
  onDrover s d (.tread d a) (fun s => tallyInstr s d a 11 0)

/-- FENCE: earlier accesses of the drover are performed when it issues, since each step performs its accesses (log 11). -/
def execDroverFence (d : DroverId) (a : SArgs) (s : State) : Ans :=
  onDrover s d (.droverFence d a) (fun s => pcNext s d)

/-! ## Macro launch slots and ends (R156, R169) -/

/-- MPOLL: the state of the slot rs1[1:0]; reading state 3 frees the slot (R169). -/
def execMpoll (d : DroverId) (a : RArgs) (s : State) : Ans :=
  onDrover s d (.mpoll d a) (fun s =>
    let n := (getX s d a.rs1.toNat).toNat % 4
    let sl := ((getEng s (engOf d.val)).slots[n]?).getD {}
    let s1 := if sl.state = 3 then modEng s (engOf d.val) (fun e => { e with slots := listSet e.slots n {} }) else s
    writeX s1 d a.rd (sl.state.setWidth 32))

/-- BRK: a fault with cause 5 that freezes the group. -/
def execBrk (d : DroverId) (a : RArgs) (s : State) : Ans :=
  onDrover s d (.brk d a) (fun s => drvFault s d 0x0303 5 (wordAtPc s d))

/-- HALT: ends the drover's part of the launch. -/
def execHalt (d : DroverId) (a : RArgs) (s : State) : Ans :=
  onDrover s d (.halt d a) (fun s => modDrv s d (fun v => { v with st := .halted }))

/-! ## Words that are no instruction (R155, R171) -/

/-- A drover executes an illegal word: cause 1. -/
def execIllegalInstruction (d : DroverId) (s : State) : Ans :=
  .next (if drvReady s d.val && fetchIn s d.val && (drvDecode d (wordAtPc s d.val)).isNone then drvIllegal s d.val else s)

/-- A drover fetches at or beyond code_bytes: cause 4, whatever the store holds there. -/
def execFetchOutsideImage (d : DroverId) (s : State) : Ans :=
  .next (if drvReady s d.val && !fetchIn s d.val then drvFault s d.val 0x0303 4 (wordAtPc s d.val) else s)

end Sys2Proof.Machine
end

