-- ==== Sys2Proof/Machine/DroverVector.lean ====
section
/-! DEFINITION. Vector drover instructions (R156, R158, R160 to R163, R165, R166). -/

namespace Sys2Proof.Machine

/-! ## Floating-point lanes (R158) -/

/-- VADD on floating-point lanes. -/
def execVaddFp (d : DroverId) (a : VArgs) (s : State) : Ans :=
  onDrover s d (.vaddFp d a) (fun s => vfp2 s d a fpAdd)

/-- VSUB on floating-point lanes. -/
def execVsubFp (d : DroverId) (a : VArgs) (s : State) : Ans :=
  onDrover s d (.vsubFp d a) (fun s => vfp2 s d a fpSub)

/-- VMUL on floating-point lanes. -/
def execVmulFp (d : DroverId) (a : VArgs) (s : State) : Ans :=
  onDrover s d (.vmulFp d a) (fun s => vfp2 s d a fpMul)

/-- VMIN on floating-point lanes. -/
def execVminFp (d : DroverId) (a : VArgs) (s : State) : Ans :=
  onDrover s d (.vminFp d a) (fun s => vfp2 s d a (fun f => fpMinMax f false))

/-- VMAX on floating-point lanes. -/
def execVmaxFp (d : DroverId) (a : VArgs) (s : State) : Ans :=
  onDrover s d (.vmaxFp d a) (fun s => vfp2 s d a (fun f => fpMinMax f true))

/-- VFMA: vd := va × vb + vc, rounded once. -/
def execVfma (d : DroverId) (a : VArgs) (s : State) : Ans :=
  onDrover s d (.vfma d a) (fun s =>
    let w := fpWidth a.ty
    let l := (lanes w (getV s d a.va.toNat)).zip ((lanes w (getV s d a.vb.toNat)).zip (lanes w (getV s d a.vc.toNat)))
    let r := l.map (fun p => fpFma (fpType a.ty) p.1 p.2.1 p.2.2)
    writeVF s d a.vd (ofLanes w (r.map (·.1))) (orFlags r))

/-- The sign bit of a pattern set or inverted; a NaN that an instruction produces is canonical (R153). -/
def signLane (f : FpFmt) (abs : Bool) (x : Nat) : Nat × FFlags :=
  let top := 2 ^ (f.mb + f.eb)
  if (decodeFp f x).isNaN then (canonNaN f, noFlags)
  else (if abs then x % top else if x % (2 * top) < top then x + top else x - top, noFlags)

/-- VABS. -/
def execVabs (d : DroverId) (a : VArgs) (s : State) : Ans :=
  onDrover s d (.vabs d a) (fun s => vfp1 s d a (fun f => signLane f true))

/-- VNEG. -/
def execVneg (d : DroverId) (a : VArgs) (s : State) : Ans :=
  onDrover s d (.vneg d a) (fun s => vfp1 s d a (fun f => signLane f false))

/-- A comparison lane: all ones or zero. -/
def cmpLane (op : FpFmt → Nat → Nat → Bool × FFlags) (f : FpFmt) (x y : Nat) : Nat × FFlags :=
  (maskLane (f.mb + f.eb + 1) (op f x y).1, (op f x y).2)

/-- VCMPEQ on floating-point lanes. -/
def execVcmpeqFp (d : DroverId) (a : VArgs) (s : State) : Ans :=
  onDrover s d (.vcmpeqFp d a) (fun s => vfp2 s d a (cmpLane fpEq))

/-- VCMPLT on floating-point lanes. -/
def execVcmpltFp (d : DroverId) (a : VArgs) (s : State) : Ans :=
  onDrover s d (.vcmpltFp d a) (fun s => vfp2 s d a (cmpLane fpLt))

/-- VCMPLE on floating-point lanes. -/
def execVcmple (d : DroverId) (a : VArgs) (s : State) : Ans :=
  onDrover s d (.vcmple d a) (fun s => vfp2 s d a (cmpLane fpLe))

/-- A function of FP32 applied to a lane: BF16 and FP16 are widened exactly and the FP32 result is rounded once (R160). -/
def viaFp32 (fn : FpVal → Nat × FFlags) (f : FpFmt) (x : Nat) : Nat × FFlags :=
  let r := fn (decodeFp f x)
  let q := if f = fp32 then r else (let t := toIeee f (v32 r.1); (t.1, r.2.or t.2))
  (q.1, q.2.or { nv := isSNaN f x })

/-- VEXP2 (R160). -/
def execVexp2 (d : DroverId) (a : VArgs) (s : State) : Ans :=
  onDrover s d (.vexp2 d a) (fun s => vfp1 s d a (viaFp32 exp2V))

/-- VLOG2 (R160). -/
def execVlog2 (d : DroverId) (a : VArgs) (s : State) : Ans :=
  onDrover s d (.vlog2 d a) (fun s => vfp1 s d a (viaFp32 log2V))

/-- VRCP (R160). -/
def execVrcp (d : DroverId) (a : VArgs) (s : State) : Ans :=
  onDrover s d (.vrcp d a) (fun s => vfp1 s d a (viaFp32 rcpV))

/-- VRSQRT (R160). -/
def execVrsqrt (d : DroverId) (a : VArgs) (s : State) : Ans :=
  onDrover s d (.vrsqrt d a) (fun s => vfp1 s d a (viaFp32 rsqrtV))

/-! ## Integer lanes (R156) -/

/-- Signed saturating sum of lanes of width w. -/
def satAdd (w x y : Nat) : Nat :=
  wrapInt w (clampInt (-(2 ^ (w - 1) : Nat)) ((2 ^ (w - 1) : Nat) - 1) (signedOf w x + signedOf w y))
/-- Arithmetic shift right of a lane. -/
def sraLane (w x k : Nat) : Nat := wrapInt w (signedOf w x / (2 ^ k : Nat))

/-- VADD on integer lanes. -/
def execVaddInt (d : DroverId) (a : VArgs) (s : State) : Ans :=
  onDrover s d (.vaddInt d a) (fun s => vint2 s d a (fun w x y => (x + y) % 2 ^ w))

/-- VSUB on integer lanes. -/
def execVsubInt (d : DroverId) (a : VArgs) (s : State) : Ans :=
  onDrover s d (.vsubInt d a) (fun s => vint2 s d a (fun w x y => (x + 2 ^ w - y) % 2 ^ w))

/-- VMUL on integer lanes. -/
def execVmulInt (d : DroverId) (a : VArgs) (s : State) : Ans :=
  onDrover s d (.vmulInt d a) (fun s => vint2 s d a (fun w x y => (x * y) % 2 ^ w))

/-- VADDSAT on integer lanes. -/
def execVaddsat (d : DroverId) (a : VArgs) (s : State) : Ans :=
  onDrover s d (.vaddsat d a) (fun s => vint2 s d a (fun w x y => satAdd w x y))

/-- VMIN, signed on integer lanes. -/
def execVminInt (d : DroverId) (a : VArgs) (s : State) : Ans :=
  onDrover s d (.vminInt d a) (fun s => vint2 s d a (fun w x y => if signedOf w x < signedOf w y then x else y))

/-- VMAX, signed on integer lanes. -/
def execVmaxInt (d : DroverId) (a : VArgs) (s : State) : Ans :=
  onDrover s d (.vmaxInt d a) (fun s => vint2 s d a (fun w x y => if signedOf w x < signedOf w y then y else x))

/-- VCMPEQ on integer lanes. -/
def execVcmpeqInt (d : DroverId) (a : VArgs) (s : State) : Ans :=
  onDrover s d (.vcmpeqInt d a) (fun s => vint2 s d a (fun w x y => maskLane w (x == y)))

/-- VCMPLT, signed on integer lanes. -/
def execVcmpltInt (d : DroverId) (a : VArgs) (s : State) : Ans :=
  onDrover s d (.vcmpltInt d a) (fun s => vint2 s d a (fun w x y => maskLane w (decide (signedOf w x < signedOf w y))))

/-- VAND on integer lanes. -/
def execVand (d : DroverId) (a : VArgs) (s : State) : Ans :=
  onDrover s d (.vand d a) (fun s => vint2 s d a (fun _ x y => x &&& y))

/-- VOR on integer lanes. -/
def execVor (d : DroverId) (a : VArgs) (s : State) : Ans :=
  onDrover s d (.vor d a) (fun s => vint2 s d a (fun _ x y => x ||| y))

/-- VXOR on integer lanes. -/
def execVxor (d : DroverId) (a : VArgs) (s : State) : Ans :=
  onDrover s d (.vxor d a) (fun s => vint2 s d a (fun _ x y => x ^^^ y))

/-- VSLL: by the low bits of the same lane of vb on integer lanes. -/
def execVsll (d : DroverId) (a : VArgs) (s : State) : Ans :=
  onDrover s d (.vsll d a) (fun s => vint2 s d a (fun w x y => (x * 2 ^ (y % w)) % 2 ^ w))

/-- VSRL on integer lanes. -/
def execVsrl (d : DroverId) (a : VArgs) (s : State) : Ans :=
  onDrover s d (.vsrl d a) (fun s => vint2 s d a (fun w x y => x / 2 ^ (y % w)))

/-- VSRA on integer lanes. -/
def execVsra (d : DroverId) (a : VArgs) (s : State) : Ans :=
  onDrover s d (.vsra d a) (fun s => vint2 s d a (fun w x y => sraLane w x (y % w)))

/-- VSEL: vd := (va AND vc) OR (vb AND NOT vc). -/
def execVsel (d : DroverId) (a : VArgs) (s : State) : Ans :=
  onDrover s d (.vsel d a) (fun s =>
    let m := getV s d a.vc.toNat
    writeV s d a.vd ((getV s d a.va.toNat &&& m) ||| (getV s d a.vb.toNat &&& ~~~m)))

/-! ## Scalars and lanes (R156) -/

/-- VSPLAT: every lane of vd := x. -/
def execVsplat (d : DroverId) (a : XArgs) (s : State) : Ans :=
  onDrover s d (.vsplat d a) (fun s =>
    let w := xWidth a.ty
    writeV s d a.vd (ofLanes w (List.replicate (256 / w) (getX s d a.x.toNat).toNat)))

/-- A free vector value (log 5). -/
def freeV (s : State) : BitVec 256 := ofLanes 32 ((List.range 8).map (fun i => (Config.freeWord (8 * s.fresh + i)).toNat))

/-- VINS: lane `lane` of vd := x, others kept. The spec states no result for a lane number that the type does not have: vd
is then a free value (log 13). -/
def execVins (d : DroverId) (a : XArgs) (s : State) : Ans :=
  onDrover s d (.vins d a) (fun s =>
    let w := xWidth a.ty
    if a.lane.toNat < 256 / w then
      writeV s d a.vd (ofLanes w (listSet (lanes w (getV s d a.vd.toNat)) a.lane.toNat (getX s d a.x.toNat).toNat))
    else writeV (drawn s) d a.vd (freeV s))

/-- VEXT: x := lane `lane` of va, sign-extended; a free value for a lane number that the type does not have (log 13). -/
def execVext (d : DroverId) (a : XArgs) (s : State) : Ans :=
  onDrover s d (.vext d a) (fun s =>
    let w := xWidth a.ty
    if a.lane.toNat < 256 / w then
      writeX s d a.x (BitVec.ofInt 32 (signedOf w (lane w (getV s d a.va.toNat) a.lane.toNat)))
    else writeX (drawn s) d a.x (Config.freeWord s.fresh))

/-- VMOV: vd := va. -/
def execVmov (d : DroverId) (a : XArgs) (s : State) : Ans :=
  onDrover s d (.vmov d a) (fun s => writeV s d a.vd (getV s d a.va.toNat))

/-! ## Reductions (R161) -/

/-- One round of the pairwise tree. -/
def pairRound {α : Type} (op : α → α → α) : List α → List α
  | x :: y :: t => op x y :: pairRound op t
  | l => l

/-- The fixed pairwise tree of 2^k lanes. -/
def treeReduce {α : Type} (op : α → α → α) : Nat → List α → List α
  | 0, l => l
  | k + 1, l => treeReduce op k (pairRound op l)

/-- Lane 0 of a list of lanes by lane width w, every other lane zero. -/
def laneZero (w : Nat) (l : List Nat) : BitVec 256 := ofLanes w (l.take 1)

/-- A reduction of lanes held as FP32 patterns with flags. -/
def reduceV (s : State) (d : Nat) (a : VArgs) (op : Nat → Nat → Nat × FFlags) : List (Nat × FFlags) :=
  let f := fpType a.ty
  let l := (lanes (fpWidth a.ty) (getV s d a.va.toNat)).map
    (fun x => ((toIeee fp32 (decodeFp f x)).1, ({ nv := isSNaN f x } : FFlags)))
  treeReduce (fun p q => let r := op p.1 q.1; (r.1, (p.2.or q.2).or r.2)) 4 l

/-- A reduced FP32 value narrowed once to the lane type, in lane 0. -/
def writeReduced (s : State) (d : Nat) (a : VArgs) (r : List (Nat × FFlags)) : State :=
  let x := r.headD (0, noFlags)
  let q := if a.ty = 0 then (x.1, noFlags) else toIeee (fpType a.ty) (v32 x.1)
  writeVF s d a.vd (laneZero (fpWidth a.ty) [q.1]) (x.2.or q.2)

/-- The maximum or minimum of two FP32 patterns, NaN if either is a NaN. -/
def redMax (mx : Bool) (x y : Nat) : Nat × FFlags :=
  if (v32 x).isNaN || (v32 y).isNaN then (canonNaN fp32, noFlags) else ((fpMinMax fp32 mx x y).1, noFlags)

/-- VRSUM: each sum rounded to FP32; only the final sum to the lane type. -/
def execVrsum (d : DroverId) (a : VArgs) (s : State) : Ans :=
  onDrover s d (.vrsum d a) (fun s => writeReduced s d a (reduceV s d a (fpAdd fp32)))

/-- VRMAX. -/
def execVrmax (d : DroverId) (a : VArgs) (s : State) : Ans :=
  onDrover s d (.vrmax d a) (fun s => writeReduced s d a (reduceV s d a (redMax true)))

/-- VRMIN. -/
def execVrmin (d : DroverId) (a : VArgs) (s : State) : Ans :=
  onDrover s d (.vrmin d a) (fun s => writeReduced s d a (reduceV s d a (redMax false)))

/-- VRMAXI: lane 0 the maximum, lane 1 the lowest lane index that equals it, 0 when it is NaN. -/
def execVrmaxi (d : DroverId) (a : VArgs) (s : State) : Ans :=
  onDrover s d (.vrmaxi d a) (fun s =>
    let r := (reduceV s d a (redMax true)).headD (0, noFlags)
    let i := if (v32 r.1).isNaN then 0
      else ((lanes 32 (getV s d a.va.toNat)).findIdx? (fun x => eqV (v32 x) (v32 r.1))).getD 0
    writeVF s d a.vd (ofLanes 32 [r.1, i]) r.2)

/-- VRADD: lane 0 the sum of the INT32 lanes modulo 2³². -/
def execVradd (d : DroverId) (a : VArgs) (s : State) : Ans :=
  onDrover s d (.vradd d a) (fun s =>
    writeV s d a.vd (ofLanes 32 [listSum (lanes 32 (getV s d a.va.toNat))]))

/-! ## Permutations (R156, R162) -/

/-- Lane width of VPERM and VROT (log 17). -/
def permWidth (ty : BitVec 2) : Nat := if Config.permIntTypes then intWidth ty else fpWidth ty

/-- VPERM: lane i of vd := lane (lane i of vb mod n) of va. -/
def execVperm (d : DroverId) (a : VArgs) (s : State) : Ans :=
  onDrover s d (.vperm d a) (fun s =>
    let w := permWidth a.ty
    let x := getV s d a.va.toNat
    writeV s d a.vd (ofLanes w ((lanes w (getV s d a.vb.toNat)).map (fun i => lane w x (i % (256 / w))))))

/-- VROT: lane i of vd := lane ((i + amount) mod n) of va. -/
def execVrot (d : DroverId) (a : VArgs) (s : State) : Ans :=
  onDrover s d (.vrot d a) (fun s =>
    let w := permWidth a.ty
    let x := getV s d a.va.toNat
    writeV s d a.vd (ofLanes w ((List.range (256 / w)).map (fun i => lane w x ((i + a.vc.toNat) % (256 / w))))))

/-- Key x sorts strictly above key y: NaN above every number, −0 below +0 (R162). -/
def sortAbove (x y : Nat) : Bool :=
  let u := v32 x
  let v := v32 y
  if u.isNaN then !v.isNaN
  else if v.isNaN then false
  else ltV v u || (u.isZero && v.isZero && !u.sign && v.sign)

/-- Inserts a pair below every pair that is not below it, so that equal keys keep their order. -/
def sortInsert (p : Nat × Nat) : List (Nat × Nat) → List (Nat × Nat)
  | [] => [p]
  | q :: t => if sortAbove p.1 q.1 then p :: q :: t else q :: sortInsert p t

/-- VSORT: eight keys in descending order to vd, their payloads to vd + 1; stable. -/
def execVsort (d : DroverId) (a : VArgs) (s : State) : Ans :=
  onDrover s d (.vsort d a) (fun s =>
    let l := (lanes 32 (getV s d a.va.toNat)).zip (lanes 32 (getV s d a.vb.toNat))
    let r := l.foldl (fun acc p => sortInsert p acc) []
    pcNext (setV (setV s d a.vd.toNat (ofLanes 32 (r.map (·.1)))) d (a.vd.toNat + 1) (ofLanes 32 (r.map (·.2)))) d)

/-! ## Conversion (R163) -/

/-- A signalling NaN of a source format. -/
def cvtSNaN (c x : Nat) : Bool :=
  match fmtOf c with | some f => (c ≤ 2 || c = 4) && isSNaN f x | none => false

/-- One element converted (R40, R163). -/
def cvtElem (src dst x : Nat) : Nat × FFlags :=
  let r := convOut dst (decodeElem src 0 x)
  (r.1, r.2.or { nv := cvtSNaN src x })

/-- VCVT: n elements of one part; a code VCVT does not take raises FORMAT_UNSUPPORTED. -/
def execVcvt (d : DroverId) (a : CArgs) (s : State) : Ans :=
  onDrover s d (.vcvt d a) (fun s =>
    let bs := cvtBits a.src.toNat
    let bd := cvtBits a.dst.toNat
    if bs = 0 || bd = 0 then drvFault s d 0x0105 0 (wordAtPc s d)
    else
      let n := 256 / max bs bd
      let x := lanes bs (getV s d a.va.toNat)
      let part := a.part.toNat
      let inp := if bs < bd then (x.drop (n * part)).take n else x
      let r := inp.map (cvtElem a.src.toNat a.dst.toNat)
      let old := lanes bd (getV s d a.vd.toNat)
      let res := if bd < bs then old.take (n * part) ++ r.map (·.1) ++ old.drop (n * part + n) else r.map (·.1)
      writeVF s d a.vd (ofLanes bd res) (orFlags r))

/-! ## Packing (R165, R166) -/

/-- VPACK: 32 FP32 elements of va to va + 3 packed by kind; bytes the kind does not write are kept; scales to x. -/
def execVpack (d : DroverId) (a : PArgs) (s : State) : Ans :=
  onDrover s d (.vpack d a) (fun s =>
    if 10 < a.kind.toNat then drvFault s d 0x0105 0 (wordAtPc s d)
    else
      let k := a.kind.toNat
      let l := ((List.range 4).map (fun i => lanes 32 (getV s d (a.va.toNat + i)))).flatten
      let r := packKind k (l.map v32)
      let fl := r.2.2.or { nv := l.any (isSNaN fp32) }
      let off := if kindHalf k then 16 * a.part.toNat else 0
      let bs := putAt (vBytes (getV s d a.vd.toNat)) off r.1
      pcNext (orFflags (setX (setV s d a.vd.toNat (ofBytes bs)) d a.x.toNat (BitVec.ofNat 32 r.2.1)) d fl) d)

/-- VUNPK: the 32 decoded FP32 values, each exact, into vd to vd + 3. -/
def execVunpk (d : DroverId) (a : PArgs) (s : State) : Ans :=
  onDrover s d (.vunpk d a) (fun s =>
    if 10 < a.kind.toNat then drvFault s d 0x0105 0 (wordAtPc s d)
    else
      let k := a.kind.toNat
      let off := if kindHalf k then 16 * a.part.toNat else 0
      let l := unpackKind k ((vBytes (getV s d a.va.toNat)).drop off) (getX s d a.x.toNat).toNat
      let g := chunksOf 8 l
      let put := fun (t : State) (i : Nat) => setV t d (a.vd.toNat + i) (ofLanes 32 ((g[i]?).getD []))
      pcNext (put (put (put (put s 0) 1) 2) 3) d)

/-! ## Vector memory (R146, R156) -/

/-- rs1 + 32 × offset, modulo 2³². -/
def vecAddr (s : State) (d : Nat) (a : MArgs) : Nat := (getX s d a.rs1.toNat + 32 * a.off.signExtend 32).toNat

/-- VLD. -/
def execVld (d : DroverId) (a : MArgs) (s : State) : Ans :=
  onDrover s d (.vld d a) (fun s =>
    loadThen s d (vecAddr s d a) 32 32 (fun t bs => setV t d a.vd.toNat (ofBytes bs)))

/-- VST. -/
def execVst (d : DroverId) (a : MArgs) (s : State) : Ans :=
  onDrover s d (.vst d a) (fun s => storeThen s d (vecAddr s d a) 32 (vBytes (getV s d a.vd.toNat)))

/-- The eight addresses of a gather or scatter. -/
def vecAddrs (s : State) (d : Nat) (a : MArgs) : List Nat :=
  (lanes 32 (getV s d a.va.toNat)).map (fun i =>
    (BitVec.ofNat 32 (vecAddr s d a) + 4 * BitVec.ofNat 32 i).toNat)

/-- Reads 4 bytes at each address; the first failure ends it. -/
def gather (s : State) (d : Nat) : List Nat → WinRes (List Nat)
  | [] => .ok []
  | x :: t => match winRead s d x 4 4 with
    | .fault c y => .fault c y
    | .bad y => .bad y
    | .ok b => match gather s d t with
      | .fault c y => .fault c y
      | .bad y => .bad y
      | .ok l => .ok (leNat b :: l)

/-- Writes 4 bytes at each address, in lane order; the first failure ends it. -/
def scatter (s : State) (d : Nat) : List (Nat × Nat) → WinRes State
  | [] => .ok s
  | (x, v) :: t => match winWrite s d x 4 (leBytes 4 v) with
    | .fault c y => .fault c y
    | .bad y => .bad y
    | .ok s1 => scatter s1 d t

/-- The lane values of a scatter: where lanes name one address, the rules do not say whose value is stored: the choice of one
of them is free (log 59). -/
def scatterLanes (s : State) (l : List (Nat × Nat)) : List (Nat × Nat) :=
  l.map (fun p =>
    let same := l.filter (fun q => q.1 = p.1)
    if same.length ≤ 1 then p else (p.1, ((same.map (·.2))[Config.choice s.fresh / 840 ^ (l.findIdx (fun q => q.1 = p.1)) % same.length]?).getD 0))

/-- VGATH: no lane is written when one faults (R152). -/
def execVgath (d : DroverId) (a : MArgs) (s : State) : Ans :=
  onDrover s d (.vgath d a) (fun s =>
    match gather s d (vecAddrs s d a) with
    | .fault c y => drvFault s d 0x0303 c (BitVec.ofNat 32 y)
    | .bad y => drvUncorrectable s d (BitVec.ofNat 32 y)
    | .ok l =>
      let s1 := (vecAddrs s d a).foldl (fun t x => winTouch t d x 4) s
      writeV s1 d a.vd (ofLanes 32 l))

/-- VSCAT: nothing is stored when one lane faults (R152). -/
def execVscat (d : DroverId) (a : MArgs) (s : State) : Ans :=
  onDrover s d (.vscat d a) (fun s =>
    let l := (vecAddrs s d a).zip (lanes 32 (getV s d a.vd.toNat))
    match scatter s d (scatterLanes s l) with
    | .fault c y => drvFault s d 0x0303 c (BitVec.ofNat 32 y)
    | .bad y => drvUncorrectable s d (BitVec.ofNat 32 y)
    | .ok t => pcNext (if (l.map (·.1)).eraseDups.length = l.length then t else drawn t) d)

end Sys2Proof.Machine
end

