-- ==== Sys2Proof/Machine/Rejoin.lean ====
section
/-! DEFINITION. UNIT_REJOIN (R469, R470): a returning unit is zeroed, loaded, re-locked and given its next generation, then
reported. What each kind of unit does is in Units and PortOps. -/

namespace Sys2Proof.Machine

/-- A retested slot that passed while an apply or update ran becomes the spare (R461, R469). -/
def rejoinRetested (s : State) (c slot : Nat) : State :=
  if (getClu s c).passed.contains slot && (getClu s c).spare = 31 then rejoinSlot s c slot else s

/-- A cluster given to a partition by an apply (R470). -/
def rejoinGiven (s : State) (c : Nat) : State := if (getClu s c).cstate = 2 then rejoinCluster s c else s

/-- The unit rejoins. -/
def rejoinUnit (s : State) (u : RejoinUnit) : State :=
  match u with
  | .spare c => rejoinSpare s c.val
  | .retested c slot => if rejoinHeld s then s else rejoinRetested s c.val slot.val
  | .givenCluster c => if rejoinHeld s then s else rejoinGiven s c.val
  | .bank b => if rejoinHeld s then s else rejoinBank s b.val
  | .lane p l => rejoinLane s p.val l.val

/-- UNIT_REJOIN (R469): no unit rejoins while the device is frozen; all but a waking spare wait for an apply or a live update
to end. -/
def execUnitRejoin (u : RejoinUnit) (s : State) : Ans := .next (if unitsMove s then rejoinUnit s u else s)

end Sys2Proof.Machine
end

