-- ==== Sys2Proof/Machine/RegMap.lean ====
section
/-! DEFINITION. The register map of BAR0 (R13): which register lies at an offset, which of its bits take which kind of write
(R12), who sees it (R376) and who may write its RWL fields (R12, R393, R421, R438, R481). -/

namespace Sys2Proof.Machine

/-- A register, by its block, the unit it belongs to, and its offset in that unit's page. -/
inductive Reg where
  | ident
  | accErr
  | glbReset
  | ctx (c : Nat)
  | hq (q o : Nat)
  | evq (i o : Nat)
  | pwr (o : Nat)
  | wgh (o : Nat)
  | fabId
  | port (n o : Nat)
  | epo (o : Nat)
  | chan (n o : Nat)
  | adder
  | gcmd (p o : Nat)
  | stream (n o : Nat)
  | dock (n : Nat)
  | way (p o : Nat)
  | wayView (o : Nat)
  | xlt (c o : Nat)
  | xltPart (p o : Nat)
  | bar2 (f : Nat)
  | tly (p o : Nat)
  | tlyDump (c o : Nat)
  | tlyView (o : Nat)
  | cfg (o : Nat)
  | sec (o : Nat)
  | dbg (o : Nat)
  | win (n : Nat)
  | clu (c o : Nat)
  | xfer (x o : Nat)
  | eng (e o : Nat)
  /-- a register of an absent cluster (R4) -/
  | absent
  /-- an offset that no block defines (R13) -/
  | none
  deriving DecidableEq, Repr

/-- `r` where the offset is one of those listed, none otherwise. -/
def listed (l : List Nat) (o : Nat) (r : Reg) : Reg := if l.contains o then r else .none

/-- Offsets of a page of queue registers that hold a register (R88, R251, R392). -/
def hqListed (o : Nat) : Bool :=
  decide (o ≤ 0x24) || (decide (0x40 ≤ o) && decide (o ≤ 0x50)) || (decide (0x58 ≤ o) && decide (o ≤ 0x68)) ||
  (decide (0x70 ≤ o) && decide (o ≤ 0x84)) || (decide (0x800 ≤ o) && decide (o < 0x900)) || (decide (0x900 ≤ o) && decide (o ≤ 0x908))

/-- Offsets of the PWR block that hold a register (R421). -/
def pwrListed (o : Nat) : Bool :=
  decide (o ≤ 8) || (decide (0x40 ≤ o) && decide (o < 0x60)) || (decide (0x80 ≤ o) && decide (o < 0xB8)) ||
  [0xC0, 0xC4, 0xD0, 0xD4, 0xE0, 0xE4, 0xE8].contains o || (decide (0x100 ≤ o) && decide (o < 0x130)) ||
  (decide (0x140 ≤ o) && decide (o ≤ 0x150)) || (decide (0x200 ≤ o) && decide (o < 0x240)) || (decide (0x400 ≤ o) && decide (o < 0xC00))

/-- Offsets of the WGH block that hold a register (R428). -/
def wghListed (o : Nat) : Bool :=
  [0, 4, 8, 0x10, 0x80].contains o || (decide (0x40 ≤ o) && decide (o < 0x80)) || (decide (0x100 ≤ o) && decide (o < 0x180)) ||
  (decide (0x200 ≤ o) && decide (o < 0x240)) || (decide (0x8000 ≤ o) && decide (o < 0xF460))

/-- Offsets of the DBG block below the window that hold a register (R482). -/
def dbgListed (o : Nat) : Bool :=
  decide (o ≤ 0x4C) && decide (o ≠ 0x2C) || (decide (0x60 ≤ o) && decide (o < 0x90)) || decide (o = 0xA0)

/-- Registers of a cluster's block (R237, R467) and of its engines' pages (R68, R101, R179, R226). -/
def cluReg (s : State) (c o : Nat) : Reg :=
  if !cluPresent s c then .absent
  else if o < 0x4C then .clu c o
  else if 0x800 ≤ o ∧ o < 0x1000 then (if o % 0x20 = 0x1C then .none else .xfer (64 * c + (o - 0x800) / 0x20) (o % 0x20))
  else if 0x1000 ≤ o ∧ o < 0x11000 then
    let e := 16 * c + o / 0x1000 - 1
    let i := o % 0x1000
    if i = 0x800 ∨ i = 0x804 ∨ i = 0x808 ∨ (0x900 ≤ i ∧ i < 0xA00) then .eng e i else .none
  else .none

/-- The register at an aligned offset (R13). -/
def regAt (s : State) (o : Nat) : Reg :=
  if o = 0 then .ident
  else if o = 8 then .accErr
  else if o = 0x20 then .glbReset
  else if 0x1000 ≤ o ∧ o < 0x1400 then (if o % 16 = 0 then .ctx ((o - 0x1000) / 16) else .none)
  else if 0x100000 ≤ o ∧ o < 0x200000 then (if hqListed (o % 0x1000) then .hq ((o - 0x100000) / 0x1000) (o % 0x1000) else .none)
  else if 0x200000 ≤ o ∧ o < 0x204000 then (if o % 0x100 ≤ 0x1C then .evq ((o - 0x200000) / 0x100) (o % 0x100) else .none)
  else if 0x300000 ≤ o ∧ o < 0x300C00 then (if pwrListed (o - 0x300000) then .pwr (o - 0x300000) else .none)
  else if 0x340000 ≤ o ∧ o < 0x350000 then (if wghListed (o - 0x340000) then .wgh (o - 0x340000) else .none)
  else if o = 0x400000 then .fabId
  else if 0x400100 ≤ o ∧ o < 0x400300 then listed [0, 4, 8, 12] (o % 0x20) (.port ((o - 0x400100) / 0x20) (o % 0x20))
  else if 0x401000 ≤ o ∧ o < 0x401018 then .epo (o - 0x401000)
  else if 0x500000 ≤ o ∧ o < 0x500200 then .chan ((o - 0x500000) / 16) (o % 16)
  else if o = 0x500800 then .adder
  else if 0x501000 ≤ o ∧ o < 0x501200 then listed [0, 4, 8] (o % 0x40) (.gcmd ((o - 0x501000) / 0x40) (o % 0x40))
  else if 0x600000 ≤ o ∧ o < 0x604000 then listed [0, 4, 8] (o % 16) (.stream ((o - 0x600000) / 16) (o % 16))
  else if 0x604000 ≤ o ∧ o < 0x605000 then .dock ((o - 0x604000) / 4)
  else if 0x608000 ≤ o ∧ o < 0x608200 then (if o % 0x40 ≤ 0x30 then .way ((o - 0x608000) / 0x40) (o % 0x40) else .none)
  else if 0x609000 ≤ o ∧ o ≤ 0x609010 then .wayView (o - 0x609000)
  else if 0x700000 ≤ o ∧ o < 0x704000 then (if o % 0x100 ≤ 0x10 then .xlt ((o - 0x700000) / 0x100) (o % 0x100) else .none)
  else if 0x708000 ≤ o ∧ o < 0x708200 then (if o % 0x40 ≤ 0x10 then .xltPart ((o - 0x708000) / 0x40) (o % 0x40) else .none)
  else if 0x709000 ≤ o ∧ o < 0x709100 then .bar2 ((o - 0x709000) / 4)
  else if 0x800000 ≤ o ∧ o < 0x800200 then (if o % 0x40 ≤ 0x10 then .tly ((o - 0x800000) / 0x40) (o % 0x40) else .none)
  else if 0x801000 ≤ o ∧ o < 0x802000 then listed [0, 4, 8] (o % 0x40) (.tlyDump ((o - 0x801000) / 0x40) (o % 0x40))
  else if 0x802000 ≤ o ∧ o ≤ 0x802024 then .tlyView (o - 0x802000)
  else if 0x900000 ≤ o ∧ o ≤ 0x90001C then .cfg (o - 0x900000)
  else if 0xA00000 ≤ o ∧ o < 0xA00400 then
    let i := o - 0xA00000
    if i ≤ 0x10 ∨ (0x100 ≤ i ∧ i < 0x194) ∨ (0x200 ≤ i ∧ i < 0x294) then .sec i else .none
  else if 0xB00000 ≤ o ∧ o < 0xB01000 then (if dbgListed (o - 0xB00000) then .dbg (o - 0xB00000) else .none)
  else if 0xB01000 ≤ o ∧ o < 0xB02000 then .win ((o - 0xB01000) / 4)
  else if 0x1000000 ≤ o ∧ o < 0x1A00000 then cluReg s ((o - 0x1000000) / 0x20000) (o % 0x20000)
  else .none

/-- The bits of a register by their access code (R12); the others are RO, RC or reserved. -/
structure Masks where
  rw : Nat := 0
  rwl : Nat := 0
  wo : Nat := 0
  w1c : Nat := 0
  deriving DecidableEq, Repr

/-- Bases of rings and write-back (R392), by offset in their group of six words. -/
def baseMask (i : Nat) : Nat := if i = 0x10 then 0xFFFFFFC0 else if i % 8 = 0 then 0xFFFFF000 else 0x00FFFFFF

/-- HQ pages (R88, R251, R392). -/
def hqMasks (o : Nat) : Masks :=
  if o ≤ 0x14 then { rw := baseMask o }
  else if o = 0x18 then { rw := 0xFF3FFFFF, rwl := 0x00C00000 }
  else if o = 0x1C then { rwl := 0xFFFFFFE0 }
  else if o = 0x20 then { rwl := 0xFF000000 }
  else if o = 0x24 then { rw := 0x80000000, wo := 0x60000000 }
  else if o = 0x40 ∨ o = 0x44 ∨ o = 0x904 then { rw := 0xFFFF }
  else if o = 0x58 ∨ o = 0x5C then { rw := 0xFFFFFFFF }
  else if 0x70 ≤ o ∧ o ≤ 0x84 then { rw := baseMask (o - 0x70) }
  else if 0x800 ≤ o ∧ o < 0x900 then { rw := 0xFFFFFFFF }
  else if o = 0x900 then { wo := 0xFFFFFFFF }
  else {}

/-- Event queues (R394). -/
def evqMasks (o : Nat) : Masks :=
  if o = 0 then { rw := 0xFFFFF000 } else if o = 4 ∨ o = 0x18 then { rw := 0x00FFFFFF } else if o = 8 then { rw := 0xF8000000 }
  else if o = 0xC then { rw := 0xFFFF } else if o = 0x14 then { rw := 0xFFFFFFC0 } else if o = 0x1C then { w1c := 0x80000000 }
  else {}

/-- PWR (R421). -/
def pwrMasks (o : Nat) : Masks :=
  if o = 4 then { rwl := 0xFFFFFE00 } else if o = 8 then { rwl := 0xFFFE0000 }
  else if 0x40 ≤ o ∧ o < 0x60 then { rwl := 0x9FE00000 } else if o = 0x140 then { rw := 0x3FF } else {}

/-- DBG (R482). -/
def dbgMasks (o : Nat) : Masks :=
  if o = 0xC then { rwl := 0x60000000, wo := 0x80000000 }
  else if o = 0x10 then { rwl := 0x0FC00000, wo := 0x80000000 }
  else if o = 0x14 ∨ o = 0x34 ∨ o = 0x38 then { rwl := 0xFFFFFFFF }
  else if o = 0x18 then { rw := 0xFF, w1c := 0x80000000 }
  else if o = 0x30 then { rwl := 0xFFFFFF80 }
  else if o = 0x3C then { rwl := 7, wo := 0x80000000 }
  else if o = 0x40 then { rw := 0x80007FFF }
  else if o = 0xA0 then { rwl := 0xFFFFFF00 }
  else {}

/-- The writable bits of a register. -/
def regMasks : Reg → Masks
  | .accErr => { w1c := 0x80000000 }
  | .glbReset => { rwl := 0x38E00000, wo := 0x80000000 }
  | .ctx _ => { rwl := 0xFFE00000, wo := 0x6000 }
  | .hq _ o => hqMasks o
  | .evq _ o => evqMasks o
  | .pwr o => pwrMasks o
  | .wgh o => if o = 4 then { wo := 0x80000000 } else if o = 0x10 ∨ o = 0x80 then { rw := 0x7FFFFFFF } else {}
  | .epo o => if o = 0x10 then { rwl := 0xFFFFFC00 } else if o = 0x14 then { rwl := 0xFFFFFFFF } else {}
  | .chan _ o => if o = 8 then { rwl := 0xFFFF } else {}
  | .gcmd _ o => if o = 0 then { rwl := 0x38FFFF00, wo := 0x80000000 } else if o = 4 then { rwl := 0xFFFFFF80 } else { rwl := 0x00FFFFFF }
  | .stream _ o => if o = 8 then { rwl := 0xFFF003FF } else {}
  | .dock _ => { wo := 0xFFFFFFFF }
  | .way _ o =>
    if o = 0x1C then { rwl := 0xFFFFFF80 } else if o = 0x20 ∨ o = 0x28 then { rwl := 0x00FFFFFF }
    else if o = 0x24 then { rwl := 0x03FFFFFF } else {}
  | .wayView o => if o = 0 then { rw := 0x00FFFFFF } else {}
  | .xlt _ o =>
    if o = 0 then { rwl := 0xFFFFF001 } else if o = 4 then { rwl := 0x00FFFFFF } else if o = 8 then { rwl := 0xBFFFFFFF }
    else if o = 0xC then { rwl := 0x3FFFFFFF, wo := 0x80000000 } else { rwl := 0xFFFFFFFF }
  | .xltPart _ o => if o = 0x10 then { rwl := 0xFFFF0000 } else if o % 8 = 0 then { rwl := 0xFFFFFF80 } else { rwl := 0x00FFFFFF }
  | .bar2 _ => { rwl := 0xFFC00000 }
  | .tly _ o =>
    if o = 0 then { rwl := 0x38FFFFFF, wo := 0x80000000 } else if o = 4 then { rwl := 0xFFFFFE00 } else if o = 8 then { rwl := 0x00FFFFFF }
    else { rwl := 0xFFFFFFFF }
  | .tlyDump _ o => if o = 0 then { rwl := 0xFFFFFF80 } else if o = 4 then { rwl := 0x00FFFFFF } else { rwl := 0x000FFFFF }
  | .tlyView o => if o = 0 then { rwl := 0xFF00FFFF } else {}
  | .cfg o =>
    if o = 0xC then { rwl := 0xFFFFFF80 } else if o = 0x10 ∨ o = 0x14 then { rwl := 0xFFFFFFFF }
    else if o = 0x18 then { rwl := 0x7000FFFF, wo := 0x80000000 } else {}
  | .sec o =>
    if o = 4 then { rw := 0xFFFFFF80 } else if o = 8 ∨ o = 0xC then { rw := 0xFFFFFFFF } else if o = 0x10 then { wo := 0x80000000 } else {}
  | .dbg o => dbgMasks o
  | _ => {}

/-! ## Who reaches a register -/

/-- The configuration function (R433): that of the image in force; under the null configuration the physical functions. -/
def isCfgFn (s : State) (f : Nat) : Bool :=
  match s.cfg.image with | none => decide (f % 32 = 0) | some i => decide (i.cfgFn = f)

/-- The function is on the bus: its port is in use and out of reset; under the null configuration and in recovery only
physical functions are exposed (R447, R448). -/
def fnExposed (s : State) (f : Nat) : Bool :=
  !((s.dev.perst[f / 32]?).getD false) &&
  (match s.cfg.image with
   | none => decide (f % 32 = 0)
   | some _ => (portInUse s (f / 32) || s.dev.recovery) && (!s.dev.recovery || decide (f % 32 = 0)))

/-- The functions whose pages a function sees (R376): itself, and for a physical function those of its port and partition. -/
def fnsOf (s : State) (f : Nat) : List Nat :=
  if f % 32 = 0 then
    (match partOfFn s f with | none => [f] | some p => f :: p.functions.filter (fun g => decide (g / 32 = f / 32) && decide (g ≠ f)))
  else [f]

/-- A queue is bound to one of some functions. -/
def queueOf (s : State) (q : Nat) (l : List Nat) : Bool := decide (qAttach s q ≤ 1) && l.contains (qFn s q)

/-- A function owns its own partition. -/
def isOwner (s : State) (f : Nat) : Bool := match partOfFn s f with | some p => decide (p.ownerFn = f) | none => false

/-- A register is visible to a function (R370, R376, R421). A standby function sees the pages of its queues (R402), the
configuration function CFG and GLB_RESET (R438, R495), and the function bound to a stream's port its dock register (R335). -/
def regVisible (s : State) (f : Nat) (r : Reg) : Bool :=
  isOwner s f ||
  (match r with
   | .ident | .accErr | .epo _ => true
   | .hq q _ => queueOf s q (fnsOf s f) || standbyFn s q = some f
   | .evq i _ => (fnsOf s f).contains i
   | .ctx c => (upFrom 0 256).any (fun q => decide (qCtx s q = c) && queueOf s q (fnsOf s f))
   | .pwr o =>
     decide (o = 0) || (decide (0x200 ≤ o) && decide (o < 0x240) && decide (partIdx (partOfFn s f) = (o - 0x200) / 8)) ||
     (decide (0x400 ≤ o) && queueOf s ((o - 0x400) / 8) (fnsOf s f))
   | .cfg _ | .glbReset => isCfgFn s f
   | .dock n => decide ((getStream s n).destKind ≠ 0) && decide (dockFn s n = f)
   | .sec o => s.dev.recovery && decide (o ≤ 0x10)
   | _ => false)

/-- The block answers a register access (R448, R478, R493): before Ready GLB_IDENT and GLB_RESET, or in recovery GLB_IDENT and
the recovery registers; frozen, the debug domain. -/
def served (s : State) (wr : Bool) (r : Reg) : Bool :=
  s.dev.powered &&
  (if s.dev.recovery then (match r with | .ident => true | .sec o => decide (o ≤ 0x10) | _ => false)
   else if !s.dev.ready then (match r with | .ident | .glbReset => true | _ => false)
   else if devFrozen s then (match r with | .dbg _ | .win _ => true | .ident | .epo _ | .wgh _ => !wr | _ => false)
   else true)

/-- A function owns a partition. -/
def ownsOpt (f : Nat) (p : Option Partition) : Bool := match p with | some x => decide (x.ownerFn = f) | none => false

/-- A function may write the RWL fields of a register, given the word it writes (R12): the owner of the partition of the
register's unit; for device-wide registers the owner of every partition; for CFG the configuration function; for a register
that names a master or a context in its own fields, the owner of a partition (R481), or of the context's (R260). -/
def fnMayWrite (s : State) (f : Nat) (r : Reg) (v : Nat) : Bool :=
  match r with
  | .ctx c => ownsOpt f (partOfCtx s c)
  | .hq q _ => decide (qAttach s q ≠ 3) && ownsOpt f (partOfCtx s (qCtx s q))
  | .pwr o => if 0x40 ≤ o ∧ o < 0x60 then ownsPart s f ((o - 0x40) / 4) else ownsAll s f
  | .epo _ => ownsAll s f
  | .chan n _ => ownsOpt f (partWhere s (fun p => p.channels.contains n))
  | .gcmd p _ => ownsPart s f p
  | .stream n _ => ownsOpt f (partOfStream s n)
  | .way p _ => ownsPart s f p
  | .xlt c _ => ownsOpt f (partOfCtx s c)
  | .xltPart p _ => ownsPart s f p
  | .bar2 g => ownsOpt f (partOfFn s g)
  | .tly p _ => ownsPart s f p
  | .tlyDump c _ => ownsOpt f (partOfCtx s c)
  | .tlyView _ => ownsOpt f (partOfCtx s (bitsOf v 31 24)) || ownsAll s f
  | .cfg _ => isCfgFn s f
  | .dbg o => ownsAll s f || ((o = 0x10 || o = 0x14) && isOwner s f)
  | .glbReset => isCfgFn s f || isOwner s f
  | _ => false

/-- A requester may write the RWL fields of a register. -/
def mayWrite (s : State) (r : Requester) (x : Reg) (v : Nat) : Bool :=
  match r with
  | .dragoman => true
  | .fn f => fnMayWrite s f.val x v
  | .fabric _ => false

end Sys2Proof.Machine
end

