-- ==== Sys2Proof/Machine/RegRead.lean ====
section
/-! DEFINITION. Reads of BAR0: the value of every register, what a read clears (RC), and the halves and views that a read
latches (R6, R10, R12, R14, R68, R101, R179, R226, R237, R251, R260, R298, R299, R314, R315, R334, R353, R370, R392 to R394,
R421, R428, R438, R448, R452, R467, R482, R495). -/

namespace Sys2Proof.Machine

/-- A word put together from fields: value and lowest bit. -/
def fields (l : List (Nat × Nat)) : Word := BitVec.ofNat 32 (listSum (l.map (fun x => x.1 * 2 ^ x.2)))

/-- The stored part of a word under a mask. -/
def storedBits (s : State) (o mask : Nat) : Nat := (regWord s o).toNat &&& mask

/-- The latched word at an offset (R370). -/
def latchedWord (s : State) (o : Nat) : Word := tabGet 0 s.host.latched o
/-- Latches words from an offset on. -/
def latchWords (s : State) (o : Nat) (l : List Word) : State :=
  { s with host := { s.host with latched := (l.foldl (fun (a : Tab Word × Nat) w => (tabPut 0 a.1 a.2 w, a.2 + 4)) (s.host.latched, o)).1 } }

/-- The queue is running, stopped, or bound to a frozen context (R392). -/
def qState (s : State) (q : Nat) : Nat :=
  if !qEnabled s q then 0 else if (getQ s q).stopped then 2 else if isFrozen s 1 (qCtx s q) then 3 else 1

/-- State of a context (R393); resets and aborts take one command. -/
def ctxState (s : State) (c : Nat) : Nat :=
  if isFrozen s 1 c then 2 else if (ctxQueues s c).any (fun q => !(getQ s q).journal.isEmpty) then 1 else 0

/-- HQ pages (R88, R251, R392). -/
def hqValue (s : State) (q o : Nat) : Word :=
  let x := getQ s q
  if o = 0x48 then fields [(x.consumed.toNat, 0)]
  else if o = 0x4C then fields [(b2n x.phase, 16), (x.cqTail.toNat, 0)]
  else if o = 0x50 then fields [(qState s q, 29), (min 1024 x.journal.length, 16), (min 0xFFFF x.waiting.length, 0)]
  else if o = 0x68 then x.dups
  else if o = 0x908 then (match getTally s (qCtx s q) (regField s (hqOff q + 0x904) 15 0) with | some t => t.value | none => 0)
  else BitVec.ofNat 32 (storedBits s (hqOff q + o) ((hqMasks o).rw ||| (hqMasks o).rwl))

/-- Event queues (R394). -/
def evqValue (s : State) (i o : Nat) : Word :=
  let v := tabGet ({} : Evq) s.host.evqs i
  if o = 0x10 then fields [(v.tail.toNat, 0)]
  else if o = 0x1C then fields [(b2n v.overflow, 31), (v.lost.toNat, 0)]
  else BitVec.ofNat 32 (storedBits s (evqOff i + o) (evqMasks o).rw)

/-- The 16 bytes of a trim-log entry (R421). -/
def trimBytes (s : State) : List Byte :=
  match s.power.trimLog[regField s 0x300140 9 0]? with
  | none => zeros 16
  | some t => leBytes 8 t.stage.toNat ++ [t.die, t.old, t.new, t.slack] ++ zeros 4

/-- PWR (R421). -/
def pwrValue (s : State) (o : Nat) : Word :=
  let w := s.power
  if o = 0 then fields [(w.devCode.toNat, 25), (dieStep s 0, 18), (dieStep s 1, 11),
    (listSum ((upFrom 1 7).map (fun r => b2n (decide (activeDies s r ≠ 0)) * 2 ^ (r - 1))), 4),
    (b2n w.fixedEn, 3), (w.cal.toNat, 1), (b2n (decide (w.hold ≠ 0)), 0)]
  else if 0x40 ≤ o ∧ o < 0x60 then
    let l := getLock s ((o - 0x40) / 4)
    fields [(storedBits s (0x300000 + o) 0x9FE00000, 0), (l.state.toNat, 29), (l.agreed.toNat, 14), (l.failed.toNat, 0)]
  else if o = 0xC0 then fields [(w.measW.toNat, 16), (w.estW.toNat, 0)]
  else if o = 0xC4 then w.k
  else if o = 0xD0 ∨ o = 0xD4 then
    let d := getDie s ((o - 0xD0) / 4)
    fields [(d.guardMv.toNat, 24), (d.floorMv.toNat, 16), (d.trims.toNat, 0)]
  else if o = 0xE0 ∨ o = 0xE4 then fields [((getDie s ((o - 0xE0) / 4)).tmax.toNat, 16)]
  else if o = 0xE8 then fields [(w.ioTemp.toNat, 16)]
  else if 0x100 ≤ o ∧ o < 0x130 then fields [(((w.hbmTemp[(o - 0x100) / 4]?).getD 0).toNat, 16)]
  else BitVec.ofNat 32 (storedBits s (0x300000 + o) ((pwrMasks o).rw ||| (pwrMasks o).rwl))

/-- The selected weighhouse record (R428). -/
def weighRecord (s : State) : Option (List Byte) :=
  s.weigh.records.find? (fun r => fieldAt r 24 4 = regField s 0x340010 30 0)
/-- The selected checkpoint, where it is retained and signed. -/
def weighCkpt (s : State) : Option Checkpoint :=
  s.weigh.ckpts.find? (fun c => c.signed && fieldAt c.bytes 4 4 = regField s 0x340080 30 0)

/-- The view of the weighhouse (R428). -/
def wghValue (s : State) (o : Nat) : Word :=
  let w := s.weigh
  if !w.powered then 0
  else if o = 0 then fields [(w.state.toNat, 30), (w.sealNo.toNat, 24), (b2n w.req, 23)]
  else if o = 8 then BitVec.ofNat 32 (w.index - 1)
  else if o = 0x10 then fields [(b2n (weighRecord s).isSome, 31), (regField s 0x340010 30 0, 0)]
  else if o = 0x80 then fields [(b2n (weighCkpt s).isSome, 31), (regField s 0x340080 30 0, 0)]
  else if 0x100 ≤ o ∧ o < 0x180 then (match weighCkpt s with | none => 0 | some c => BitVec.ofNat 32 (fieldAt c.bytes (o - 0x100) 4))
  else if 0x200 ≤ o ∧ o < 0x240 then BitVec.ofNat 32 (fieldAt weighKey (o - 0x200) 4)
  else if 0x8000 ≤ o then
    (match weighCkpt s with
     | none => 0
     | some c => BitVec.ofNat 32 (leNat ((upFrom (o - 0x8000) 4).map (signatureByte c))))
  else 0

/-- FAB_ID (R353). -/
def fabIdValue (s : State) : Word :=
  let pin := match s.cfg.image with | some i => i.fidPin.toNat | none => 0
  fields [(b2n s.fab.fidValid, 31), (b2n (bitOf pin 15), 30), (if !s.fab.fidValid && bitOf pin 15 then pin % 2 ^ 14 else s.fab.fid.toNat, 0)]

/-- The registers of a port (R353). -/
def portValue (s : State) (n o : Nat) : Word :=
  let p := getPort s n
  if o = 0 then fields [(p.state.toNat, 29), (p.width.toNat, 25), (partIdx (partWhere s (fun x => x.ports.contains n)) % 255, 22),
    (b2n (decide (s.fab.epoch.source.toNat = n)), 21), (p.tries.toNat, 16), (p.peer.toNat, 0)]
  else if o = 4 then fields [(p.good.toNat, 24), (p.inUse.toNat, 16), (p.delayNs.toNat, 0)]
  else if o = 8 then p.corrected
  else fields [(p.replays.toNat, 16), (p.uncorrected.toNat, 0)]

/-- The epoch (R370). -/
def epoValue (s : State) (o : Nat) : Word :=
  let e := s.fab.epoch
  if o = 0 then fields [(e.state.toNat, 29), (e.source.toNat, 24), (min 15 s.fab.snaps.length, 20), (e.silent.toNat, 0)]
  else if o = 0xC then e.offsetNs
  else if o = 0x10 then fields [(e.pulseNext.toNat % 2 ^ 32 / 1024, 10)]
  else BitVec.ofNat 32 (e.pulseNext.toNat / 2 ^ 32)

/-- State of a convoy channel (R298): it awaits other members once all it sends has been acknowledged. -/
def chanState (s : State) (n : Nat) : Nat :=
  if isFrozen s 4 n then 4
  else match holder s n with
    | none => 0
    | some (o, p, g) => if !allOpen g o p then 1 else if (outUnits g o p).all (unitAcked g p) then 3 else 2

/-- The registers of a convoy channel (R298). -/
def chanValue (s : State) (n o : Nat) : Word :=
  let c := getConv s n
  if o = 0 then
    let h := c.ops.head?
    fields [(chanState s n, 29), (min 31 (c.ops.length - 1), 24), (match h with | some x => x.group | none => 0, 16),
      (match h with | some x => x.cop | none => 0, 12), (partIdx (partWhere s (fun p => p.channels.contains n)) % 255, 9)]
  else if o = 4 then (match c.ops.head? with | some x => x.seq | none => 0)
  else if o = 8 then BitVec.ofNat 32 (storedBits s (0x500000 + 16 * n + 8) 0xFFFF)
  else c.lastStage

/-- CNV_ADDER_STATUS (R299). -/
def adderValue (s : State) : Word :=
  let bits := fun (f : Bank → Bool) => listSum ((upFrom 0 9).map (fun b => b2n (f (getBank s b)) * 2 ^ b))
  fields [(bits (·.serving), 17), (bits (·.retired), 8), (s.conv.residueFails.toNat, 0)]

/-- A stream as it shows itself (R334). -/
def streamValue (s : State) (n o : Nat) : Word :=
  let x := getStream s n
  if o = 0 then fields [(if isFrozen s 5 n then 3 else x.state.toNat, 29),
    (min 255 (x.flights.filter (fun f => f.index < 2 ^ 24)).length, 16), (x.destKind.toNat, 14), (x.destFid.toNat, 0)]
  else if o = 4 then x.acked
  else BitVec.ofNat 32 (storedBits s (0x600000 + 16 * n + 8) 0xFFF003FF)

/-- The page of a partition's pool (R314). -/
def wayValue (s : State) (p o : Nat) : Word :=
  match getPart s p with
  | none => BitVec.ofNat 32 (storedBits s (wayOff p + o) (regMasks (.way p o)).rwl)
  | some x =>
    let base := partAddr x x.frameBase
    if o = 0 then fields [(x.poolFirst, 0)]
    else if o = 4 then fields [(x.poolCount, 0)]
    else if o = 8 then fields [(base % 2 ^ 32 / 128, 7)]
    else if o = 0xC then fields [(base / 2 ^ 32, 0)]
    else if o = 0x10 then fields [(x.frameUnits, 0)]
    else if o = 0x14 then fields [(x.frames, 0)]
    else if o = 0x18 then fields [(framesFree s x, 0)]
    else if o = 0x2C then fields [((swapUsedList s p).length, 0)]
    else if o = 0x30 then fields [((s.kv.sequences.filter (fun y => y.2.part = p)).length, 16), (x.seqShare, 0)]
    else BitVec.ofNat 32 (storedBits s (wayOff p + o) (regMasks (.way p o)).rwl)

/-- CFG (R438). -/
def cfgValue (s : State) (o : Nat) : Word :=
  let c := s.cfg
  if o = 0 then fields [(c.cstate.toNat, 29), (b2n c.nullConfig, 28), (c.lastError.toNat, 24)]
  else if o = 0x1C then
    let st := fun (p : Nat) =>
      match c.image with
      | none => 0
      | some i =>
        if !(i.parts.any (fun x => x.part = p)) then 0
        else if c.notStarted.contains p then 4
        else if (match c.apply with | some a => a.changed.contains p | none => false) then 2
        else 1
    fields ((upFrom 0 8).map (fun p => (st p, 4 * p)))
  else BitVec.ofNat 32 (storedBits s (0x900000 + o) (regMasks (.cfg o)).rwl)

/-- SEC (R448, R452). -/
def secValue (s : State) (o : Nat) : Word :=
  if o = 0 then fields [(s.sec.rstate.toNat, 29)]
  else if 0x200 ≤ o then (s.sec.flashVers[(o - 0x200) / 4]?).getD 0
  else if 0x100 ≤ o then (s.sec.running[(o - 0x100) / 4]?).getD 0
  else BitVec.ofNat 32 (storedBits s (0xA00000 + o) (regMasks (.sec o)).rw)

/-- Frozen masters that the device lists. -/
def listedFrozen (s : State) : List Frozen := s.frozen.filter (·.listed)

/-- The value of the counter that DBG_CNT_SEL names. -/
def selectedCtr (s : State) : Nat :=
  match (catalogue s none)[regField s 0xB00040 14 0]? with
  | none => 0
  | some k => if regField s 0xB00040 31 31 = 1 then shadowCtr s k else liveCtr s k

/-- DBG below the window (R482). -/
def dbgValue (s : State) (o : Nat) : Word :=
  let d := s.dev
  if o = 0 then fields [(d.fstate.toNat, 30), (d.fcause.toNat, 27)]
  else if o = 0x10 then fields [(storedBits s 0xB00010 0x0FC00000, 0), (d.relStatus.toNat, 28)]
  else if o = 0x18 then fields [(b2n d.frozenOverflow, 31), (min 256 (listedFrozen s).length, 8), (regField s 0xB00018 7 0, 0)]
  else if o = 0x3C then fields [(storedBits s 0xB0003C 7, 0), (d.dstate.toNat, 28)]
  else if o = 0x4C then d.stale
  else if 0x60 ≤ o ∧ o < 0x90 then
    let k := (o - 0x60) / 4
    fields [((getStack s k).retired.length, 24), ((52 - takenGib s k) * 1024, 0)]
  else BitVec.ofNat 32 (storedBits s (0xB00000 + o) ((dbgMasks o).rw ||| (dbgMasks o).rwl))

/-- The bytes of a drover that the window shows (R482). -/
def droverBytes (x : Drover) : List Byte :=
  ((upFrom 0 32).map (fun i => leBytes 4 (if i = 0 then 0 else (tabGet 0 x.x i).toNat))).flatten ++
  ((upFrom 0 16).map (fun i => leBytes 32 (tabGet 0 x.v i).toNat)).flatten ++ leBytes 4 x.pc.toNat ++ leBytes 4 x.fflags.toNat

/-- The debug window (R482): the selected accumulator tile, or the selected drover while its group or the device is frozen. -/
def winValue (s : State) (n : Nat) : Word :=
  let e := regField s 0xB000A0 29 19
  if regField s 0xB000A0 31 30 = 0 then
    let a := (32 * e + regField s 0xB000A0 12 8) * 4096 + 4 * n
    BitVec.ofNat 32 (leNat ((upFrom a 4).map (tabGet 0 s.comp.acc)))
  else
    let d := 64 * e + regField s 0xB000A0 18 13
    if regField s 0xB000A0 31 30 = 1 && (devFrozen s || isFrozen s 2 (grpOf d)) then BitVec.ofNat 32 (fieldAt (droverBytes (getDrv s d)) (4 * n) 4)
    else 0

/-- Slots of a cluster (R467). -/
def cluValue (s : State) (c o : Nat) : Word :=
  let x := getClu s c
  if o = 0 then fields [(x.retired.toNat, 15), (x.spare.toNat, 10), (match x.parked with | some n => n.val | none => 0, 6),
    (b2n x.parked.isSome, 5), (x.cstate.toNat, 2)]
  else if o = 0x48 then fields [(x.gen.toNat, 16)]
  else fields [((genOf s c ((o - 4) / 4)).toNat, 16)]

/-- A transfer channel (R237). -/
def xferValue (s : State) (x o : Nat) : Word :=
  match getChan s x with
  | none => 0
  | some c =>
    let f := xferOf c.bytes (ownerLaunch c.owner)
    if o = 0 then fields [(c.state.toNat, 30), (if f.toRing then f.ring else 0, 26), (b2n f.toRing, 25), (c.cause.toNat, 16), (c.ctx, 8)]
    else if o = 0x18 then c.tag
    else BitVec.ofNat 32 (nth0 c.cursor ((o - 4) / 4))

/-- A software consumer holds a slot (R226): more slots have been filled than released. -/
def ringReading (s : State) (r : Ring) : Bool :=
  r.sw && (match getTally s r.ctx r.fillTally.toNat, getTally s r.ctx r.freeTally.toNat with
    | some a, some b => decide (b.value.toNat < a.value.toNat)
    | _, _ => false)

/-- A ring (R226). -/
def ringValue (s : State) (e o : Nat) : Word :=
  let r := getRing s e ((o - 0x900) / 16)
  let i := o % 16
  if i = 0 then fields [(r.mem.toNat, 30), (b2n r.sw, 29), (r.slots, 24), (r.scope.toNat, 21), (r.slotBytes / 128, 0)]
  else if i = 4 then fields [(r.base / 128, 0)]
  else if i = 8 then fields [(r.head.toNat, 24), (r.tail.toNat, 16),
    (((r.states[(r.filled + b2n (decide (r.head.toNat ≠ r.filled % 256)) + r.slots - 1) % max 1 r.slots]?).getD 0).toNat, 14),
    (r.mark.toNat, 2), (b2n (ringReading s r), 1)]
  else fields [(r.freeTally.toNat, 16), (r.fillTally.toNat, 0)]

/-- The page of an engine (R68, R101, R179, R226). -/
def engValue (s : State) (e o : Nat) : Word :=
  let g := getEng s e
  if o = 0x800 then fields [(min 15 (recentQuarantines g.quarantines), 24), (g.activeRows.toNat, 16), (g.mismatches.toNat, 8),
    (b2n g.retired, 3), (b2n g.quarantined, 2), (g.array.toNat, 0)]
  else if o = 0x804 then fields [(accShare s e, 26), (macroKib s e, 16), (g.form.toNat, 13), (b2n g.grouped, 12)]
  else if o = 0x808 then
    let bits := fun (f : Nat → Bool) => listSum ((upFrom 0 4).map (fun i => b2n (f i) * 2 ^ i))
    fields [(bits (fun n => match g.slots[n]? with | some x => decide (x.state ≠ 0) | none => false), 20),
      (bits (fun n => isFrozen s 2 (4 * e + n)), 16), (bits (fun n => (getGrp s (4 * e + n)).queue.isSome), 12), (512 - macroKib s e, 0)]
  else ringValue s e o

/-- GLB_CTX_n (R393). -/
def ctxValue (s : State) (c : Nat) : Word :=
  fields [(storedBits s (ctxOff c) 0xFFE00000, 0), (partIdx (partOfCtx s c) % 255, 18), (ctxState s c, 15)]

/-- GLB_RESET (R495). -/
def glbValue (s : State) : Word :=
  fields [(storedBits s 0x20 0x38E00000, 0), (b2n s.dev.partReset.isSome, 30), (s.dev.resetStatus.toNat, 24), (s.dev.lastDev.toNat, 18)]

/-! ## Latched halves and views -/

/-- The 64-bit value whose low half a register holds; reading it latches the high half (R370, R392, R421, R438, R482). -/
def pairValue (s : State) : Reg → Option Nat
  | .hq q o => if o = 0x58 then some (getQ s q).accSeq.toNat else if o = 0x60 then some (getQ s q).doneSeq.toNat else none
  | .epo o => if o = 4 then some s.stage.toNat else none
  | .pwr o =>
    if 0x80 ≤ o ∧ o < 0xB8 ∧ o % 8 = 0 then some (getReason s ((o - 0x80) / 8 + 1)).stages.toNat
    else if 0x200 ≤ o ∧ o < 0x240 ∧ o % 8 = 0 then some (tabGet 0 s.power.partEnergy ((o - 0x200) / 8))
    else if 0x400 ≤ o ∧ o % 8 = 0 then some (getQ s ((o - 0x400) / 8)).energy
    else none
  | .cfg o => if o = 4 then some (match s.cfg.image with | some i => i.serial.toNat | none => 0) else none
  | .dbg o => if o = 4 then some s.dev.fstage.toNat else if o = 0x44 then some (selectedCtr s) else none
  | _ => none

/-- A register that holds a latched high half. -/
def isHigh : Reg → Bool
  | .hq _ o => o = 0x5C || o = 0x64
  | .epo o => o = 8
  | .pwr o => (decide (0x80 ≤ o) && decide (o < 0xB8) && decide (o % 8 = 4)) || (decide (0x200 ≤ o) && decide (o % 8 = 4))
  | .cfg o => o = 8
  | .dbg o => o = 8 || o = 0x48
  | _ => false

/-- A requester may see what concerns a partition in the DBG block (R481). -/
def seesPart (s : State) (r : Requester) (p : Option Partition) : Bool :=
  match r with
  | .dragoman => true
  | .fn f => ownsAll s f || ownsOpt f.val p
  | .fabric _ => false

/-- The record of the selected frozen master (R482). -/
def frozenBytes (s : State) (r : Requester) : List Byte :=
  match (listedFrozen s)[regField s 0xB00018 7 0]? with
  | none => zeros 16
  | some f =>
    if seesPart s r (getPart s f.part.toNat) then
      leBytes 1 f.kind.toNat ++ [f.part] ++ leBytes 2 f.code.toNat ++ leBytes 4 f.index.toNat ++ leBytes 8 f.stage.toNat
    else zeros 16

/-- The selected waybill entry, where it lies in a pool of the requester's partition (R315). -/
def wayBytes (s : State) (r : Requester) : List Byte :=
  let i := regField s 0x609000 23 0
  let inPool := fun (p : Partition) => decide (p.poolFirst ≤ i) && decide (i < p.poolFirst + p.poolCount)
  let ok := match r with
    | .dragoman => (parts s).any inPool
    | .fn f => (match partOfFn s f with | some p => inPool p | none => false)
    | .fabric _ => false
  if ok then leBytes 16 (tabGet 0 s.kv.waybill i).toNat else zeros 16

/-- The selected tally's record (R260). -/
def viewBytes (s : State) : List Byte :=
  let c := regField s 0x802000 31 24
  let v := regField s 0x802000 15 0
  match getTally s c v with | some t => tallyRecord c v t | none => zeros 32

/-- The bytes of a view whose first word a register is: reading it latches the others (R260, R315, R421, R428, R482). -/
def viewOf (s : State) (r : Requester) : Reg → Option (List Byte)
  | .tlyView o => if o = 4 then some (viewBytes s) else none
  | .wayView o => if o = 4 then some (wayBytes s r) else none
  | .dbg o => if o = 0x1C then some (frozenBytes s r) else none
  | .wgh o => if o = 0x40 then some (if s.weigh.powered then (weighRecord s).getD (zeros 64) else zeros 64) else none
  | .pwr o => if o = 0x144 then some (trimBytes s) else none
  | _ => none

/-- A register that holds a latched word of a view. -/
def isView : Reg → Bool
  | .tlyView o => decide (8 ≤ o) && decide (o ≤ 0x20)
  | .wayView o => decide (8 ≤ o)
  | .dbg o => decide (0x20 ≤ o) && decide (o ≤ 0x28)
  | .wgh o => decide (0x44 ≤ o) && decide (o < 0x80)
  | .pwr o => decide (0x148 ≤ o) && decide (o ≤ 0x150)
  | _ => false

/-- The access-error flag of a function (R14). -/
def accErrValue (s : State) (r : Requester) : Word :=
  match r with
  | .fn f => let a := tabGet ({} : AccErr) s.host.accErr f; fields [(b2n a.flag, 31), (a.cause.toNat, 27), (a.offset.toNat, 0)]
  | _ => 0

/-- The value of every other register. -/
def plainValue (s : State) (r : Requester) : Reg → Word
  | .ident => fields [(0x5C12, 16), (s.ident.toNat, 0)]
  | .accErr => accErrValue s r
  | .glbReset => glbValue s
  | .ctx c => ctxValue s c
  | .hq q o => hqValue s q o
  | .evq i o => evqValue s i o
  | .pwr o => pwrValue s o
  | .wgh o => wghValue s o
  | .fabId => fabIdValue s
  | .port n o => portValue s n o
  | .epo o => epoValue s o
  | .chan n o => chanValue s n o
  | .adder => adderValue s
  | .gcmd p o => BitVec.ofNat 32 (storedBits s (cnvOff p + o) ((regMasks (.gcmd p o)).rwl ||| (if o = 0 then 0x07000000 else 0)))
  | .stream n o =>
    if (match r with | .dragoman => true | .fn f => decide (partIdx (partOfStream s n) = partIdx (partOfFn s f)) | .fabric _ => false) then
      streamValue s n o
    else 0
  | .way p o => wayValue s p o
  | .wayView _ => fields [(regField s 0x609000 23 0, 0)]
  | .xlt c o =>
    let w := storedBits s (xltOff c + o) (regMasks (.xlt c o)).rwl
    if o = 0xC then fields [(w, 0), (b2n (s.mem.invals.any (fun i => i.ctx = c)), 30)] else BitVec.ofNat 32 w
  | .xltPart p o => BitVec.ofNat 32 (storedBits s (xltPartOff p + o) (regMasks (.xltPart p o)).rwl)
  | .bar2 f => fields [(storedBits s (0x709000 + 4 * f) 0xFFC00000, 0), (0x1E, 16)]
  | .tly p o =>
    let w := storedBits s (tlyOff p + o) (regMasks (.tly p o)).rwl
    if o = 0 then fields [(w, 0), (b2n (tlyBusy s p), 30), (regField s (tlyOff p) 26 24, 24)] else BitVec.ofNat 32 w
  | .tlyDump c o => BitVec.ofNat 32 (storedBits s (0x801000 + 0x40 * c + o) (regMasks (.tlyDump c o)).rwl)
  | .tlyView o =>
    if o = 0 then BitVec.ofNat 32 (storedBits s 0x802000 0xFF00FFFF)
    else fields [(min 0xFFFF (waitersOf s (regField s 0x802000 31 24) (regField s 0x802000 15 0)).length, 0)]
  | .cfg o => cfgValue s o
  | .sec o => secValue s o
  | .dbg o => dbgValue s o
  | .win n => if seesPart s r (partOfClu s (regField s 0xB000A0 29 19 / 16)) then winValue s n else 0
  | .clu c o => cluValue s c o
  | .xfer x o => xferValue s x o
  | .eng e o => engValue s e o
  | .dock _ | .absent | .none => 0

/-- The value that a read of a register returns. -/
def regValue (s : State) (r : Requester) (o : Nat) (x : Reg) : Word :=
  if isHigh x || isView x then latchedWord s o
  else match pairValue s x with
    | some v => BitVec.ofNat 32 v
    | none => match viewOf s r x with
      | some b => BitVec.ofNat 32 (fieldAt b 0 4)
      | none => plainValue s r x

/-- What a read latches: the high half, or the other words of a view. -/
def latchRead (s : State) (r : Requester) (o : Nat) (x : Reg) : State :=
  match pairValue s x with
  | some v => latchWords s (o + 4) [BitVec.ofNat 32 (v / 2 ^ 32)]
  | none => match viewOf s r x with
    | some b => latchWords s (o + 4) (words32 (b.drop 4))
    | none => s

/-- What a read clears (RC, R12). -/
def clearRead (s : State) (x : Reg) : State :=
  match x with
  | .eng e o => if o = 0x800 then modEng s e (fun g => { g with mismatches := 0 }) else s
  | .adder => { s with conv := { s.conv with residueFails := 0 } }
  | .port n o =>
    if o = 8 then modPort s n (fun p => { p with corrected := 0 })
    else if o = 12 then modPort s n (fun p => { p with replays := 0, uncorrected := 0 })
    else s
  | .hq q o => if o = 0x68 then modQ s q (fun u => { u with dups := 0 }) else s
  | .evq i o => if o = 0x1C then { s with host := { s.host with evqs := tabMod {} s.host.evqs i (fun v => { v with lost := 0 }) } } else s
  | .pwr o => if 0x40 ≤ o ∧ o < 0x60 then modLock s ((o - 0x40) / 4) (fun l => { l with failed := 0 }) else s
  | .dbg o => if o = 0x4C then modDev s (fun d => { d with stale := 0 }) else s
  | _ => s

/-! ## The access -/

/-- An access by a function is refused or discarded: its flag records the first cause (R14). -/
def refuseAcc (s : State) (r : Requester) (cause o : Nat) : State :=
  match r with
  | .fn f =>
    { s with host := { s.host with accErr := tabMod {} s.host.accErr f (fun a =>
      if a.flag then a else ⟨true, BitVec.ofNat 4 cause, BitVec.ofNat 26 o⟩) } }
  | _ => s

/-- The requester sees the register. -/
def sees (s : State) (r : Requester) (x : Reg) : Bool :=
  match r with
  | .dragoman => true
  | .fn f => regVisible s f.val x
  | .fabric _ => false

/-- The requester is on the bus. -/
def onBus (s : State) (r : Requester) : Bool := match r with | .fn f => fnExposed s f.val | _ => true

/-- A read of n bytes at a BAR0 offset (R10, R12, R376, R478): the value and what the read does. -/
def regRead (s : State) (r : Requester) (o n : Nat) : Word × State :=
  if !onBus s r then (0, s)
  else if n ≠ 4 ∨ o % 4 ≠ 0 then (0, refuseAcc s r 1 o)
  else
    let x := regAt s o
    if served s false x && sees s r x then (regValue s r o x, clearRead (latchRead s r o x) x) else (0, s)

/-- The read as a command: its value is what the requester receives. -/
def readCommand (s : State) (r : Requester) (o n : Nat) : State :=
  let a := regRead s r o n
  { a.2 with host := { a.2.host with readData := a.1 } }

end Sys2Proof.Machine
end

