-- ==== Sys2Proof/Machine/ChanOps.lean ====
section
/-! DEFINITION. Transfer channels and the rings they fill (R220, R227, R229, R232 to R234): starting and completing slots,
stopping at the cursor and resuming, and the end of a manifest (R222). -/

namespace Sys2Proof.Machine

/-- Changes a channel that runs a manifest. -/
def modChan (s : State) (x : Nat) (f : Chan → Chan) : State := setChan s x ((getChan s x).map f)

/-- The engine and ring that a channel fills. -/
def chanRing (c : Chan) : Option (Nat × Nat) := xferRing c.bytes (ownerLaunch c.owner)

/-- Sets the state of the slot that the next fill of a ring takes. -/
def setSlotState (s : State) (e n : Nat) (v : BitVec 2) : State :=
  modRing s e n (fun r => { r with states := listSet r.states (r.filled % max 1 r.slots) v })

/-- Number, within its manifest, of the slot that a channel fills or is to start. -/
def slotNo (s : State) (c : Chan) (e n : Nat) : Nat := (getRing s e n).filled - c.startFilled

/-- The channel's operation on a tally of its ring (R229): a fill signal, or the wait on `free_tally` before a slot. -/
def ringOp (s : State) (x : Nat) (c : Chan) (e n k : Nat) (fill : Bool) : TallyOp :=
  let r := getRing s e n
  { code := if fill then 12 else 16, ctx := r.ctx, vid := if fill then r.fillTally.toNat else r.freeTally.toNat, scope := r.scope.toNat
    amount := BitVec.ofNat 32 (if fill then 1 else r.filled + 1 - r.slots), issuer := .chan x, tag := c.tag
    ord := 2 * k + b2n (!fill), node := none, dest := 0 }

/-- A slot may be started: it is EMPTY and the one before it is FULL (R227). -/
def slotFree (r : Ring) : Bool :=
  decide (r.head.toNat = r.filled % 256) && decide (((r.states[r.filled % max 1 r.slots]?).getD 0) = 0)

/-- Starts the next slot: FILLING, nothing delivered in it. -/
def startSlot (s : State) (x e n : Nat) : State :=
  if slotFree (getRing s e n) then
    modChan (modRing (setSlotState s e n 1) e n (fun r => { r with head := r.head + 1, mark := 0 })) x
      (fun c => { c with inSlot := true, waiting := 0 })
  else s

/-- The channel is to start a slot: at once while the ring has slots never filled, otherwise after its wait on `free_tally`. -/
def nextSlot (s : State) (x : Nat) (c : Chan) (e n : Nat) : State :=
  let r := getRing s e n
  if r.filled < r.slots ∨ c.waiting = 2 then startSlot s x e n
  else if c.waiting = 0 then
    sendOp (modChan s x (fun y => { y with waiting := 1 })) (ringOp s x c e n (slotNo s c e n) false)
  else s

/-- The slot is complete (R220): FULL, and `fill_tally` is signalled. -/
def fillSlot (s : State) (x e n : Nat) : State :=
  match getChan s x with
  | none => s
  | some c =>
    let o := ringOp s x c e n (slotNo s c e n) true
    let s1 := modRing (setSlotState s e n 3) e n (fun r => { r with filled := r.filled + 1 })
    sendOp (modChan s1 x (fun y => { y with inSlot := false, signals := y.signals + 1 })) o

/-- Delivery stops at the cursor: the slot enters PARTIAL (R232, R233). -/
def stopChan (s : State) (x : Nat) (state : BitVec 2) (cause : BitVec 4) : State :=
  match getChan s x with
  | none => s
  | some c =>
    let s1 := modChan s x (fun y => { y with state := state, cause := cause })
    match chanRing c with
    | some (e, n) => if c.inSlot then setSlotState s1 e n 2 else s1
    | none => s1

/-- Delivery goes on: the slot returns to FILLING. -/
def runChan (s : State) (x : Nat) : State :=
  match getChan s x with
  | none => s
  | some c =>
    let s1 := modChan s x (fun y => { y with state := 1, cause := 0, req := none })
    match chanRing c with
    | some (e, n) => if c.inSlot then setSlotState s1 e n 1 else s1
    | none => s1

/-- Issues a page request (R232). -/
def requestPage (s : State) (x role port iova : Nat) : State :=
  let s1 := modChan (stopChan s x 2 1) x (fun c => { c with req := some ⟨role, port, iova, 0, s.stage⟩ })
  addCtr (addCtr (emit s1 (.pageRequest port iova)) 4 (x / 64) 3 1) 7 port 2 1

/-- The operations of a channel that are on their way or wait. -/
def chanOps (s : State) (x : Nat) : List TallyOp :=
  (s.sync.flight.filter (fun o => o.issuer = .chan x)) ++ ((s.sync.waiters.map (·.op)).filter (fun o => o.issuer = .chan x))

/-- The faulting ring signal, or the wait, of a channel is tried again (R474): fill signals neither applied nor on their way,
and a wait that is not made. -/
def retryOps (s : State) (x : Nat) : State :=
  match getChan s x with
  | none => s
  | some c => match chanRing c with
    | none => s
    | some (e, n) =>
      let ops := chanOps s x
      let s1 := if c.waiting = 1 && !(ops.any (fun o => o.code = 16)) then modChan s x (fun y => { y with waiting := 0 }) else s
      let lost := (upFrom 0 (slotNo s c e n)).filter (fun k =>
        (opDone s (.chan x) (2 * k)).isNone && !(ops.any (fun o => decide (o.code = 12) && decide (o.ord = 2 * k))))
      lost.foldl (fun t k => sendOp t (ringOp s x c e n k true)) s1

/-- A channel goes on when its frozen master is released (R233, R234): a failed page request is made again. -/
def resumeChan (s : State) (x : Nat) : State :=
  match getChan s x with
  | none => s
  | some c =>
    if c.state ≠ 3 then s
    else match c.cause, c.req with
      | 2, some r => requestPage s x r.role r.port r.iova
      | _, _ => runChan s x

/-- The manifest has ended and everything it sent has been performed: its channel is free, its packet's transfer is done, and the
next TRANSFER takes a channel (R213, R222). -/
def endXfer (s : State) (x : Nat) : State :=
  match getChan s x with
  | none => s
  | some c =>
    if cursorEnd (xferOf c.bytes (ownerLaunch c.owner)) c.cursor && !c.inSlot && c.signals = 0 &&
        !s.fab.sent.any (fun m => m.who = some (.chan x)) then
      let s1 := setChan s x none
      let s2 := match c.owner with
        | .slot e n => finishSlot s1 e n
        | o => setXferWork s1 o none true
      serveXfers s2 (x / 64)
    else s

end Sys2Proof.Machine
end

