-- ==== Sys2Proof/Machine/Release.lean ====
section
/-! DEFINITION. Releasing frozen masters (R474, R475), and the armed freeze (R477). -/

namespace Sys2Proof.Machine

/-- A packet whose tally operation, dump or snapshot was refused is executed again: a tally packet that has no operation on its
way issues again, and a dump or snapshot that is past its stage is written. -/
def retryPacket (s : State) (q : Nat) : State :=
  let mine := fun (i : Issuer) => decide (i = .queue q)
  match (getQ s q).run with
  | none => s
  | some r => match r.work with
    | .tally false =>
      if s.sync.flight.any (fun o => mine o.issuer) || s.sync.waiters.any (fun w => mine w.op.issuer) ||
          s.fab.sent.any (fun m => decide (m.kind = 5) && (match m.who with | some i => mine i | none => false)) then s
      else unissue s q
    | .dump n false => if n.toNat ≤ s.stage.toNat then unissue s q else s
    | .snap n false => if s.fab.snaps.any (fun x => x.queue = q) then s else snapWrite s (passedOver s n) ⟨n, q⟩
    | _ => s

/-- Channels that work for a context. -/
def ctxChans (s : State) (ctx : Nat) : List Nat := (s.comp.chans.filter (fun x => x.2.ctx = ctx)).map (·.1)

/-- A context is released: its packets issue again with every check, its channels resume, and accesses a remote device refused
are sent again (R193, R233, R234). -/
def resumeCtx (s : State) (ctx : Nat) : State :=
  let s1 := (ctxQueues s ctx).foldl retryPacket (unfreeze s 1 ctx)
  let s2 := (ctxChans s1 ctx).foldl resumeChan s1
  serveKvAll (sendAgain s2 (fun i => whoCtx s2 i = ctx))

/-- The faulting drover goes on: it executes its instruction again, or continues after BRK. -/
def resumeFaulter (s : State) (d : Nat) : State :=
  let brk := match drvDecode 0 (wordAtPc s d) with | some (.brk _ _) => true | _ => false
  modDrv s d (fun v => { v with
    st := .running
    pc := if brk then v.pc + 4 else v.pc
    ord := if v.st = .waiting then v.ord - 1 else v.ord })

/-- A drover group resumes. -/
def resumeGroup (s : State) (g : Nat) : State :=
  let s1 := match (getGrp s g).faulter with | none => s | some d => resumeFaulter s d
  let s2 := modGrp (unfreeze s1 2 g) g (fun x => { x with faulter := none })
  sendAgain s2 (fun i => match i with | .drover d => decide (grpOf d = g) | _ => false)

/-- A drover group ends as if by HALT; its launch will complete with ABORTED. -/
def discardGroup (s : State) (g : Nat) : State :=
  let s1 := modGrp (unfreeze s 2 g) g (fun x => { x with discarded := true, faulter := none })
  (upFrom (16 * g) 16).foldl (fun t d => if (getDrv t d).st = .idle then t else modDrv t d (fun v => { v with st := .halted })) s1

/-- What a release does to the master (R474). -/
def releaseMaster (s : State) (kind idx action : Nat) : State :=
  if devFrozen s then unfreeze s kind idx
  else if kind = 1 then resumeCtx s idx
  else if kind = 2 then (if action = 1 then resumeGroup s idx else discardGroup s idx)
  else if kind = 3 then retryOps (resumeChan (unfreeze s 3 idx) idx) idx
  else if kind = 4 then modConv (unfreeze s 4 idx) idx (fun c => { c with silent := 0 })
  else if kind = 5 then (if action = 1 then resumeStream s idx else discardStream s idx)
  else unfreeze s kind idx

/-- The table of R474 lists the action for the kind: resume for kinds 1 to 7, discard for groups and streams. -/
def actionLegal (kind action : Nat) : Bool :=
  (action = 1 && decide (1 ≤ kind) && decide (kind ≤ 7)) || (action = 2 && (kind = 2 || kind = 5))

/-- DBG_RELEASE (R474, R475, R481): the release, and the status it reports. -/
def release (s : State) (r : Requester) (kind idx action : Nat) : State :=
  let status := fun (t : State) (n : Nat) => modDev t (fun d => { d with relStatus := BitVec.ofNat 3 n })
  match s.frozen.find? (fun f => decide (f.kind.toNat = kind) && decide (f.index.toNat = idx)) with
  | none => status s 1
  | some f =>
    if !seesPart s r (getPart s f.part.toNat) then status s 2
    else if !actionLegal kind action then status s 3
    else status (addCtr (releaseMaster s kind idx action) 1 0 3 1) 0

/-- `disarm` cancels the armed freeze (R477, R482). -/
def disarmFreeze (s : State) : State :=
  if s.dev.fstate = 1 then modDev s (fun d => { d with fstate := 0, fstage := 0, ftag := 0 }) else s

end Sys2Proof.Machine
end

