-- ==== Sys2Proof/Machine/Dump.lean ====
section
/-! DEFINITION. The scan dump of a frozen device (R480) and the test access port (R500). Which chain holds which registers, and
their order, is the model's (log 48). -/

namespace Sys2Proof.Machine

/-- A chain: flip-flops of a span of registers or of a drover group, or an SRAM. -/
inductive Chain where
  | regs (src at_ n : Nat)
  | drovers (g : Nat)
  | spad (e : Nat)
  | acc (e : Nat)
  | istore (g : Nat)
  | lstore (g : Nat)
  | serai (c : Nat)
  deriving DecidableEq, Repr

/-- Offsets of a span that hold a register. -/
def spanOffs (s : State) (a n : Nat) : List Nat :=
  ((upFrom 0 (n / 4)).map (fun i => a + 4 * i)).filter (fun o => decide (regAt s o ≠ .none))

/-- The register spans of the I/O die, with the unit each belongs to. -/
def ioSpans : List (Nat × Nat × Nat) :=
  [(0, 0, 0x1400)] ++ (upFrom 0 256).map (fun q => (srcOf 3 q, hqOff q, 0x1000)) ++
  [(0, 0x200000, 0x4000), (srcOf 13 0, 0x300000, 0xC00), (srcOf 14 0, 0x340000, 0x10000), (0, 0x400000, 4)] ++
  (upFrom 0 16).map (fun p => (srcOf 8 (16 * p + 15), 0x400100 + 0x20 * p, 0x20)) ++ [(0, 0x401000, 0x18)] ++
  (upFrom 0 32).map (fun n => (srcOf 5 n, 0x500000 + 16 * n, 16)) ++ [(0, 0x500800, 4), (0, 0x501000, 0x200)] ++
  (upFrom 0 1024).map (fun n => (srcOf 7 n, 0x600000 + 16 * n, 16)) ++
  [(0, 0x608000, 0x200), (0, 0x609000, 0x14), (0, 0x700000, 0x4000), (0, 0x708000, 0x200), (0, 0x709000, 0x100),
   (0, 0x800000, 0x200), (0, 0x801000, 0x1000), (0, 0x802000, 0x28), (0, 0x900000, 0x20), (0, 0xA00000, 0x400), (0, 0xB00000, 0xA4)]

/-- The chains of an engine. -/
def engChains (e : Nat) : List Chain :=
  let gs := upFrom (4 * e) 4
  [.regs (srcOf 1 e) (0x1000000 + 0x20000 * (e / 16) + 0x1000 * (e % 16 + 1) + 0x800) 0x200] ++ gs.map .drovers ++
  [.spad e, .acc e] ++ gs.map .istore ++ gs.map .lstore

/-- The chains of a cluster. -/
def cluChains (c : Nat) : List Chain :=
  let b := 0x1000000 + 0x20000 * c
  [.regs (srcOf 12 c) b 0x4C] ++ (upFrom 0 64).map (fun n => .regs (srcOf 4 (64 * c + n)) (b + 0x800 + 0x20 * n) 0x20) ++
  ((upFrom (16 * c) 16).map engChains).flatten ++ [.serai c]

/-- The chains of the dies selected (R482): bits 0 and 1 the compute dies, bit 2 the I/O die. -/
def dumpChains (s : State) (dies : Nat) : List Chain :=
  let clus := fun (d : Nat) => if bitOf dies d then ((presentClusters s).filter (fun c => c / 40 = d)).map cluChains else []
  (clus 0).flatten ++ (clus 1).flatten ++ (if bitOf dies 2 then ioSpans.map (fun x => .regs x.1 x.2.1 x.2.2) else [])

/-- Source, kind and memory bytes of a record's header. -/
def chainHead : Chain → Nat × Nat × Nat
  | .regs src _ _ => (src, 0, 0)
  | .drovers g => (srcOf 2 g, 0, 0)
  | .spad e => (srcOf 1 e, 1, 1)
  | .acc e => (srcOf 1 e, 1, 2)
  | .istore g => (srcOf 2 g, 1, 5)
  | .lstore g => (srcOf 2 g, 1, 4)
  | .serai c => (srcOf 12 c, 1, 3)

/-- Bytes of a chain: 9 for every 8 of an SRAM. -/
def chainBytes (s : State) : Chain → Nat
  | .regs _ a n => 4 * (spanOffs s a n).length
  | .drovers _ => 16 * 648
  | .spad _ => 0x80000 / 8 * 9
  | .acc _ => 0x20000 / 8 * 9
  | .istore _ | .lstore _ => 0x8000 / 8 * 9
  | .serai _ => 0x800000 / 8 * 9

/-- A code word: its data bytes, then its check byte, as they are stored (R197). -/
def codeWord (d e : Nat) : List Byte := leBytes 8 (d ^^^ (e % 2 ^ 64)) ++ leBytes 1 (checkByte d ^^^ (e / 2 ^ 64))

/-- The code words of n bytes of the memory map. -/
def mapWords (s : State) (a n : Nat) : List Byte :=
  ((upFrom 0 (n / 8)).map (fun i =>
    codeWord (leNat (memBytes s (a + 8 * i) 8)) (tabGet 0 s.mem.errors ((a + 8 * i) / 8)).toNat)).flatten

/-- The code words of n bytes of a store that the map does not show. -/
def storeWords (t : Tab Byte) (a n : Nat) : List Byte :=
  ((upFrom 0 (n / 8)).map (fun i => codeWord (leNat ((upFrom (a + 8 * i) 8).map (tabGet 0 t))) 0)).flatten

/-- The content of a chain. -/
def chainData (s : State) : Chain → List Byte
  | .regs _ a n => ((spanOffs s a n).map (fun o => leBytes 4 (regValue s .dragoman o (regAt s o)).toNat)).flatten
  | .drovers g => ((upFrom (16 * g) 16).map (fun d => droverBytes (getDrv s d))).flatten
  | .spad e => mapWords s (spadAddr e 0) 0x80000
  | .acc e => storeWords s.comp.acc (32 * e * 4096) 0x20000
  | .istore g => storeWords s.comp.istore (istoreKey g 0) 0x8000
  | .lstore g => storeWords s.comp.lstore (lstoreKey (16 * g) 0) 0x8000
  | .serai c => mapWords s (seraiAddr c 0) 0x800000

/-- A record: its header and the data, padded to 128 bytes. -/
def dumpRecord (s : State) (c : Chain) : List Byte :=
  let h := chainHead c
  let n := chainBytes s c
  leBytes 4 h.1 ++ leBytes 1 h.2.1 ++ leBytes 1 h.2.2 ++ zeros 2 ++ leBytes 8 (8 * n) ++ zeros 16 ++
  chainData s c ++ zeros (round128 n - n)

/-- Bytes of a record. -/
def recordSize (s : State) (c : Chain) : Nat := 32 + round128 (chainBytes s c)

/-- The records that fit in the room given; the others are omitted. -/
def fitChains (s : State) : Nat → List Chain → List Chain
  | _, [] => []
  | room, c :: t => if recordSize s c ≤ room then c :: fitChains s (room - recordSize s c) t else fitChains s room t

/-- The 64-byte header of a dump. -/
def dumpHeader (s : State) (l : List Chain) : List Byte :=
  leBytes 8 s.dev.fstage.toNat ++ leBytes 1 s.dev.fcause.toNat ++ leBytes 1 s.power.devCode.toNat ++ zeros 2 ++ leBytes 4 l.length ++
  leBytes 8 (64 + listSum (l.map (recordSize s))) ++ zeros 40

/-- Writes to a bus address through a host port. -/
def busWrite (s : State) (port addr : Nat) (bs : List Byte) : State :=
  let s1 := emit s (.hostWrite port addr bs)
  if addr + bs.length ≤ 2 ^ 54 then { s1 with mem := { s1.mem with outside := putOutside s1.mem.outside ((port + 1) * 2 ^ 54 + addr) bs } }
  else s1

/-- The dump started through DBG_DUMP_CTRL (R480, R482): state 4 unless the device is frozen, 3 where records do not fit. -/
def debugDump (s : State) (port : Nat) : State :=
  let state := fun (t : State) (n : Nat) => modDev t (fun d => { d with dstate := BitVec.ofNat 3 n })
  if !devFrozen s then state s 4
  else
    let all := dumpChains s (regField s 0xB0003C 2 0)
    let room := 128 * (regWord s 0xB00038).toNat
    let base := (regField s 0xB00030 31 7) * 128 + (regWord s 0xB00034).toNat * 2 ^ 32
    if room < 64 then state s 3
    else
      let l := fitChains s (room - 64) all
      let r := l.foldl (fun (x : State × Nat) c => (busWrite x.1 port x.2 (dumpRecord s c), x.2 + recordSize s c))
        (busWrite s port base (dumpHeader s l), base + 64)
      state r.1 (if l.length < all.length then 3 else 2)

/-! ## The test access port -/

/-- A TAP instruction is loaded; the port works while the module has power. -/
def tap (s : State) (n : Nat) (k : State → State) : Ans :=
  .next (if s.dev.powered then k (modDev s (fun d => { d with tapInstr := BitVec.ofNat 3 n })) else s)

/-- HY_FREEZE: freezes the device with cause 4. -/
def execHyFreeze (s : State) : Ans := tap s 4 (fun t => freezeDevice t 4)

/-- HY_DUMP: shifts out the records of every die while the device is frozen, zero otherwise. -/
def execHyDump (s : State) : Ans :=
  tap s 5 (fun t =>
    if devFrozen t then
      let l := dumpChains t 7
      emit t (.jtag (dumpHeader t l ++ (l.map (dumpRecord t)).flatten))
    else emit t (.jtag [0]))

/-- HY_WARM: starts a warm device reset. -/
def execHyWarm (s : State) : Ans := tap s 6 (fun t => warmReset t 4)

/-- IDCODE: stepping, 0x5C12, the manufacturer identity and a one. -/
def idWord (s : State) : Nat := bitsOf s.ident.toNat 11 8 * 2 ^ 28 + 0x5C12 * 2 ^ 12 + Config.jtagManufacturer.toNat * 2 + 1

/-- IDCODE shifts out the device identity. -/
def execIdcode (s : State) : Ans := tap s 0 (fun t => emit t (.jtag (leBytes 4 (idWord t))))

/-- BYPASS: the one-bit register of IEEE 1149.1. -/
def bypassed (s : State) : State := emit s (.jtag [0])

/-- BYPASS. -/
def execBypass (s : State) : Ans := tap s 1 bypassed

/-- The boundary register of the sideband, QSPI and JTAG pins is captured: its bits are not laid out by the spec (free). -/
def boundary (s : State) : State := drawn (emit s (.jtag (leBytes 4 (Config.freeWord s.fresh).toNat)))

/-- SAMPLE/PRELOAD. -/
def execSamplePreload (s : State) : Ans := tap s 2 boundary

/-- EXTEST: accepted while the device is frozen, and otherwise BYPASS; a device held in cold reset executes no command of this
model but those of the boot. -/
def execExtest (s : State) : Ans := if devFrozen s then tap s 3 boundary else tap s 1 bypassed

/-- TRST: resets the test access port only. -/
def execTrst (s : State) : Ans := tap s 0 id

end Sys2Proof.Machine
end

