-- ==== Sys2Proof/Machine/RegWrite.lean ====
section
/-! DEFINITION. Writes of BAR0: which requester may write what (R10, R12 to R14, R376, R478, R481, R495), which values are
refused (R403, R421, R505), and what a write does (R189, R242, R251, R268, R335, R370, R378, R392 to R396, R399, R402, R428,
R477, R480, R482). -/

namespace Sys2Proof.Machine

/-! ## Values -/

/-- A field outside lo to hi; a field's reset value may always be written. -/
def outside (v hi lo least most reset : Nat) : Bool :=
  let x := bitsOf v hi lo
  decide (x ≠ reset) && (decide (x < least) || decide (most < x))

/-- The context and the bound function of a queue belong to one partition (R374), which the writer may give it. -/
def bindOk (s : State) (r : Requester) (v : Nat) : Bool :=
  let fn := 32 * bitsOf v 24 24 + bitsOf v 23 19
  decide (bitsOf v 25 24 ≠ 3) &&
  (match partOfCtx s (bitsOf v 31 26) with
   | none => s.cfg.image.isNone
   | some p => (decide (bitsOf v 25 24 = 2) || p.functions.contains fn) &&
     (match r with | .dragoman => true | .fn f => decide (p.ownerFn = f.val) | .fabric _ => false))

/-- Counters of the catalogue for extent 1 (R483). -/
def catalogueSize (s : State) : Nat := if smallGrade s then 28925 else 31053

/-- Cause 5: a field outside its range or set of codes (R421, R505). -/
def valueBad (s : State) (r : Requester) (x : Reg) (v : Nat) : Bool :=
  match x with
  | .ctx _ => bitsOf v 27 26 = 3
  | .hq _ o =>
    if o = 0x18 then outside v 31 28 0 12 0 || outside v 27 24 0 12 0 || outside v 21 13 1 256 1
    else if o = 0x1C then !bindOk s r v
    else o = 0x20 && bitsOf v 30 29 = 3
  | .evq i o => (o = 8 && outside v 31 28 0 12 0) || (o = 0xC && !indexOk (2 ^ (regField s (evqOff i + 8) 31 28 + 4)) (bitsOf v 15 0))
  | .pwr o =>
    (o = 4 && (outside v 31 20 320 3200 3200 || outside v 19 9 400 1650 1650)) ||
    (o = 8 && (outside v 30 24 32 64 64 || outside v 23 17 32 74 74))
  | .gcmd _ o =>
    o = 0 && (decide (4 < bitsOf v 29 27) || (bitOf v 31 && decide (bitsOf v 29 27 = 0)) || decide (63 < bitsOf v 15 8))
  | .way _ o => o = 0x20 && !([0x40, 0x80].contains (bitsOf v 23 16 / 64 * 64) || bitsOf v 23 0 = 0)
  | .xltPart _ o => o = 0x10 && (decide (1024 < bitsOf v 31 21) || decide (16 < bitsOf v 20 16))
  | .bar2 _ => decide (623 < bitsOf v 31 22)
  | .tly _ o =>
    o = 0 && (decide (4 < bitsOf v 29 27) || decide (63 < bitsOf v 23 16) ||
      (bitOf v 31 && (decide (bitsOf v 29 27 = 0) || decide (bitsOf v 15 0 = 0))))
  | .tlyView _ => decide (63 < bitsOf v 31 24)
  | .cfg o => o = 0x18 && (bitsOf v 30 29 = 3 || (bitOf v 31 && decide (bitsOf v 30 29 = 0)))
  | .sec o => o = 0xC && decide (0x2000000 < v)
  | .dbg o =>
    (o = 0x40 && decide (catalogueSize s ≤ bitsOf v 14 0)) ||
    (o = 0xA0 && (decide (2 ≤ bitsOf v 31 30) || decide (1280 ≤ bitsOf v 29 19)))
  | _ => false

/-- Cause 3: a doorbell or completion head beyond its ring (R378, R402). -/
def indexBad (s : State) (x : Reg) (v : Nat) : Bool :=
  match x with
  | .hq q o => (o = 0x40 && !indexOk (sqSize s q) (bitsOf v 15 0)) || (o = 0x44 && !indexOk (cqSize s q) (bitsOf v 15 0))
  | _ => false

/-- Cause 4: a reserved step code (R403). -/
def stepBad (x : Reg) (v : Nat) : Bool :=
  match x with
  | .pwr o => o = 8 && !(legalCode (bitsOf v 30 24) && legalCode (bitsOf v 23 17))
  | _ => false

/-- The cause of a refused value; 0 for none. -/
def valueCause (s : State) (r : Requester) (x : Reg) (v : Nat) : Nat :=
  if indexBad s x v then 3 else if stepBad x v then 4 else if valueBad s r x v then 5 else 0

/-! ## Writes that are discarded -/

/-- The function whose doorbell it is was bound to the queue and no longer is (R402). -/
def unbound (s : State) (r : Requester) (x : Reg) : Bool :=
  match r, x with
  | .fn f, .hq q o => (o = 0x40 || o = 0x44) && (getQ s q).former.contains f.val && !(decide (qAttach s q ≤ 1) && decide (qFn s q = f.val))
  | _, _ => false

/-- The requester is the standby function of a queue. -/
def isStandby (s : State) (r : Requester) (q : Nat) : Bool :=
  match r with | .fn f => decide (standbyFn s q = some f.val) | _ => false

/-- Writes discarded in the state that the unit is in (R314, R335, R392, R402). -/
def heldOff (s : State) (r : Requester) (x : Reg) (v : Nat) : Bool :=
  match x with
  | .hq q o =>
    (qEnabled s q && (decide (o < 0x18) || o = 0x58 || o = 0x5C)) ||
    (decide (0x70 ≤ o) && decide (o ≤ 0x84) && !isStandby s r q) || (o = 0x24 && bitOf v 29 && !isStandby s r q)
  | .way p _ => !(swapUsedList s p).isEmpty
  | .dock n => (match r with | .fn f => !(decide ((getStream s n).destKind ≠ 0) && decide (dockFn s n = f.val)) | _ => true)
  | _ => false

/-- A register whose refused RWL fields are all it has: a write by another requester is discarded as a whole, and reported. -/
def lockedOut (s : State) (r : Requester) (x : Reg) (v : Nat) : Bool :=
  let m := regMasks x
  decide (m.rwl ≠ 0) && decide (m.rw = 0) && decide (m.w1c = 0) && !mayWrite s r x v &&
  (match x with | .ctx _ => false | _ => true)

/-! ## What a write does -/

/-- Bits of a register that a requester's write replaces: RW, and RWL where it may; while a queue is enabled its sizes and
class keep their values. -/
def storeMask (s : State) (r : Requester) (x : Reg) (v : Nat) : Nat :=
  let m := regMasks x
  let all := m.rw ||| (if mayWrite s r x v then m.rwl else 0)
  match x with
  | .hq q o => if o = 0x18 && qEnabled s q then all &&& 0x007FFFFF else all
  | _ => all

/-- Stores the fields. -/
def storeReg (s : State) (r : Requester) (x : Reg) (o v : Nat) : State :=
  let m := storeMask s r x v
  setReg s o (BitVec.ofNat 32 ((regWord s o).toNat - ((regWord s o).toNat &&& m) + (v &&& m)))

/-- Replaces 32 bits of a 64-bit word: its high half or its low one. -/
def putHalf (w : BitVec 64) (hi : Bool) (v : Nat) : BitVec 64 :=
  if hi then BitVec.ofNat 64 (w.toNat % 2 ^ 32 + v * 2 ^ 32) else BitVec.ofNat 64 (w.toNat / 2 ^ 32 * 2 ^ 32 + v)

/-- A write to a queue page. -/
def writeHq (s : State) (r : Requester) (q o v : Nat) : State :=
  let stored := storeReg s r (.hq q o) (hqOff q + o) v
  if o = 0x1C then
    (if qAttach s q ≤ 1 then changeFn stored q (qFn s q) (if qAttach stored q ≤ 1 then qFn stored q else 64) else stored)
  else if o = 0x24 then
    (if bitOf v 29 then adoptQueue s q
     else
       let s1 := setEnable s q (bitOf v 31)
       if bitOf v 30 then resumeQueue s1 q else s1)
  else if o = 0x40 then ringTail s q (bitsOf v 15 0)
  else if o = 0x44 then moveHead s q (bitsOf v 15 0)
  else if o = 0x58 ∨ o = 0x5C then modQ s q (fun u => { u with accSeq := putHalf u.accSeq (o = 0x5C) v })
  else if o = 0x900 then hostSignal s q (bitsOf v 31 16) (bitsOf v 15 0)
  else stored

/-- A write to a context's word: the abort, then the reset. -/
def writeCtx (s : State) (c v : Nat) : State :=
  let s1 := if bitOf v 13 then abortContext s c else s
  if bitOf v 14 then askContextReset s1 c else s1

/-- A write to the DBG block. -/
def writeDbg (s : State) (r : Requester) (o v : Nat) : State :=
  if o = 0xC then (if bitOf v 31 then disarmFreeze s else s)
  else if o = 0x10 then (if bitOf v 31 then release s r (regField s 0xB00010 25 22) (regWord s 0xB00014).toNat (regField s 0xB00010 27 26) else s)
  else if o = 0x18 then (if bitOf v 31 then modDev s (fun d => { d with frozenOverflow := false }) else s)
  else if o = 0x3C && bitOf v 31 then debugDump s (match r with | .fn f => f.val / 32 | _ => 0)
  else s

/-- The effect of a permitted write. CFG_CMD and SEC_RCV_CTRL only take their fields: what the start does comes with the
commands that carry the image (log 12). -/
def writeReg (s : State) (r : Requester) (x : Reg) (o v : Nat) : State :=
  let stored := storeReg s r x o v
  match x with
  | .ctx c => writeCtx stored c v
  | .hq q i => writeHq s r q i v
  | .evq i j =>
    if j = 0x1C then (if bitOf v 31 then { s with host := { s.host with evqs := tabMod {} s.host.evqs i (fun e => { e with overflow := false }) } } else s)
    else stored
  | .epo i => modEpoch s (fun e => { e with pulseNext := putHalf e.pulseNext (i = 0x14) (if i = 0x14 then v else v / 1024 * 1024) })
  | .wgh i => if i = 4 then (if bitOf v 31 then requestCheckpoint s else s) else stored
  | .gcmd p i => if i = 0 && bitOf v 31 then groupCommand stored p else stored
  | .dock n => dockAnswer s n (bitsOf v 31 30) (bitsOf v 15 0)
  | .xlt c i => if i = 0xC && bitOf v 31 then startInval stored c else stored
  | .tly p i => if i = 0 && bitOf v 31 && !tlyBusy s p then tallyCommand stored p else stored
  | .dbg i => writeDbg stored r i v
  | _ => stored

/-- A write to a register that the requester sees. -/
def writeSeen (s : State) (r : Requester) (x : Reg) (o v : Nat) : State :=
  let m := regMasks x
  if m.rw ||| m.rwl ||| m.wo ||| m.w1c = 0 then s
  else if lockedOut s r x v then refuseAcc s r 7 o
  else if valueCause s r x v ≠ 0 then refuseAcc s r (valueCause s r x v) o
  else if heldOff s r x v then refuseAcc s r 7 o
  else writeReg s r x o v

/-! ## GLB_RESET (R495) -/

/-- Who may name a reset: kind 1 the owner of the partition, kind 2 the configuration function or the owner of every
partition, and the dragoman. -/
def mayReset (s : State) (r : Requester) (kind p : Nat) : Bool :=
  match r with
  | .dragoman => true
  | .fn f => if kind = 1 then ownsPart s f p else if kind = 2 then isCfgFn s f || ownsAll s f else isCfgFn s f || isOwner s f
  | .fabric _ => false

/-- A write to GLB_RESET. -/
def writeReset (s : State) (r : Requester) (v : Nat) : State :=
  let kind := bitsOf v 29 27
  let p := bitsOf v 23 21
  if !mayReset s r kind p then
    (if bitOf v 31 then refuseAcc (modDev s (fun d => { d with resetStatus := 1 })) r 6 0x20 else refuseAcc s r 7 0x20)
  else if 2 < kind ∨ (bitOf v 31 ∧ kind = 0) then refuseAcc s r 5 0x20
  else
    let s1 := setReg s 0x20 (BitVec.ofNat 32 (v &&& 0x38E00000))
    if !bitOf v 31 then s1
    else
      let g := glbReset s1 kind p
      if g.2 then g.1 else refuseAcc g.1 r 6 0x20

/-! ## The access -/

/-- A write through the doorbell window (R378): only the doorbell and the completion head of a queue bound to that fabric ID. -/
def fabricWrite (s : State) (fid o v : Nat) : State :=
  match regAt s o with
  | .hq q i =>
    if qAttach s q = 2 && qFid s q = fid && (i = 0x40 || i = 0x44) && served s true (.hq q i) && !indexBad s (.hq q i) v then writeHq s (.dragoman) q i v
    else s
  | _ => s

/-- A function clears its own access-error flag (R14). -/
def clearAcc (s : State) (r : Requester) (v : Nat) : State :=
  match r with
  | .fn f => if bitOf v 31 then { s with host := { s.host with accErr := tabPut {} s.host.accErr f {} } } else s
  | _ => s

/-- A write of n bytes at a BAR0 offset. -/
def regWrite (s : State) (r : Requester) (o n : Nat) (w : Word) : State :=
  let v := w.toNat
  match r with
  | .fabric fid => if n = 4 then fabricWrite s fid.toNat o v else s
  | _ =>
    if !onBus s r then s
    else if n ≠ 4 ∨ o % 4 ≠ 0 then refuseAcc s r 1 o
    else
      let x := regAt s o
      if !served s true x then s
      else if x = .accErr then clearAcc s r v
      else if unbound s r x then refuseAcc s r 3 o
      else if !sees s r x then refuseAcc s r 2 o
      else match x with
        | .absent => s
        | .none => refuseAcc s r 7 o
        | .glbReset => writeReset s r v
        | x => writeSeen s r x o v

end Sys2Proof.Machine
end

