-- ==== Sys2Proof/Machine/XferOps.lean ====
section
/-! DEFINITION. What a transfer channel does at its cursor (R187, R193, R220, R222, R227, R229, R231 to R235): the delivery of a
unit into memory, a ring or a mirrored register, page requests and their answers, and the end of a TRANSFER. -/

namespace Sys2Proof.Machine

/-! ## Sources -/

/-- The state with only the fabric reads that this channel made. -/
def ownGot (s : State) (x : Nat) : State :=
  { s with fab := { s.fab with got := s.fab.got.filter (fun g => g.1 = x) } }

/-- The mirrored register that a single aligned 32-bit access of a manifest reaches (R187): raw elements of 4 bytes. -/
def mirrorAt (s : State) (ctx va : Nat) (f : Xfer) (wr : Bool) : Option Nat :=
  if f.conv = 0 && f.el = 2 && va % 4 = 0 then
    (match xlate s ctx va wr with
     | .ok ga => (match placeOf s ga with | .mirror o => some o | _ => none)
     | .error _ => none)
  else none

/-- The function on whose behalf a mirror access acts: the one its queue is bound to. -/
def mirrorReq (s : State) (o : Nat) : Requester :=
  let q := (o - 0x100000) / 0x1000
  if qAttach s q = 2 then .fabric (BitVec.ofNat 14 (qFid s q)) else .fn (Fin.ofNat 64 (qFn s q))

/-- The pieces of the unit at the cursor, and the state after its reads. -/
def unitAt (s : State) (x : Nat) (c : Chan) (f : Xfer) (hit : Bool) : Except UnitFail (List Piece × State) :=
  match (if f.skew then none else mirrorAt s c.ctx (strided f.src c.cursor f.ss) f false) with
  | some o =>
    let r := regRead s (mirrorReq s o) o 4
    .ok (plainPieces f c.cursor [(0, [r.1.toNat])], r.2)
  | none => match unitPieces (ownGot s x) c.ctx hit f c.cursor with
    | .error e => .error e
    | .ok l => .ok (l, s)

/-- Asks another device for bytes (R193, R344), once, over a port that is Up (R352). -/
def askFabric (s : State) (x ga n : Nat) : State :=
  let fid := ga % 2 ^ 54 / 2 ^ 40
  if !(upFrom 0 16).any (portUp s) ||
      s.fab.sent.any (fun m => decide (m.kind = 2) && decide (m.who = some (.chan x)) && decide (m.addr = ga)) then s
  else
    let s1 := { s with fab := { s.fab with sent := s.fab.sent ++ [⟨2, BitVec.ofNat 14 fid, 0, ga, n, none, false⟩] } }
    tagSent s (emit s1 (.rolre fid 0 2 (ga % 2 ^ 40) 0 (leBytes 4 n) none)) (.chan x)

/-- What a unit that cannot be delivered does (R201, R232, R233). -/
def unitFails (s : State) (x : Nat) (c : Chan) (e : UnitFail) : State :=
  match e with
  | .miss port iova role => requestPage s x role port iova
  | .ask ga n => askFabric s x ga n
  | .acc (.bad b) _ =>
    let r := uncorrectable s c.ctx (srcOf 4 x) c.tag.toNat (some (.chan x)) b
    if r.1 then stopChan r.2 x 1 5 else replayOwner r.2 c.owner
  | .acc (.window ga wr) _ => stopChan (accessFault s c.ctx (srcOf 4 x) c.tag.toNat (.window ga wr)) x 3 4
  | .acc (.xlt i l va wr) _ => stopChan (accessFault s c.ctx (srcOf 4 x) c.tag.toNat (.xlt i l va wr)) x 3 3

/-! ## Destinations -/

/-- The bytes of a piece, over the bytes that stand where it goes. -/
def pieceBytes (p : Piece) (old : List Byte) : List Byte :=
  let n := ceilDiv (p.bit + p.bits) 8
  let m := (2 ^ p.bits - 1) * 2 ^ p.bit
  leBytes n (leNat (old.take n) - (leNat (old.take n) &&& m) + (p.val % 2 ^ p.bits) * 2 ^ p.bit)

/-- Bytes that a piece touches. -/
def pieceLen (p : Piece) : Nat := ceilDiv (p.bit + p.bits) 8

/-- Where byte `pos` of a manifest's sequence of ring slots lies. -/
def ringByte (r : Ring) (e start pos : Nat) : Nat :=
  let k := (start + pos / max 1 r.slotBytes) % max 1 r.slots
  let off := r.base + k * r.slotBytes + pos % max 1 r.slotBytes
  if r.mem = 2 then seraiAddr (cluOf e) off else spadAddr e off

/-- The position of a piece in the sequence of slots: a line counts from the start of its slot. -/
def piecePos (f : Xfer) (r : Ring) (cur : List Nat) (p : Piece) : Nat :=
  if f.skew then (unitSlot f r.slotBytes cur).1 * r.slotBytes + p.addr else p.addr

/-- The slots that pieces reach beyond the one being filled are EMPTY. -/
def slotsOpen (r : Ring) (start slot : Nat) (ends : List Nat) : Bool :=
  ends.all (fun z =>
    let k := z / max 1 r.slotBytes
    decide (k ≤ slot) || (decide (k - slot < r.slots) && decide (((r.states[(start + k) % max 1 r.slots]?).getD 0) = 0)))

/-- Writes a piece into the ring, byte by byte. -/
def putRing (s : State) (r : Ring) (e start pos : Nat) (p : Piece) : State :=
  let addrs := (upFrom pos (pieceLen p)).map (ringByte r e start)
  let bs := pieceBytes p (addrs.map (memByte s))
  (addrs.zip bs).foldl (fun t z => memWrite t z.1 [z.2]) s

/-- The first piece that its destination does not take: a host page without a translation, or an access that fails. -/
def destFail (s : State) (ctx : Nat) (hit : Bool) (l : List Piece) : Option UnitFail :=
  l.findSome? (fun p =>
    match pageMiss s ctx p.addr (pieceLen p) true hit p.role with
    | some f => some f
    | none => match xWriteCheck s ctx p.addr (pieceLen p) with
      | .error f => some (.acc f p.role)
      | .ok _ => none)

/-- A piece goes to another device. -/
def toFabric (s : State) (ctx : Nat) (p : Piece) : Bool :=
  (piecesOf p.addr (pieceLen p)).any (fun y => match xlate s ctx y.1 true with
    | .ok ga => (match placeOf s ga with | .fabric _ _ => true | _ => false)
    | .error _ => false)

/-- Writes a piece that has passed its checks; the bits beside it keep what stands there. -/
def putPiece (s : State) (ctx : Nat) (p : Piece) : State :=
  let old := if p.bit = 0 && p.bits % 8 = 0 then [] else match xRead s ctx p.addr (pieceLen p) with | .ok b => b | .error _ => []
  match xWrite s ctx p.addr (pieceBytes p old) with | .ok t => t | .error _ => s

/-! ## The unit -/

/-- The cursor passes the unit (R231). -/
def passUnit (s : State) (x : Nat) (f : Xfer) (bytes : Nat) : State :=
  let s1 := modChan s x (fun c => { c with cursor := nextCursor f c.cursor, cause := 0 })
  addCtr { s1 with fab := { s1.fab with got := s1.fab.got.filter (fun g => g.1 ≠ x) } } 4 (x / 64) 2 bytes

/-- After a unit in a ring: the mark rises, or the slot is complete (R220, R228). -/
def afterUnit (s : State) (x e n : Nat) (f : Xfer) : State :=
  match getChan s x with
  | none => s
  | some c =>
    let u := unitSlot f (getRing s e n).slotBytes c.cursor
    if cursorEnd f c.cursor || decide (slotNo s c e n < u.1) then fillSlot s x e n
    else modRing s e n (fun r => { r with mark := BitVec.ofNat 12 (u.2 / 4096) })

/-- Delivers the unit at the cursor into the slot being filled; a unit that reaches slots not yet EMPTY waits. -/
def deliverRing (s : State) (x : Nat) (c : Chan) (f : Xfer) (e n : Nat) (hit : Bool) : State :=
  let r := getRing s e n
  let slot := slotNo s c e n
  if slot < (unitSlot f r.slotBytes c.cursor).1 then fillSlot s x e n
  else match unitAt s x c f hit with
    | .error u => unitFails s x c u
    | .ok (l, s1) =>
      if !slotsOpen r c.startFilled slot (l.map (fun p => piecePos f r c.cursor p + pieceLen p - 1)) then s
      else
        let s2 := l.foldl (fun t p => putRing t r e c.startFilled (piecePos f r c.cursor p) p) s1
        afterUnit (passUnit s2 x f (listSum (l.map pieceLen))) x e n f

/-- Delivers the unit at the cursor into memory, or into a mirrored register. -/
def deliverMem (s : State) (x : Nat) (c : Chan) (f : Xfer) (hit : Bool) : State :=
  match unitAt s x c f hit with
  | .error u => unitFails s x c u
  | .ok (l, s1) =>
    let bytes := listSum (l.map pieceLen)
    match (if f.skew then none else mirrorAt s c.ctx (strided f.dst c.cursor f.ds) f true) with
    | some o => passUnit (regWrite s1 (mirrorReq s o) o 4 (BitVec.ofNat 32 ((l.map (·.val)).headD 0))) x f bytes
    | none => match destFail s c.ctx hit l with
      | some u => unitFails s x c u
      | none =>
        if l.any (toFabric s c.ctx) && !(upFrom 0 16).any (portUp s) then s
        else passUnit (tagSent s1 (l.foldl (fun t p => putPiece t c.ctx p) s1) (.chan x)) x f bytes

/-- The channel may deliver: its master runs and it is not stopped. -/
def chanGoes (s : State) (x : Nat) (c : Chan) : Bool :=
  devRuns s && !isFrozen s 1 c.ctx && !isFrozen s 3 x && c.state = 1

/-- One delivery: into a ring the channel first starts its slot. -/
def deliver (s : State) (x : Nat) (hit : Bool) : State :=
  match getChan s x with
  | none => s
  | some c =>
    let f := xferOf c.bytes (ownerLaunch c.owner)
    if !chanGoes s x c then s
    else if cursorEnd f c.cursor then endXfer s x
    else match chanRing c with
      | none => endXfer (deliverMem s x c f hit) x
      | some (e, n) =>
        let s1 := if c.inSlot then s else nextSlot s x c e n
        match getChan s1 x with
        | none => s1
        | some d => if d.inSlot then endXfer (deliverRing s1 x d f e n hit) x else s1

/-- TRANSFER_DELIVERY (R231): `atsHit` says that the host port finds the translation that the unit needs. -/
def execTransferDelivery (x : XferId) (atsHit : Bool) (s : State) : Ans := .next (deliver s x atsHit)

/-- CHANNEL_SLOT_START (R229): the channel that waits for `free_tally` starts its next slot. -/
def execChannelSlotStart (x : XferId) (s : State) : Ans :=
  .next (
    match getChan s x with
    | none => s
    | some c => match chanRing c with
      | none => s
      | some (e, n) =>
        if !chanGoes s x c || c.inSlot || cursorEnd (xferOf c.bytes (ownerLaunch c.owner)) c.cursor then s else nextSlot s x c e n)

/-- TRANSFER_COMPLETE (R222): everything is delivered and acknowledged; the packet completes. -/
def execTransferComplete (q : QueueId) (s : State) : Ans :=
  .next (
    let ch := match (getQ s q).run with
      | some r => (match r.work with | .xfer c _ => c | _ => none)
      | none => none
    let s1 := match ch with | some x => if devRuns s then endXfer s x else s | none => s
    match (getQ s1 q).run with
    | some r =>
      (match r.work with
       | .xfer _ true => if devRuns s && r.collDone && acked s1 q then completePacket s1 q r.status.toNat else s1
       | _ => s1)
    | none => s1)

/-! ## Page requests (R232, R234, R235) -/

/-- PAGE_REQUEST_FAILED: the event, the context's freeze, and the channel stopped. -/
def pageFailed (s : State) (x : Nat) (c : Chan) (r : PageReq) (response : Nat) : State :=
  let detail := leBytes 4 c.tag.toNat ++ leBytes 1 (x % 64) ++ leBytes 1 r.role ++ leBytes 1 r.port ++ leBytes 1 response ++
    leBytes 8 (r.iova % 2 ^ 54)
  let s1 := freezeCtx (raiseEvent (addCtr s 7 r.port 3 1) 0x0302 2 c.ctx (srcOf 4 x) detail) c.ctx 0x0302
  modChan (stopChan s1 x 3 2) x (fun y => { y with req := some { r with failed := response } })

/-- PAGE_REQUEST_RESPONSE (R232): Success brings the translation; Invalid Request and Response Failure fail the request. -/
def execPageRequestResponse (x : XferId) (code : BitVec 4) (s : State) : Ans :=
  .next (
    match getChan s x with
    | none => s
    | some c => match c.req with
      | none => s
      | some r =>
        if !devRuns s || c.state ≠ 2 then s
        else if code = 0 then
          let page := (c.ctx, r.port, r.iova / 4096)
          runChan { s with mem := { s.mem with atsCache := s.mem.atsCache.filter (fun g => decide (g ≠ page)) ++ [page] } } x
        else if code = 1 ∨ code = 15 then pageFailed s x c r code.toNat
        else s)

/-- PAGE_REQUEST_TIMEOUT (R234): 2^20 stages have passed without a response. -/
def execPageRequestTimeout (x : XferId) (s : State) : Ans :=
  .next (
    match getChan s x with
    | none => s
    | some c => match c.req with
      | none => s
      | some r =>
        if !devRuns s || c.state ≠ 2 || decide (s.stage.toNat < r.since.toNat + 2 ^ 20) then s
        else pageFailed s x c r 0xFF)

end Sys2Proof.Machine
end

