-- ==== Sys2Proof/Machine/HostCommands.lean ====
section
/-! DEFINITION. The commands that a requester gives by writing or reading a register: each is that access, with the word its
fields make. -/

namespace Sys2Proof.Machine

/-- A 32-bit write of a word. -/
def wr (s : State) (r : Requester) (o v : Nat) : State := regWrite s r o 4 (BitVec.ofNat 32 v)

/-- REGISTER_WRITE (R505): a write to any register. -/
def execRegisterWrite (r : Requester) (off : RegOff) (size : Nat) (value : Word) (s : State) : Ans :=
  .next (regWrite s r off.toNat size value)

/-! ## Queues (R378, R387, R392, R395, R402) -/

/-- SQ_DOORBELL. -/
def execSqDoorbell (r : Requester) (q : QueueId) (tail : BitVec 32) (s : State) : Ans :=
  .next (regWrite s r (hqOff q + 0x40) 4 tail)
/-- CQ_HEAD_WRITE. -/
def execCqHeadWrite (r : Requester) (q : QueueId) (head : BitVec 32) (s : State) : Ans :=
  .next (regWrite s r (hqOff q + 0x44) 4 head)
/-- QUEUE_ENABLE. -/
def execQueueEnable (r : Requester) (q : QueueId) (s : State) : Ans := .next (wr s r (hqOff q + 0x24) 0x80000000)
/-- QUEUE_DISABLE. -/
def execQueueDisable (r : Requester) (q : QueueId) (s : State) : Ans := .next (wr s r (hqOff q + 0x24) 0)
/-- QUEUE_RESUME: `resume`, with `enable` as it stands. -/
def execQueueResume (r : Requester) (q : QueueId) (s : State) : Ans :=
  .next (wr s r (hqOff q + 0x24) (0x40000000 + (if qEnabled s q then 0x80000000 else 0)))
/-- QUEUE_ADOPT. -/
def execQueueAdopt (r : Requester) (q : QueueId) (s : State) : Ans := .next (wr s r (hqOff q + 0x24) 0x20000000)
/-- HOST_TALLY_SIGNAL (R251). -/
def execHostTallySignal (r : Requester) (q : QueueId) (vid amount : BitVec 16) (s : State) : Ans :=
  .next (wr s r (hqOff q + 0x900) (vid.toNat * 2 ^ 16 + amount.toNat))

/-! ## Contexts (R396, R399) -/

/-- A write to GLB_CTX that leaves its other fields as they stand. -/
def ctxWrite (s : State) (r : Requester) (c : Nat) (bit : Nat) : State :=
  wr s r (ctxOff c) (((regWord s (ctxOff c)).toNat &&& 0xFFE00000) + 2 ^ bit)
/-- CONTEXT_RESET. -/
def execContextReset (r : Requester) (ctx : CtxId) (s : State) : Ans := .next (ctxWrite s r ctx 14)
/-- CONTEXT_ABORT. -/
def execContextAbort (r : Requester) (ctx : CtxId) (s : State) : Ans := .next (ctxWrite s r ctx 13)

/-! ## Tally commands (R241, R242) -/

/-- TLY_CMD with `start`. -/
def tlyWrite (s : State) (r : Requester) (p : PartId) (op ctx vid : Nat) : State :=
  wr s r (tlyOff p) (2 ^ 31 + op * 2 ^ 27 + ctx * 2 ^ 16 + vid)
/-- TALLY_CREATE. -/
def execTallyCreate (r : Requester) (p : PartId) (ctx : BitVec 8) (vid : BitVec 16) (s : State) : Ans :=
  .next (tlyWrite s r p 1 ctx.toNat vid.toNat)
/-- TALLY_DESTROY. -/
def execTallyDestroy (r : Requester) (p : PartId) (ctx : BitVec 8) (vid : BitVec 16) (s : State) : Ans :=
  .next (tlyWrite s r p 2 ctx.toNat vid.toNat)
/-- TALLY_SET_VALUE. -/
def execTallySetValue (r : Requester) (p : PartId) (ctx : BitVec 8) (vid : BitVec 16) (s : State) : Ans :=
  .next (tlyWrite s r p 3 ctx.toNat vid.toNat)
/-- TALLY_CLEAR_FLAGS. -/
def execTallyClearFlags (r : Requester) (p : PartId) (ctx : BitVec 8) (vid : BitVec 16) (s : State) : Ans :=
  .next (tlyWrite s r p 4 ctx.toNat vid.toNat)

/-! ## Group commands (R268) -/

/-- CNV_GCMD with `start`. -/
def groupWrite (s : State) (r : Requester) (p : PartId) (op g ctx : Nat) : State :=
  wr s r (cnvOff p) (2 ^ 31 + op * 2 ^ 27 + g * 2 ^ 16 + ctx * 2 ^ 8)
/-- GROUP_LOAD. -/
def execGroupLoad (r : Requester) (p : PartId) (g : GroupId) (ctx : BitVec 8) (s : State) : Ans := .next (groupWrite s r p 1 g ctx.toNat)
/-- GROUP_INVALIDATE. -/
def execGroupInvalidate (r : Requester) (p : PartId) (g : GroupId) (ctx : BitVec 8) (s : State) : Ans :=
  .next (groupWrite s r p 2 g ctx.toNat)
/-- GROUP_RESET_SEQUENCES. -/
def execGroupResetSequences (r : Requester) (p : PartId) (g : GroupId) (ctx : BitVec 8) (s : State) : Ans :=
  .next (groupWrite s r p 3 g ctx.toNat)
/-- GROUP_READ. -/
def execGroupRead (r : Requester) (p : PartId) (g : GroupId) (ctx : BitVec 8) (s : State) : Ans := .next (groupWrite s r p 4 g ctx.toNat)

/-! ## Docks, translation, the weighhouse (R189, R335, R428) -/

/-- CAR_DOCK_ACK. -/
def dockWrite (s : State) (r : Requester) (st : StreamId) (kind retry slot : Nat) : State :=
  wr s r (0x604000 + 4 * st.val) (kind * 2 ^ 30 + retry * 2 ^ 16 + slot)
/-- DOCK_ACK. -/
def execDockAck (r : Requester) (st : StreamId) (slot : BitVec 16) (s : State) : Ans := .next (dockWrite s r st 1 0 slot.toNat)
/-- DOCK_NACK_BUSY. -/
def execDockNackBusy (r : Requester) (st : StreamId) (slot : BitVec 16) (retryAfter : BitVec 14) (s : State) : Ans :=
  .next (dockWrite s r st 2 retryAfter.toNat slot.toNat)
/-- DOCK_NACK_REFUSED. -/
def execDockNackRefused (r : Requester) (st : StreamId) (slot : BitVec 16) (s : State) : Ans := .next (dockWrite s r st 3 0 slot.toNat)
/-- XLT_INVAL_CONTEXT. -/
def execXltInvalContext (r : Requester) (ctx : CtxId) (s : State) : Ans := .next (wr s r (xltOff ctx + 0xC) 0x80000000)
/-- XLT_INVAL_RANGE: the rest of the address stands in XLT_INVAL_VA. -/
def execXltInvalRange (r : Requester) (ctx : CtxId) (vaHi : BitVec 8) (pages : BitVec 20) (s : State) : Ans :=
  .next (wr s r (xltOff ctx + 0xC) (2 ^ 31 + 2 ^ 28 + vaHi.toNat * 2 ^ 20 + pages.toNat))
/-- CHECKPOINT_REQUEST. -/
def execCheckpointRequest (r : Requester) (s : State) : Ans := .next (wr s r 0x340004 0x80000000)

/-! ## Configuration and recovery (R438, R448) -/

/-- The write is one that its register takes. -/
def takes (s : State) (r : Requester) (o v : Nat) : Bool :=
  let x := regAt s o
  onBus s r && served s true x && sees s r x && !lockedOut s r x v && valueCause s r x v = 0 &&
  (match r with | .fabric _ => false | _ => true)

/-- IMAGE_VALIDATE: CFG_CMD op 1; no effect while a command is in progress. -/
def execImageValidate (r : Requester) (image : List Byte) (signed : Bool) (s : State) : Ans :=
  let v := 2 ^ 31 + 2 ^ 29 + regField s 0x900018 15 0
  .next (
    let s1 := wr s r 0x900018 v
    if takes s r 0x900018 v && !cfgBusy s then validateImage s1 image signed else s1)

/-- IMAGE_APPLY: CFG_CMD op 2 with `enrol` and the quiesce limit. -/
def execImageApply (r : Requester) (image : List Byte) (signed enrol : Bool) (kst : BitVec 16) (s : State) : Ans :=
  let v := 2 ^ 31 + 2 * 2 ^ 29 + b2n enrol * 2 ^ 28 + kst.toNat
  .next (
    let s1 := wr s r 0x900018 v
    if takes s r 0x900018 v && !cfgBusy s then applyImage s1 image signed enrol kst.toNat else s1)

/-- RECOVERY_GO: SEC_RCV_CTRL `go`. -/
def execRecoveryGo (r : Requester) (fw : Firmware) (verified : Bool) (s : State) : Ans :=
  .next (
    let s1 := wr s r 0xA00010 0x80000000
    if takes s r 0xA00010 0x80000000 then recoveryGo s1 fw verified else s1)

/-! ## Releases, freezes, resets (R474, R477, R480, R495) -/

/-- DBG_RELEASE_IDX, then DBG_RELEASE with `start`. -/
def releaseWrite (s : State) (r : Requester) (action : Nat) (kind : BitVec 4) (index : Word) : State :=
  wr (wr s r 0xB00014 index.toNat) r 0xB00010 (2 ^ 31 + action * 2 ^ 26 + kind.toNat * 2 ^ 22)
/-- RELEASE_RESUME. -/
def execReleaseResume (r : Requester) (kind : BitVec 4) (index : Word) (s : State) : Ans := .next (releaseWrite s r 1 kind index)
/-- RELEASE_DISCARD. -/
def execReleaseDiscard (r : Requester) (kind : BitVec 4) (index : Word) (s : State) : Ans := .next (releaseWrite s r 2 kind index)
/-- DISARM. -/
def execDisarm (r : Requester) (s : State) : Ans := .next (wr s r 0xB0000C (2 ^ 31 + ((regWord s 0xB0000C).toNat &&& 0x60000000)))
/-- DEBUG_DUMP. -/
def execDebugDump (r : Requester) (s : State) : Ans := .next (wr s r 0xB0003C (2 ^ 31 + regField s 0xB0003C 2 0))
/-- GLB_RESET_PARTITION. -/
def execGlbResetPartition (r : Requester) (p : PartId) (s : State) : Ans := .next (wr s r 0x20 (2 ^ 31 + 2 ^ 27 + p.val * 2 ^ 21))
/-- GLB_RESET_WARM. -/
def execGlbResetWarm (r : Requester) (s : State) : Ans := .next (wr s r 0x20 (2 ^ 31 + 2 * 2 ^ 27))

/-! ## Reads (R12, R260, R315, R370, R421, R428, R482) -/

/-- RC_READ: the value, cleared by the read. -/
def execRcRead (r : Requester) (off : RegOff) (size : Nat) (s : State) : Ans := .next (readCommand s r off.toNat size)
/-- HI_HALF_LATCH_READ: the low half; the high half is latched. -/
def execHiHalfLatchRead (r : Requester) (off : RegOff) (size : Nat) (s : State) : Ans := .next (readCommand s r off.toNat size)
/-- TLY_VIEW_LATCH: TLY_VIEW_0. -/
def execTlyViewLatch (r : Requester) (s : State) : Ans := .next (readCommand s r 0x802004 4)
/-- WAY_VIEW_LATCH: WAY_VIEW_0. -/
def execWayViewLatch (r : Requester) (s : State) : Ans := .next (readCommand s r 0x609004 4)
/-- DBG_FROZEN_LATCH: DBG_FROZEN_0. -/
def execDbgFrozenLatch (r : Requester) (s : State) : Ans := .next (readCommand s r 0xB0001C 4)
/-- WGH_REC_LATCH: WGH_REC_0. -/
def execWghRecLatch (r : Requester) (s : State) : Ans := .next (readCommand s r 0x340040 4)
/-- PWR_TRIM_LATCH: PWR_TRIM_0. -/
def execPwrTrimLatch (r : Requester) (s : State) : Ans := .next (readCommand s r 0x300144 4)

/-! ## The I3C targets (R497) -/

/-- DYNAMIC_ADDRESS_ASSIGNMENT: to the target whose domain has power. -/
def execDynamicAddressAssignment (weigh : Bool) (addr : BitVec 7) (s : State) : Ans :=
  .next (
    if weigh then (if s.weigh.powered then modDev s (fun d => { d with i3cWeigh := some addr }) else s)
    else if s.dev.powered then modDev s (fun d => { d with i3cMgmt := some addr })
    else s)

end Sys2Proof.Machine
end

