-- ==== Sys2Proof/Machine/Dispatch.lean ====
section
/-! DEFINITION. One arm for each command: the meaning it calls. -/

namespace Sys2Proof.Machine

/-- The effect of a command on everything but the queue. -/
def exec (i : Instr) (s : State) : Host.Outcome State Fault Refusal :=
  match i with
  | .matmul q => Sys2Proof.Machine.execMatmul q s
  | .matmulBatched q => Sys2Proof.Machine.execMatmulBatched q s
  | .attend q => Sys2Proof.Machine.execAttend q s
  | .matvec q => Sys2Proof.Machine.execMatvec q s
  | .conv q => Sys2Proof.Machine.execConv q s
  | .transfer q => Sys2Proof.Machine.execTransfer q s
  | .ringConfig q => Sys2Proof.Machine.execRingConfig q s
  | .signalAdd q => Sys2Proof.Machine.execSignalAdd q s
  | .signalSub q => Sys2Proof.Machine.execSignalSub q s
  | .waitAtLeast q => Sys2Proof.Machine.execWaitAtLeast q s
  | .waitTake q => Sys2Proof.Machine.execWaitTake q s
  | .barrier q => Sys2Proof.Machine.execBarrier q s
  | .syncDump q => Sys2Proof.Machine.execSyncDump q s
  | .allReduce q => Sys2Proof.Machine.execAllReduce q s
  | .reduceScatter q => Sys2Proof.Machine.execReduceScatter q s
  | .allGather q => Sys2Proof.Machine.execAllGather q s
  | .allGatherV q => Sys2Proof.Machine.execAllGatherV q s
  | .allToAllV q => Sys2Proof.Machine.execAllToAllV q s
  | .broadcast q => Sys2Proof.Machine.execBroadcast q s
  | .send q => Sys2Proof.Machine.execSend q s
  | .recv q => Sys2Proof.Machine.execRecv q s
  | .sendrecv q => Sys2Proof.Machine.execSendrecv q s
  | .collectiveBarrier q => Sys2Proof.Machine.execCollectiveBarrier q s
  | .droverLaunch q => Sys2Proof.Machine.execDroverLaunch q s
  | .kvShip q => Sys2Proof.Machine.execKvShip q s
  | .kvImport q => Sys2Proof.Machine.execKvImport q s
  | .seal q => Sys2Proof.Machine.execSeal q s
  | .release q => Sys2Proof.Machine.execRelease q s
  | .renew q => Sys2Proof.Machine.execRenew q s
  | .openSequence q => Sys2Proof.Machine.execOpenSequence q s
  | .closeSequence q => Sys2Proof.Machine.execCloseSequence q s
  | .hint q => Sys2Proof.Machine.execHint q s
  | .snapshot q => Sys2Proof.Machine.execSnapshot q s
  | .freezeAt q => Sys2Proof.Machine.execFreezeAt q s
  | .fence q => Sys2Proof.Machine.execFence q s
  | .nop q => Sys2Proof.Machine.execNop q s
  | .packetFetch q slots => Sys2Proof.Machine.execPacketFetch q slots s
  | .packetComplete q => Sys2Proof.Machine.execPacketComplete q s
  | .blockPlace e => Sys2Proof.Machine.execBlockPlace e s
  | .tileCheck e hw => Sys2Proof.Machine.execTileCheck e hw s
  | .appendUnit q => Sys2Proof.Machine.execAppendUnit q s
  | .droverLaunchStart q => Sys2Proof.Machine.execDroverLaunchStart q s
  | .droverLaunchComplete q => Sys2Proof.Machine.execDroverLaunchComplete q s
  | .launchSlotTake e => Sys2Proof.Machine.execLaunchSlotTake e s
  | .addR d a => Sys2Proof.Machine.execAddR d a s
  | .subR d a => Sys2Proof.Machine.execSubR d a s
  | .andR d a => Sys2Proof.Machine.execAndR d a s
  | .orR d a => Sys2Proof.Machine.execOrR d a s
  | .xorR d a => Sys2Proof.Machine.execXorR d a s
  | .sll d a => Sys2Proof.Machine.execSll d a s
  | .srl d a => Sys2Proof.Machine.execSrl d a s
  | .sra d a => Sys2Proof.Machine.execSra d a s
  | .slt d a => Sys2Proof.Machine.execSlt d a s
  | .sltu d a => Sys2Proof.Machine.execSltu d a s
  | .minR d a => Sys2Proof.Machine.execMinR d a s
  | .maxR d a => Sys2Proof.Machine.execMaxR d a s
  | .minu d a => Sys2Proof.Machine.execMinu d a s
  | .maxu d a => Sys2Proof.Machine.execMaxu d a s
  | .mulR d a => Sys2Proof.Machine.execMulR d a s
  | .mulh d a => Sys2Proof.Machine.execMulh d a s
  | .mulhu d a => Sys2Proof.Machine.execMulhu d a s
  | .divR d a => Sys2Proof.Machine.execDivR d a s
  | .divu d a => Sys2Proof.Machine.execDivu d a s
  | .remR d a => Sys2Proof.Machine.execRemR d a s
  | .remu d a => Sys2Proof.Machine.execRemu d a s
  | .clz d a => Sys2Proof.Machine.execClz d a s
  | .popc d a => Sys2Proof.Machine.execPopc d a s
  | .addi d a => Sys2Proof.Machine.execAddi d a s
  | .slti d a => Sys2Proof.Machine.execSlti d a s
  | .andi d a => Sys2Proof.Machine.execAndi d a s
  | .ori d a => Sys2Proof.Machine.execOri d a s
  | .xori d a => Sys2Proof.Machine.execXori d a s
  | .slli d a => Sys2Proof.Machine.execSlli d a s
  | .srli d a => Sys2Proof.Machine.execSrli d a s
  | .srai d a => Sys2Proof.Machine.execSrai d a s
  | .lui d a => Sys2Proof.Machine.execLui d a s
  | .fadd d a => Sys2Proof.Machine.execFadd d a s
  | .fsub d a => Sys2Proof.Machine.execFsub d a s
  | .fmul d a => Sys2Proof.Machine.execFmul d a s
  | .fma d a => Sys2Proof.Machine.execFma d a s
  | .fdiv d a => Sys2Proof.Machine.execFdiv d a s
  | .fsqrt d a => Sys2Proof.Machine.execFsqrt d a s
  | .fmin d a => Sys2Proof.Machine.execFmin d a s
  | .fmax d a => Sys2Proof.Machine.execFmax d a s
  | .feq d a => Sys2Proof.Machine.execFeq d a s
  | .flt d a => Sys2Proof.Machine.execFlt d a s
  | .fle d a => Sys2Proof.Machine.execFle d a s
  | .fcvtws d a => Sys2Proof.Machine.execFcvtws d a s
  | .fcvtsw d a => Sys2Proof.Machine.execFcvtsw d a s
  | .lw d a => Sys2Proof.Machine.execLw d a s
  | .lh d a => Sys2Proof.Machine.execLh d a s
  | .lhu d a => Sys2Proof.Machine.execLhu d a s
  | .lb d a => Sys2Proof.Machine.execLb d a s
  | .lbu d a => Sys2Proof.Machine.execLbu d a s
  | .sw d a => Sys2Proof.Machine.execSw d a s
  | .sh d a => Sys2Proof.Machine.execSh d a s
  | .sb d a => Sys2Proof.Machine.execSb d a s
  | .beq d a => Sys2Proof.Machine.execBeq d a s
  | .bne d a => Sys2Proof.Machine.execBne d a s
  | .blt d a => Sys2Proof.Machine.execBlt d a s
  | .bge d a => Sys2Proof.Machine.execBge d a s
  | .bltu d a => Sys2Proof.Machine.execBltu d a s
  | .bgeu d a => Sys2Proof.Machine.execBgeu d a s
  | .jal d off => Sys2Proof.Machine.execJal d off s
  | .jalr d a => Sys2Proof.Machine.execJalr d a s
  | .csrr d a => Sys2Proof.Machine.execCsrr d a s
  | .csrw d a => Sys2Proof.Machine.execCsrw d a s
  | .tsig d a => Sys2Proof.Machine.execTsig d a s
  | .twait d a => Sys2Proof.Machine.execTwait d a s
  | .tbar d a => Sys2Proof.Machine.execTbar d a s
  | .tread d a => Sys2Proof.Machine.execTread d a s
  | .droverFence d a => Sys2Proof.Machine.execDroverFence d a s
  | .mlaunch d a => Sys2Proof.Machine.execMlaunch d a s
  | .mpoll d a => Sys2Proof.Machine.execMpoll d a s
  | .brk d a => Sys2Proof.Machine.execBrk d a s
  | .halt d a => Sys2Proof.Machine.execHalt d a s
  | .vaddFp d a => Sys2Proof.Machine.execVaddFp d a s
  | .vsubFp d a => Sys2Proof.Machine.execVsubFp d a s
  | .vmulFp d a => Sys2Proof.Machine.execVmulFp d a s
  | .vfma d a => Sys2Proof.Machine.execVfma d a s
  | .vminFp d a => Sys2Proof.Machine.execVminFp d a s
  | .vmaxFp d a => Sys2Proof.Machine.execVmaxFp d a s
  | .vabs d a => Sys2Proof.Machine.execVabs d a s
  | .vneg d a => Sys2Proof.Machine.execVneg d a s
  | .vcmpeqFp d a => Sys2Proof.Machine.execVcmpeqFp d a s
  | .vcmpltFp d a => Sys2Proof.Machine.execVcmpltFp d a s
  | .vcmple d a => Sys2Proof.Machine.execVcmple d a s
  | .vexp2 d a => Sys2Proof.Machine.execVexp2 d a s
  | .vlog2 d a => Sys2Proof.Machine.execVlog2 d a s
  | .vrcp d a => Sys2Proof.Machine.execVrcp d a s
  | .vrsqrt d a => Sys2Proof.Machine.execVrsqrt d a s
  | .vaddInt d a => Sys2Proof.Machine.execVaddInt d a s
  | .vsubInt d a => Sys2Proof.Machine.execVsubInt d a s
  | .vmulInt d a => Sys2Proof.Machine.execVmulInt d a s
  | .vaddsat d a => Sys2Proof.Machine.execVaddsat d a s
  | .vminInt d a => Sys2Proof.Machine.execVminInt d a s
  | .vmaxInt d a => Sys2Proof.Machine.execVmaxInt d a s
  | .vcmpeqInt d a => Sys2Proof.Machine.execVcmpeqInt d a s
  | .vcmpltInt d a => Sys2Proof.Machine.execVcmpltInt d a s
  | .vand d a => Sys2Proof.Machine.execVand d a s
  | .vor d a => Sys2Proof.Machine.execVor d a s
  | .vxor d a => Sys2Proof.Machine.execVxor d a s
  | .vsel d a => Sys2Proof.Machine.execVsel d a s
  | .vsll d a => Sys2Proof.Machine.execVsll d a s
  | .vsrl d a => Sys2Proof.Machine.execVsrl d a s
  | .vsra d a => Sys2Proof.Machine.execVsra d a s
  | .vsplat d a => Sys2Proof.Machine.execVsplat d a s
  | .vins d a => Sys2Proof.Machine.execVins d a s
  | .vext d a => Sys2Proof.Machine.execVext d a s
  | .vmov d a => Sys2Proof.Machine.execVmov d a s
  | .vrsum d a => Sys2Proof.Machine.execVrsum d a s
  | .vrmax d a => Sys2Proof.Machine.execVrmax d a s
  | .vrmin d a => Sys2Proof.Machine.execVrmin d a s
  | .vrmaxi d a => Sys2Proof.Machine.execVrmaxi d a s
  | .vradd d a => Sys2Proof.Machine.execVradd d a s
  | .vperm d a => Sys2Proof.Machine.execVperm d a s
  | .vrot d a => Sys2Proof.Machine.execVrot d a s
  | .vsort d a => Sys2Proof.Machine.execVsort d a s
  | .vcvt d a => Sys2Proof.Machine.execVcvt d a s
  | .vpack d a => Sys2Proof.Machine.execVpack d a s
  | .vunpk d a => Sys2Proof.Machine.execVunpk d a s
  | .vld d a => Sys2Proof.Machine.execVld d a s
  | .vst d a => Sys2Proof.Machine.execVst d a s
  | .vgath d a => Sys2Proof.Machine.execVgath d a s
  | .vscat d a => Sys2Proof.Machine.execVscat d a s
  | .tallyOperationArrival n => Sys2Proof.Machine.execTallyOperationArrival n s
  | .combineFlush c => Sys2Proof.Machine.execCombineFlush c s
  | .waiterWake n cycles => Sys2Proof.Machine.execWaiterWake n cycles s
  | .waiterSleep n => Sys2Proof.Machine.execWaiterSleep n s
  | .tallyCreate r p ctx vid => Sys2Proof.Machine.execTallyCreate r p ctx vid s
  | .tallyDestroy r p ctx vid => Sys2Proof.Machine.execTallyDestroy r p ctx vid s
  | .tallySetValue r p ctx vid => Sys2Proof.Machine.execTallySetValue r p ctx vid s
  | .tallyClearFlags r p ctx vid => Sys2Proof.Machine.execTallyClearFlags r p ctx vid s
  | .hostTallySignal r q vid amount => Sys2Proof.Machine.execHostTallySignal r q vid amount s
  | .transferDelivery x atsHit => Sys2Proof.Machine.execTransferDelivery x atsHit s
  | .channelSlotStart x => Sys2Proof.Machine.execChannelSlotStart x s
  | .transferComplete q => Sys2Proof.Machine.execTransferComplete q s
  | .ringConfigApply q e => Sys2Proof.Machine.execRingConfigApply q e s
  | .pageRequestResponse x code => Sys2Proof.Machine.execPageRequestResponse x code s
  | .pageRequestTimeout x => Sys2Proof.Machine.execPageRequestTimeout x s
  | .refetchDone n ok data => Sys2Proof.Machine.execRefetchDone n ok data s
  | .convoyOpening src m data => Sys2Proof.Machine.execConvoyOpening src m data s
  | .convoyAbort src m => Sys2Proof.Machine.execConvoyAbort src m s
  | .convoyChunk src c data wordOk => Sys2Proof.Machine.execConvoyChunk src c data wordOk s
  | .convoyAcknowledgement src m => Sys2Proof.Machine.execConvoyAcknowledgement src m s
  | .convoyReRequest src m => Sys2Proof.Machine.execConvoyReRequest src m s
  | .chunkTake ch => Sys2Proof.Machine.execChunkTake ch s
  | .chunkReduce ch k fails => Sys2Proof.Machine.execChunkReduce ch k fails s
  | .chunkDoneSignal ch => Sys2Proof.Machine.execChunkDoneSignal ch s
  | .collectiveTimeout ch => Sys2Proof.Machine.execCollectiveTimeout ch s
  | .switchBarrierRelease g vid => Sys2Proof.Machine.execSwitchBarrierRelease g vid s
  | .streamTakePage st => Sys2Proof.Machine.execStreamTakePage st s
  | .caravanAck src m => Sys2Proof.Machine.execCaravanAck src m s
  | .caravanNack src m => Sys2Proof.Machine.execCaravanNack src m s
  | .manifestAck src m => Sys2Proof.Machine.execManifestAck src m s
  | .sendManifest st => Sys2Proof.Machine.execSendManifest st s
  | .retransmitTimeout st w => Sys2Proof.Machine.execRetransmitTimeout st w s
  | .retryAfterExpiry st w => Sys2Proof.Machine.execRetryAfterExpiry st w s
  | .dockAck r st slot => Sys2Proof.Machine.execDockAck r st slot s
  | .dockNackBusy r st slot retryAfter => Sys2Proof.Machine.execDockNackBusy r st slot retryAfter s
  | .dockNackRefused r st slot => Sys2Proof.Machine.execDockNackRefused r st slot s
  | .frameGrant p => Sys2Proof.Machine.execFrameGrant p s
  | .swapOutDone w => Sys2Proof.Machine.execSwapOutDone w s
  | .swapIn q w => Sys2Proof.Machine.execSwapIn q w s
  | .swapInDone w => Sys2Proof.Machine.execSwapInDone w s
  | .bar2Read f rid off len => Sys2Proof.Machine.execBar2Read f rid off len s
  | .bar2Write f rid off data => Sys2Proof.Machine.execBar2Write f rid off data s
  | .unsupportedRequest f rid => Sys2Proof.Machine.execUnsupportedRequest f rid s
  | .pcieConfigRequest f off => Sys2Proof.Machine.execPcieConfigRequest f off s
  | .atsInvalidate p pasid addr bytes => Sys2Proof.Machine.execAtsInvalidate p pasid addr bytes s
  | .xltInvalContext r ctx => Sys2Proof.Machine.execXltInvalContext r ctx s
  | .xltInvalRange r ctx vaHi pages => Sys2Proof.Machine.execXltInvalRange r ctx vaHi pages s
  | .invalidationDone ctx => Sys2Proof.Machine.execInvalidationDone ctx s
  | .scrub st => Sys2Proof.Machine.execScrub st s
  | .rolreMemoryWrite h data sig => Sys2Proof.Machine.execRolreMemoryWrite h data sig s
  | .rolreReadRequest h len => Sys2Proof.Machine.execRolreReadRequest h len s
  | .rolreReadResponse h data => Sys2Proof.Machine.execRolreReadResponse h data s
  | .rolreWriteAck h => Sys2Proof.Machine.execRolreWriteAck h s
  | .rolreTallyOperation h sig sub => Sys2Proof.Machine.execRolreTallyOperation h sig sub s
  | .lockProposal src g boundary code => Sys2Proof.Machine.execLockProposal src g boundary code s
  | .lockRoundDeadline => Sys2Proof.Machine.execLockRoundDeadline s
  | .epochSymbol p n fecOk offsetNs => Sys2Proof.Machine.execEpochSymbol p n fecOk offsetNs s
  | .delayRequest p txTime rxTime => Sys2Proof.Machine.execDelayRequest p txTime rxTime s
  | .delayResponse p txTime now => Sys2Proof.Machine.execDelayResponse p txTime now s
  | .delayMeasure p now => Sys2Proof.Machine.execDelayMeasure p now s
  | .retryRequest p fseq => Sys2Proof.Machine.execRetryRequest p fseq s
  | .trainingFlit p width fid peer => Sys2Proof.Machine.execTrainingFlit p width fid peer s
  | .reservedFlit p kind => Sys2Proof.Machine.execReservedFlit p kind s
  | .trainingTimeout p => Sys2Proof.Machine.execTrainingTimeout p s
  | .portDownRetry p => Sys2Proof.Machine.execPortDownRetry p s
  | .laneNotGood p l => Sys2Proof.Machine.execLaneNotGood p l s
  | .laneGoodAgain p l => Sys2Proof.Machine.execLaneGoodAgain p l s
  | .epochHoldover => Sys2Proof.Machine.execEpochHoldover s
  | .epochLost => Sys2Proof.Machine.execEpochLost s
  | .epochPulse offsetNs => Sys2Proof.Machine.execEpochPulse offsetNs s
  | .epochPulseMissing => Sys2Proof.Machine.execEpochPulseMissing s
  | .snapshotLatch => Sys2Proof.Machine.execSnapshotLatch s
  | .controlInterval m => Sys2Proof.Machine.execControlInterval m s
  | .controlFeedTimeout => Sys2Proof.Machine.execControlFeedTimeout s
  | .stepChange => Sys2Proof.Machine.execStepChange s
  | .currentLimiterSample d watts => Sys2Proof.Machine.execCurrentLimiterSample d watts s
  | .sensorRead t => Sys2Proof.Machine.execSensorRead t s
  | .thermalFloorExit => Sys2Proof.Machine.execThermalFloorExit s
  | .supplyAlert sources => Sys2Proof.Machine.execSupplyAlert sources s
  | .supplyAlertClear => Sys2Proof.Machine.execSupplyAlertClear s
  | .guardBandReview d slackMv => Sys2Proof.Machine.execGuardBandReview d slackMv s
  | .hintPhaseEnd ctx phase => Sys2Proof.Machine.execHintPhaseEnd ctx phase s
  | .weighhouseSample volts amps => Sys2Proof.Machine.execWeighhouseSample volts amps s
  | .weighhouseInterval => Sys2Proof.Machine.execWeighhouseInterval s
  | .weighhouseCheckpoint => Sys2Proof.Machine.execWeighhouseCheckpoint s
  | .checkpointRequest r => Sys2Proof.Machine.execCheckpointRequest r s
  | .checkpointSigned => Sys2Proof.Machine.execCheckpointSigned s
  | .weighhouseRecalibration authorised measured => Sys2Proof.Machine.execWeighhouseRecalibration authorised measured s
  | .sqDoorbell r q tail => Sys2Proof.Machine.execSqDoorbell r q tail s
  | .cqHeadWrite r q head => Sys2Proof.Machine.execCqHeadWrite r q head s
  | .queueEnable r q => Sys2Proof.Machine.execQueueEnable r q s
  | .queueDisable r q => Sys2Proof.Machine.execQueueDisable r q s
  | .queueResume r q => Sys2Proof.Machine.execQueueResume r q s
  | .queueAdopt r q => Sys2Proof.Machine.execQueueAdopt r q s
  | .msixCoalesceTimeout f vec => Sys2Proof.Machine.execMsixCoalesceTimeout f vec s
  | .contextReset r ctx => Sys2Proof.Machine.execContextReset r ctx s
  | .contextAbort r ctx => Sys2Proof.Machine.execContextAbort r ctx s
  | .functionLevelReset f => Sys2Proof.Machine.execFunctionLevelReset f s
  | .perst p low => Sys2Proof.Machine.execPerst p low s
  | .groupLoad r p g ctx => Sys2Proof.Machine.execGroupLoad r p g ctx s
  | .groupInvalidate r p g ctx => Sys2Proof.Machine.execGroupInvalidate r p g ctx s
  | .groupResetSequences r p g ctx => Sys2Proof.Machine.execGroupResetSequences r p g ctx s
  | .groupRead r p g ctx => Sys2Proof.Machine.execGroupRead r p g ctx s
  | .imageValidate r image signed => Sys2Proof.Machine.execImageValidate r image signed s
  | .imageApply r image signed enrol kst => Sys2Proof.Machine.execImageApply r image signed enrol kst s
  | .applyQuiesceDone => Sys2Proof.Machine.execApplyQuiesceDone s
  | .applyQuiesceTimeout => Sys2Proof.Machine.execApplyQuiesceTimeout s
  | .recoveryGo r fw verified => Sys2Proof.Machine.execRecoveryGo r fw verified s
  | .firmwareUpdate fw verified notReady => Sys2Proof.Machine.execFirmwareUpdate fw verified notReady s
  | .handoverTimeout dom => Sys2Proof.Machine.execHandoverTimeout dom s
  | .getVersion t => Sys2Proof.Machine.execGetVersion t s
  | .getCapabilities t => Sys2Proof.Machine.execGetCapabilities t s
  | .negotiateAlgorithms t => Sys2Proof.Machine.execNegotiateAlgorithms t s
  | .getDigests t => Sys2Proof.Machine.execGetDigests t s
  | .getCertificate t slot off len => Sys2Proof.Machine.execGetCertificate t slot off len s
  | .challenge t slot => Sys2Proof.Machine.execChallenge t slot s
  | .getMeasurements t index signed => Sys2Proof.Machine.execGetMeasurements t index signed s
  | .keyExchange t slot => Sys2Proof.Machine.execKeyExchange t slot s
  | .finish t session => Sys2Proof.Machine.execFinish t session s
  | .heartbeat t session => Sys2Proof.Machine.execHeartbeat t session s
  | .keyUpdate t session op => Sys2Proof.Machine.execKeyUpdate t session op s
  | .endSession t session => Sys2Proof.Machine.execEndSession t session s
  | .chunkSend t handle seqNo last data => Sys2Proof.Machine.execChunkSend t handle seqNo last data s
  | .chunkGet t handle seqNo => Sys2Proof.Machine.execChunkGet t handle seqNo s
  | .respondIfReady t token => Sys2Proof.Machine.execRespondIfReady t token s
  | .signatureDone => Sys2Proof.Machine.execSignatureDone s
  | .pldmPlatformRequest t changes sensor => Sys2Proof.Machine.execPldmPlatformRequest t changes sensor s
  | .selfTestDone e pass => Sys2Proof.Machine.execSelfTestDone e pass s
  | .fenceCloseTimeout e => Sys2Proof.Machine.execFenceCloseTimeout e s
  | .unitRejoin u => Sys2Proof.Machine.execUnitRejoin u s
  | .slotRetest c slot pass => Sys2Proof.Machine.execSlotRetest c slot pass s
  | .parkedSwap c => Sys2Proof.Machine.execParkedSwap c s
  | .releaseResume r kind index => Sys2Proof.Machine.execReleaseResume r kind index s
  | .releaseDiscard r kind index => Sys2Proof.Machine.execReleaseDiscard r kind index s
  | .disarm r => Sys2Proof.Machine.execDisarm r s
  | .deviceFreeze => Sys2Proof.Machine.execDeviceFreeze s
  | .haltAll => Sys2Proof.Machine.execHaltAll s
  | .debugDump r => Sys2Proof.Machine.execDebugDump r s
  | .hyFreeze => Sys2Proof.Machine.execHyFreeze s
  | .hyDump => Sys2Proof.Machine.execHyDump s
  | .hyWarm => Sys2Proof.Machine.execHyWarm s
  | .idcode => Sys2Proof.Machine.execIdcode s
  | .bypass => Sys2Proof.Machine.execBypass s
  | .samplePreload => Sys2Proof.Machine.execSamplePreload s
  | .extest => Sys2Proof.Machine.execExtest s
  | .trst => Sys2Proof.Machine.execTrst s
  | .powerOn flashExtLow b => Sys2Proof.Machine.execPowerOn flashExtLow b s
  | .powerDown => Sys2Proof.Machine.execPowerDown s
  | .weighhousePowerOff => Sys2Proof.Machine.execWeighhousePowerOff s
  | .coldReset b => Sys2Proof.Machine.execColdReset b s
  | .warmDeviceReset => Sys2Proof.Machine.execWarmDeviceReset s
  | .glbResetPartition r p => Sys2Proof.Machine.execGlbResetPartition r p s
  | .glbResetWarm r => Sys2Proof.Machine.execGlbResetWarm r s
  | .flashExtRelease b => Sys2Proof.Machine.execFlashExtRelease b s
  | .registerWrite r off size value => Sys2Proof.Machine.execRegisterWrite r off size value s
  | .rcRead r off size => Sys2Proof.Machine.execRcRead r off size s
  | .hiHalfLatchRead r off size => Sys2Proof.Machine.execHiHalfLatchRead r off size s
  | .tlyViewLatch r => Sys2Proof.Machine.execTlyViewLatch r s
  | .wayViewLatch r => Sys2Proof.Machine.execWayViewLatch r s
  | .dbgFrozenLatch r => Sys2Proof.Machine.execDbgFrozenLatch r s
  | .wghRecLatch r => Sys2Proof.Machine.execWghRecLatch r s
  | .pwrTrimLatch r => Sys2Proof.Machine.execPwrTrimLatch r s
  | .arrayRampDown e => Sys2Proof.Machine.execArrayRampDown e s
  | .receivedFlit p f => Sys2Proof.Machine.execReceivedFlit p f s
  | .partnerSignalDetected p => Sys2Proof.Machine.execPartnerSignalDetected p s
  | .laneLock p lanes => Sys2Proof.Machine.execLaneLock p lanes s
  | .codewordAlignment p => Sys2Proof.Machine.execCodewordAlignment p s
  | .illegalInstruction d => Sys2Proof.Machine.execIllegalInstruction d s
  | .fetchOutsideImage d => Sys2Proof.Machine.execFetchOutsideImage d s
  | .selfCheck u => Sys2Proof.Machine.execSelfCheck u s
  | .pseudoChannelCopyDone st pc => Sys2Proof.Machine.execPseudoChannelCopyDone st pc s
  | .haltAllNHigh => Sys2Proof.Machine.execHaltAllNHigh s
  | .missingReferenceClock c => Sys2Proof.Machine.execMissingReferenceClock c s
  | .dynamicAddressAssignment weigh addr => Sys2Proof.Machine.execDynamicAddressAssignment weigh addr s

end Sys2Proof.Machine
end

