-- ==== Sys2Proof/Machine/Tick.lean ====
section
/-! DEFINITION. One stage of time: what the device does at a stage boundary without a command (log 3). -/

namespace Sys2Proof.Machine

/-- A packet of a queue is in execution: its `busy_stages` count (R483). -/
def countBusy (s : State) : State :=
  (s.host.queues.filter (fun x => x.2.run.isSome)).foldl (fun t x => addCtr t 8 x.1 4 1) s

/-- Convoy watchdogs count stages without progress (R296); a frozen channel's stands still. -/
def countSilent (s : State) : State :=
  { s with conv := { s.conv with chans := tabMap {} (fun n c =>
    if c.prog.isSome && !isFrozen s 4 n then { c with silent := c.silent + 1 } else c) s.conv.chans } }

/-- A queue of the partition being reset has re-run up to its commit index: nothing waits to run again, or it issues again,
or it cannot (R494, R495). -/
def queueRerun (s : State) (q : Nat) : Bool :=
  let u := getQ s q
  u.journal.isEmpty || u.run.isSome || u.stopped || isFrozen s 1 (qCtx s q) || isFrozen s 8 q

/-- `busy` of GLB_RESET ends. -/
def endPartReset (s : State) : State :=
  match s.dev.partReset with
  | none => s
  | some p =>
    let ctxs := match getPart s p with | some x => x.contexts | none => []
    if ctxs.all (fun c => (ctxQueues s c).all (queueRerun s)) then modDev s (fun d => { d with partReset := none }) else s

/-- What a stage does while the arithmetic clocks run. -/
def stageWork (s : State) (lo : Nat) : State :=
  let s1 := takeCuts (countBusy s) lo
  let s2 := (upFrom 0 32).foldl settle (countSilent s1)
  let s3 := (s2.comp.chans.map (·.1)).foldl endXfer (settleDestroys (serveKvAll s2))
  endPartReset s3

/-- Time: the stage counter, the silence of the epoch source, and the stages that throttle reasons are active. -/
def passTime (s : State) : State :=
  let s1 := { modEpoch s (fun e => { e with silent := if e.silent = 0xFFFFF then e.silent else e.silent + 1 }) with stage := s.stage + 1 }
  if powerRuns s1 then modPower s1 (fun w => { w with reasons := w.reasons.map reasonStage }) else s1

/-- One stage passes. A module without power keeps no time; a frozen device only counts. -/
def stageTick (s : State) : State :=
  if !s.dev.powered then s
  else
    let s1 := passTime s
    if devRuns s1 then handOvers (stageWork s1 s.stage.toNat) else s1

end Sys2Proof.Machine
end

