-- ==== Sys2Proof/Safety.lean ====
section
/-! DEFINITION. The terms claims are stated in: what it means that a command completes with an effect, which parts of the
state a command may change, and what one drover instruction makes of its drover. -/

namespace Sys2Proof.Safety
open Sys2Proof.Machine

/-- The command answers a next state, and that state has the property. -/
def Completes (c : Instr) (s : State) (post : State → Prop) : Prop :=
  ∃ t, exec c s = .next t ∧ post t

/-! ## Drovers -/

/-- Nothing but the record of drover d and the count of the instructions its engine has executed (R483) differs. -/
def OnlyDrover (d : DroverId) (s t : State) : Prop :=
  t = { s with comp := { s.comp with drovers := t.comp.drovers }, fab := { s.fab with counters := t.fab.counters } } ∧
  (∀ e, e ≠ d.val → getDrv t e = getDrv s e) ∧
  tabGet 0 t.fab.counters (ctrKey 2 (engOf d) 9) = (tabGet 0 s.fab.counters (ctrKey 2 (engOf d) 9) + 1) % 2 ^ 64 ∧
  (∀ k, k ≠ ctrKey 2 (engOf d) 9 → tabGet 0 t.fab.counters k = tabGet 0 s.fab.counters k)

/-- Drover d has scalar registers x, vector registers v, program counter pc and flags fl; it runs on with the same identity. -/
def DroverIs (d : DroverId) (s t : State) (x : Nat → Word) (v : Nat → BitVec 256) (pc : Word) (fl : BitVec 5) : Prop :=
  (∀ i, i < 32 → getX t d i = x i) ∧ (∀ i, i < 16 → getV t d i = v i) ∧
  (getDrv t d).pc = pc ∧ (getDrv t d).fflags = fl ∧
  (getDrv t d).st = (getDrv s d).st ∧ (getDrv t d).ordinal = (getDrv s d).ordinal ∧ (getDrv t d).ord = (getDrv s d).ord

/-- The scalar registers after rd := w: x0 reads zero and discards the write (R149). -/
def xAfter (s : State) (d : DroverId) (rd : BitVec 5) (w : Word) (i : Nat) : Word :=
  if i = rd.toNat ∧ i ≠ 0 then w else getX s d i

/-- The vector registers after vd := x. -/
def vAfter (s : State) (d : DroverId) (vd : BitVec 4) (x : BitVec 256) (i : Nat) : BitVec 256 :=
  if i = vd.toNat then x else getV s d i

/-- The flags after an instruction that raises f: FFLAGS is sticky (R153). -/
def flAfter (s : State) (d : DroverId) (f : FFlags) : BitVec 5 := (getDrv s d).fflags ||| BitVec.ofNat 5 f.bits

/-- rd := w and on to the next instruction; everything else as before. -/
def WritesX (d : DroverId) (s : State) (rd : BitVec 5) (w : Word) (fl : BitVec 5) (t : State) : Prop :=
  OnlyDrover d s t ∧ DroverIs d s t (xAfter s d rd w) (getV s d) ((getDrv s d).pc + 4) fl

/-- vd := x and on to the next instruction; everything else as before. -/
def WritesV (d : DroverId) (s : State) (vd : BitVec 4) (x : BitVec 256) (fl : BitVec 5) (t : State) : Prop :=
  OnlyDrover d s t ∧ DroverIs d s t (getX s d) (vAfter s d vd x) ((getDrv s d).pc + 4) fl

/-- pc := p; everything else as before, but for the link register. -/
def Jumps (d : DroverId) (s : State) (rd : BitVec 5) (w p : Word) (t : State) : Prop :=
  OnlyDrover d s t ∧ DroverIs d s t (xAfter s d rd w) (getV s d) p (getDrv s d).fflags

/-- A drover fault (R176): the group of the drover is frozen, and the drover's registers, program counter and flags are as
they were. -/
def DroverFaults (d : DroverId) (s t : State) : Prop :=
  isFrozen t 2 (grpOf d) = true ∧ DroverIs d s t (getX s d) (getV s d) (getDrv s d).pc (getDrv s d).fflags

/-- The signed quotient of R157: truncated toward zero, −1 for a zero divisor, −2³¹ for −2³¹ / −1. -/
def quotient (x y : Word) : Word :=
  if y = 0 then 0xFFFFFFFF else if x = 0x80000000 ∧ y = 0xFFFFFFFF then 0x80000000 else BitVec.ofInt 32 (x.toInt.tdiv y.toInt)
/-- The signed remainder of R157: the dividend for a zero divisor, 0 for −2³¹ / −1. -/
def remainder (x y : Word) : Word :=
  if y = 0 then x else if x = 0x80000000 ∧ y = 0xFFFFFFFF then 0 else BitVec.ofInt 32 (x.toInt.tmod y.toInt)

/-- The number of zero bits above the highest one. -/
def zerosAbove (x : Word) : Word := BitVec.ofNat 32 ((List.range 32).takeWhile (fun i => !x.getLsbD (31 - i))).length

/-- The integer instructions of format R and the value each gives rd (R156, R157). -/
def aluRows : List ((DroverId → RArgs → Instr) × (Word → Word → Word)) :=
  [(Instr.addR, fun x y => x + y), (Instr.subR, fun x y => x - y), (Instr.andR, fun x y => x &&& y),
   (Instr.orR, fun x y => x ||| y), (Instr.xorR, fun x y => x ^^^ y),
   (Instr.sll, fun x y => x <<< (y.extractLsb' 0 5).toNat), (Instr.srl, fun x y => x >>> (y.extractLsb' 0 5).toNat),
   (Instr.sra, fun x y => x.sshiftRight (y.extractLsb' 0 5).toNat),
   (Instr.slt, fun x y => if x.toInt < y.toInt then 1 else 0), (Instr.sltu, fun x y => if x.toNat < y.toNat then 1 else 0),
   (Instr.minR, fun x y => if x.toInt < y.toInt then x else y), (Instr.maxR, fun x y => if x.toInt < y.toInt then y else x),
   (Instr.minu, fun x y => if x.toNat < y.toNat then x else y), (Instr.maxu, fun x y => if x.toNat < y.toNat then y else x),
   (Instr.mulR, fun x y => x * y), (Instr.mulh, fun x y => BitVec.ofInt 32 (x.toInt * y.toInt / 2 ^ 32)),
   (Instr.mulhu, fun x y => BitVec.ofNat 32 (x.toNat * y.toNat / 2 ^ 32)),
   (Instr.divR, quotient), (Instr.divu, fun x y => if y = 0 then 0xFFFFFFFF else BitVec.ofNat 32 (x.toNat / y.toNat)),
   (Instr.remR, remainder), (Instr.remu, fun x y => if y = 0 then x else BitVec.ofNat 32 (x.toNat % y.toNat)),
   (Instr.clz, fun x _ => zerosAbove x),
   (Instr.popc, fun x _ => BitVec.ofNat 32 ((List.range 32).filter x.getLsbD).length)]

/-- The integer instructions of format I and the value each gives rd: ADDI and SLTI sign-extend, the others zero-extend
(R156). -/
def immRows : List ((DroverId → IArgs → Instr) × (Word → BitVec 16 → Word)) :=
  [(Instr.addi, fun x i => x + i.signExtend 32),
   (Instr.slti, fun x i => if x.toInt < i.toInt then 1 else 0),
   (Instr.andi, fun x i => x &&& i.zeroExtend 32), (Instr.ori, fun x i => x ||| i.zeroExtend 32),
   (Instr.xori, fun x i => x ^^^ i.zeroExtend 32), (Instr.lui, fun _ i => i ++ 0#16)]

/-- The shifts by an immediate (R156). -/
def shiftRows : List ((DroverId → ShArgs → Instr) × (Word → Nat → Word)) :=
  [(Instr.slli, fun x n => x <<< n), (Instr.srli, fun x n => x >>> n), (Instr.srai, fun x n => x.sshiftRight n)]

/-- The FP32 instructions of two operands, with the pattern and flags each gives (R153, R156). -/
def fpRows : List ((DroverId → RArgs → Instr) × (Nat → Nat → Nat × FFlags)) :=
  [(Instr.fadd, fpAdd fp32), (Instr.fsub, fpSub fp32), (Instr.fmul, fpMul fp32), (Instr.fdiv, fpDiv fp32),
   (Instr.fmin, fpMinMax fp32 false), (Instr.fmax, fpMinMax fp32 true), (Instr.fsqrt, fun x _ => fpSqrt fp32 x),
   (Instr.feq, fun x y => (if (fpEq fp32 x y).1 then 1 else 0, (fpEq fp32 x y).2)),
   (Instr.flt, fun x y => (if (fpLt fp32 x y).1 then 1 else 0, (fpLt fp32 x y).2)),
   (Instr.fle, fun x y => (if (fpLe fp32 x y).1 then 1 else 0, (fpLe fp32 x y).2)),
   (Instr.fcvtws, fun x _ => (wrapInt 32 (toIntSat 32 (v32 x)).1, (toIntSat 32 (v32 x)).2)),
   (Instr.fcvtsw, fun x _ => toIeee fp32 (ofInt (BitVec.ofNat 32 x).toInt))]

/-- The scalar loads: bytes read and how the value is extended (R156). -/
def loadRows : List ((DroverId → IArgs → Instr) × Nat × (Nat → Word)) :=
  [(Instr.lw, 4, fun v => BitVec.ofNat 32 v), (Instr.lh, 2, fun v => (BitVec.ofNat 16 v).signExtend 32),
   (Instr.lhu, 2, fun v => (BitVec.ofNat 16 v).zeroExtend 32), (Instr.lb, 1, fun v => (BitVec.ofNat 8 v).signExtend 32),
   (Instr.lbu, 1, fun v => (BitVec.ofNat 8 v).zeroExtend 32)]

/-- The scalar stores and the bytes each stores (R156). -/
def storeRows : List ((DroverId → IArgs → Instr) × Nat) := [(Instr.sw, 4), (Instr.sh, 2), (Instr.sb, 1)]

/-- The branches and the condition of each (R156). -/
def branchRows : List ((DroverId → BArgs → Instr) × (Word → Word → Bool)) :=
  [(Instr.beq, fun x y => decide (x = y)), (Instr.bne, fun x y => decide (x ≠ y)),
   (Instr.blt, fun x y => decide (x.toInt < y.toInt)), (Instr.bge, fun x y => decide (y.toInt ≤ x.toInt)),
   (Instr.bltu, fun x y => decide (x.toNat < y.toNat)), (Instr.bgeu, fun x y => decide (y.toNat ≤ x.toNat))]

/-- A read of n bytes at a window address is aligned, lies in a region and meets no uncorrectable word (R145, R146). -/
def Readable (s : State) (d addr n : Nat) : Prop :=
  addr % n = 0 ∧ match winPlace d addr with
    | .loc _ => True
    | .istore _ => True
    | .mem ga => badBurst s ga n = none
    | .outside => False

/-- A store of n bytes at a window address is aligned and lies in a region that takes stores (R145). -/
def Writable (d addr n : Nat) : Prop :=
  addr % n = 0 ∧ match winPlace d addr with
    | .loc _ => True
    | .mem _ => True
    | .istore _ => False
    | .outside => False

/-- The n bytes that a drover reads at a window address (R145). -/
def windowBytes (s : State) (d addr n : Nat) : List Byte :=
  match winPlace d addr with
  | .loc off => lstoreBytes s d off n
  | .istore off => istoreBytes s (grpOf d) off n
  | .mem ga => localRead s ga n
  | .outside => []

/-- What a load leaves besides its register: nothing differs where no word bears an error pattern; otherwise the words it
corrected have been written back (R199), and every byte is seen as before. -/
def LoadKeeps (d : DroverId) (s t : State) : Prop :=
  (s.mem.errors = [] → OnlyDrover d s t) ∧ (∀ b, byteSeen t b = byteSeen s b) ∧ (∀ e, e ≠ d.val → getDrv t e = getDrv s e) ∧
  t.comp.lstore = s.comp.lstore ∧ t.comp.istore = s.comp.istore ∧ t.sync = s.sync ∧ t.kv = s.kv ∧ t.frozen = s.frozen

/-- What a store of bytes at a window address leaves: in the local store, or in memory where no word bears an error pattern,
the stored bytes read as stored and every other byte as before; the drover's registers and flags are as before. -/
def Stores (d : DroverId) (s : State) (addr : Nat) (bs : List Byte) (t : State) : Prop :=
  DroverIs d s t (getX s d) (getV s d) ((getDrv s d).pc + 4) (getDrv s d).fflags ∧
  (∀ e, e ≠ d.val → getDrv t e = getDrv s e) ∧ t.comp.istore = s.comp.istore ∧ t.sync = s.sync ∧ t.kv = s.kv ∧
  t.frozen = s.frozen ∧
  match winPlace d addr with
  | .loc off => t.mem = s.mem ∧ ∀ k, tabGet 0 t.comp.lstore k =
      if lstoreKey d off ≤ k ∧ k < lstoreKey d off + bs.length then (bs[k - lstoreKey d off]?).getD 0 else tabGet 0 s.comp.lstore k
  | .mem ga => t.comp.lstore = s.comp.lstore ∧ (s.mem.errors = [] → ∀ k, memByte t k =
      if ga ≤ k ∧ k < ga + bs.length then (bs[k - ga]?).getD 0 else memByte s k)
  | _ => False

/-- What a tally instruction leaves: the drover waits at the instruction, its operation is on its way, and no tally has
changed yet (R167). -/
def TallyIssued (d : DroverId) (s : State) (code vid scope : Nat) (amount : Word) (dest : Nat) (t : State) : Prop :=
  (∃ node, t.sync.flight = s.sync.flight ++ [{ drvOp s d code scope vid amount dest with node := node }]) ∧
  t.sync.tallies = s.sync.tallies ∧ t.sync.waiters = s.sync.waiters ∧ t.mem = s.mem ∧
  (getDrv t d).st = .waiting ∧ (getDrv t d).pc = (getDrv s d).pc ∧ (∀ i, i < 32 → getX t d i = getX s d i) ∧
  (∀ e, e ≠ d.val → getDrv t e = getDrv s e)

/-- The value of a control register (R164), DRV_CYCLE apart. -/
def csrRows (s : State) (d : DroverId) : List (BitVec 5 × Word) :=
  [(0, BitVec.ofNat 32 (d % 64)), (1, BitVec.ofNat 32 (d / 64)), (2, BitVec.ofNat 32 (d / 1024)), (3, (getDrv s d).ordinal),
   (4, BitVec.ofNat 32 (getGrp s (d / 16)).count), (6, s.stage.setWidth 32), (7, (getDrv s d).fflags.zeroExtend 32),
   (8, (getGrp s (d / 16)).tag), (9, BitVec.ofNat 32 (1024 * macroKib s (d / 64)))]

/-- A register by its lanes of width w. -/
def byLane (w : Nat) (f : Nat → Nat) : BitVec 256 := ofLanes w ((List.range (256 / w)).map f)

/-- The lane-wise floating-point instructions of two operands (R156, R158). -/
def vfp2Rows : List ((DroverId → VArgs → Instr) × (FpFmt → Nat → Nat → Nat × FFlags)) :=
  [(Instr.vaddFp, fpAdd), (Instr.vsubFp, fpSub), (Instr.vmulFp, fpMul), (Instr.vminFp, fun f => fpMinMax f false),
   (Instr.vmaxFp, fun f => fpMinMax f true),
   (Instr.vcmpeqFp, fun f x y => (if (fpEq f x y).1 then 2 ^ (f.mb + f.eb + 1) - 1 else 0, (fpEq f x y).2)),
   (Instr.vcmpltFp, fun f x y => (if (fpLt f x y).1 then 2 ^ (f.mb + f.eb + 1) - 1 else 0, (fpLt f x y).2)),
   (Instr.vcmple, fun f x y => (if (fpLe f x y).1 then 2 ^ (f.mb + f.eb + 1) - 1 else 0, (fpLe f x y).2))]

/-- The lane-wise floating-point instructions of one operand (R156, R160). -/
def vfp1Rows : List ((DroverId → VArgs → Instr) × (FpFmt → Nat → Nat × FFlags)) :=
  [(Instr.vabs, fun f => signLane f true), (Instr.vneg, fun f => signLane f false), (Instr.vexp2, viaFp32 exp2V),
   (Instr.vlog2, viaFp32 log2V), (Instr.vrcp, viaFp32 rcpV), (Instr.vrsqrt, viaFp32 rsqrtV)]

/-- The lane-wise integer instructions: the value of a lane of width w (R156). -/
def vintRows : List ((DroverId → VArgs → Instr) × (Nat → Nat → Nat → Nat)) :=
  [(Instr.vaddInt, fun w x y => (x + y) % 2 ^ w), (Instr.vsubInt, fun w x y => (x + (2 ^ w - y)) % 2 ^ w),
   (Instr.vmulInt, fun w x y => x * y % 2 ^ w),
   (Instr.vaddsat, fun w x y => wrapInt w (clampInt (-(2 ^ (w - 1) : Nat)) ((2 ^ (w - 1) : Nat) - 1) (signedOf w x + signedOf w y))),
   (Instr.vminInt, fun w x y => if signedOf w x < signedOf w y then x else y),
   (Instr.vmaxInt, fun w x y => if signedOf w x < signedOf w y then y else x),
   (Instr.vcmpeqInt, fun w x y => if x = y then 2 ^ w - 1 else 0),
   (Instr.vcmpltInt, fun w x y => if signedOf w x < signedOf w y then 2 ^ w - 1 else 0),
   (Instr.vand, fun _ x y => x &&& y), (Instr.vor, fun _ x y => x ||| y), (Instr.vxor, fun _ x y => x ^^^ y),
   (Instr.vsll, fun w x y => x * 2 ^ (y % w) % 2 ^ w), (Instr.vsrl, fun w x y => x / 2 ^ (y % w)),
   (Instr.vsra, fun w x y => wrapInt w (signedOf w x / (2 ^ (y % w) : Nat)))]

/-- The reductions and the operation of their tree (R161). -/
def reduceRows : List ((DroverId → VArgs → Instr) × (Nat → Nat → Nat × FFlags)) :=
  [(Instr.vrsum, fpAdd fp32), (Instr.vrmax, redMax true), (Instr.vrmin, redMax false)]

/-! ## Packets of queues -/

/-- Packet p is in execution on queue q with run r; the other queues and the register words are as before. -/
def Issued (q : QueueId) (p : List Byte) (r : Run) (s t : State) : Prop :=
  curPacket t q = some p ∧ (getQ t q).run = some r ∧ (∀ k, k ≠ q.val → getQ t k = getQ s k) ∧ t.host.regs = s.host.regs

/-- As `Issued`, and nothing but the queue, the hinted phases and the list of readers differs; the readers only where the
packet reads pages. -/
def IssuedAlone (q : QueueId) (p : List Byte) (r : Run) (reads : Bool) (s t : State) : Prop :=
  Issued q p r s t ∧
  t = { s with host := { s.host with queues := t.host.queues, issues := s.host.issues + 1 }
               power := { s.power with phases := t.power.phases }, kv := { s.kv with readers := t.kv.readers } } ∧
  ∃ l, t.kv.readers = s.kv.readers ++ l ∧ (reads = false → l = [])

/-- Neither signal word of a packet is enabled. -/
def NoSignals (p : List Byte) : Prop :=
  sigOffset (pkOp p) = 0 ∨
  (bitOf (fieldAt p (sigOffset (pkOp p)) 4) 31 = false ∧ bitOf (fieldAt p (sigOffset (pkOp p) + 4) 4) 31 = false)

/-- Packet p of queue q has completed with a status (R27, R385, R387): nothing of the queue is in execution, the journal is j,
and its record stands behind the earlier ones, written or waiting, unless the packet is quiet and succeeded. -/
def PacketDone (q : QueueId) (p : List Byte) (status : Nat) (j : List JEntry) (s t : State) : Prop :=
  (getQ t q).run = none ∧ (getQ t q).journal = j ∧
  (getQ t q).stopped = ((getQ s q).stopped || decide (status = 0x10)) ∧
  (getQ t q).posted ++ (getQ t q).waiting = (getQ s q).posted ++ (getQ s q).waiting ++
    (if pkQuiet p ∧ status = 0 then [] else [recordBytes p status q]) ∧
  t.host.regs = s.host.regs ∧
  (NoSignals p ∨ status ≠ 0 → (∀ k, k ≠ q.val → getQ t k = getQ s k) ∧ t.sync = s.sync ∧ t.frozen = s.frozen)

/-- The entries of a queue's journal that have not issued. -/
def unissued (s : State) (q : Nat) : List JEntry := (getQ s q).journal.filter (fun e => e.life = .accepted)
/-- Those behind its oldest one. -/
def unissuedTail (s : State) (q : Nat) : List JEntry := (getQ s q).journal.tail.filter (fun e => e.life = .accepted)

/-- A group entry after an operation has taken its sequence numbers, and the first and second number it took (R271): SEND and
RECV take a pair's number, SENDRECV one of each, every other operation the group's. -/
def numbersTaken (g : GroupEntry) (b : CollBlock) : Word × Word × GroupEntry :=
  let snd := { g with sendSeq := tabPut 0 g.sendSeq b.peer (pairSeq g.sendSeq b.peer + 1) }
  match b.cop with
  | 7 => (pairSeq g.sendSeq b.peer, 0, snd)
  | 8 => (pairSeq g.recvSeq b.peer, 0, { g with recvSeq := tabPut 0 g.recvSeq b.peer (pairSeq g.recvSeq b.peer + 1) })
  | 9 => (pairSeq g.sendSeq b.peer, pairSeq g.recvSeq b.peer2,
      { snd with recvSeq := tabPut 0 g.recvSeq b.peer2 (pairSeq g.recvSeq b.peer2 + 1) })
  | _ => (g.seq, 0, { g with seq := g.seq + 1 })

/-- The channel of a group with other members is free, with nothing arrived early, and the packet starts its collective for
the first time. -/
def ChannelIdle (s : State) (q : QueueId) (b : CollBlock) (g : GroupEntry) : Prop :=
  getGroup s b.group = some g ∧ 2 ≤ g.members.length ∧ (getConv s (b.group % 32)).ops = [] ∧
  (getConv s (b.group % 32)).prog = none ∧ (getConv s (b.group % 32)).early = [] ∧
  ∃ e l, (getQ s q).journal = e :: l ∧ e.seqs = [] ∧ e.coll = none

/-- The operation of a collective block holds its channel with the numbers it has taken (R270, R271); other groups and channels
are as before. -/
def CollStarted (q : QueueId) (b : CollBlock) (g : GroupEntry) (n : Nat) (s t : State) : Prop :=
  (∃ o, (getConv t (b.group % 32)).ops = [o] ∧ o.queue = q.val ∧ o.group = b.group ∧ o.cop = b.cop ∧ o.red = b.red ∧
    o.ctype = b.ctype ∧ o.count = n ∧ o.peer = b.peer ∧ o.peer2 = b.peer2 ∧ o.dst = b.dst ∧
    o.seq = (numbersTaken g b).1 ∧ o.seq2 = (numbersTaken g b).2.1) ∧
  (getConv t (b.group % 32)).prog.isSome ∧ getGroup t b.group = some (numbersTaken g b).2.2 ∧
  (∀ k, k ≠ b.group → getGroup t k = getGroup s k) ∧ (∀ c, c ≠ b.group % 32 → getConv t c = getConv s c)

/-- A compute packet whose own checks have passed issues with run r: alone where its collective block is zero; otherwise, where
the block passes its checks too and its channel is free, with its collective (R97, R278 to R281). -/
def IssuesFused (c : Instr) (q : QueueId) (p : List Byte) (shape : Nat) (region : Region) (r : Run) (reads : Bool) (s : State) : Prop :=
  let b := collOf p (collOffset (pkOp p))
  (b.zero = true → Completes c s (IssuedAlone q p r reads s)) ∧
  (b.zero = false → handing s 21 = false → ∀ n g, readBound s q (qCtx s q) shape b.count = .ok n →
    collCheck s (qCtx s q) p n (some region) = none → ChannelIdle s q b g →
    Completes c s (fun t => Issued q p { r with coll := some (b.group % 32), collDone := false } s t ∧ CollStarted q b g n s t ∧
      t.comp = s.comp ∧ t.sync = s.sync ∧ t.mem = s.mem))

/-- A tally operation of queue q's packet is on its way, and the packet waits for it; no tally has changed yet (R243 to R247). -/
def TallySent (q : QueueId) (p : List Byte) (code : Nat) (s t : State) : Prop :=
  Issued q p (newRun s (.tally false)) s t ∧
  (∃ node, t.sync = { s.sync with flight := s.sync.flight ++ [{ packetOp s q code p with node := node }] }) ∧
  t.mem = s.mem ∧ t.comp = s.comp ∧ t.kv = s.kv ∧ t.conv = s.conv ∧ t.frozen = s.frozen

/-- A packet that the queue may issue: p, with no operation of it done in an earlier execution. -/
def Fresh (s : State) (q : QueueId) (p : List Byte) : Prop :=
  nextPacket s q = some p ∧ ∃ e l, (getQ s q).journal = e :: l ∧ e.ops = []

/-- The ten operations of a COLLECTIVE packet and their codes (R280). -/
def collRows : List ((QueueId → Instr) × Nat) :=
  [(Instr.allReduce, 1), (Instr.reduceScatter, 2), (Instr.allGather, 3), (Instr.allGatherV, 4), (Instr.allToAllV, 5),
   (Instr.broadcast, 6), (Instr.send, 7), (Instr.recv, 8), (Instr.sendrecv, 9), (Instr.collectiveBarrier, 10)]

/-! ## Pages -/

/-- Packet p of queue q is in execution and has no page left to work on. -/
def PagesServed (q : QueueId) (p : List Byte) (t : State) : Prop :=
  curPacket t q = some p ∧ ∃ r : Run, (getQ t q).run = some r ∧ r.work = .sealing []

/-- A KV_SEAL packet of operation `op` passes its checks: the sequence it names, in its slot (R311 to R313). -/
def SealIssues (s : State) (q : QueueId) (p : List Byte) (op slot : Nat) (x : Sequence) : Prop :=
  nextPacket s q = some p ∧ pkOp p = 0x2A ∧ fieldAt p 22 1 = op ∧ sealForm p = none ∧ seqOn s (qCtx s q) (fieldAt p 16 6) = some (slot, x) ∧
  (op ≠ 4 → selCheck (selOf p) x = none)

/-- A page that may be released or renewed at once (R310): nobody ships it and no other packet reads it. -/
def PageFree (s : State) (q i : Nat) : Prop :=
  (getWay s i).ships = 0 ∧ (getWay s i).state ≠ 3 ∧ hasReader s i (some q) = false

/-! ## Transfers -/

/-- A TRANSFER has its channel: one of the free ones of its cluster, at the start of its manifest (R213, R222, R231). -/
def ChannelTaken (q : QueueId) (p : List Byte) (s t : State) : Prop :=
  ∃ ch c, ch ∈ freeChans s (xferOf p none).cluster ∧ Issued q p (newRun s (.xfer (some ch) false)) s t ∧
    getChan t ch = some c ∧ c.owner = .queue q.val ∧ c.ctx = qCtx s q ∧ c.bytes = p ∧ c.cursor = [0, 0, 0, 0, 0] ∧ c.state = 1 ∧
    c.inSlot = false ∧ c.waiting = 0 ∧ c.signals = 0 ∧ (∀ k, k ≠ ch → getChan t k = getChan s k) ∧ t.mem = s.mem ∧ t.sync = s.sync

/-! ## Register writes -/

/-- A 32-bit write of v at offset o is one that its register takes (R10, R12 to R14, R376, R402, R478): the requester is on the
bus and sees the register, which is served; nothing refuses the value, and the state of its unit does not hold it off. -/
def Taken (s : State) (r : Requester) (o v : Nat) : Prop :=
  takes s r o v = true ∧ unbound s r (regAt s o) = false ∧ heldOff s r (regAt s o) v = false

/-- As `Taken`, by a requester that may write the RWL fields of the register (R12). -/
def TakenLocked (s : State) (r : Requester) (o v : Nat) : Prop := Taken s r o v ∧ mayWrite s r (regAt s o) v = true

/-! ## Tallies -/

/-- Only the tally vid of context ctx differs among the tallies. -/
def OnlyTally (ctx vid : Nat) (s t : State) : Prop :=
  ∀ c v, c < 64 → v < 65536 → (c, v) ≠ (ctx, vid) → getTally t c v = getTally s c v

/-- What a TLY_CMD command leaves: its status in the page, only the one tally changed on success, and no tally otherwise. -/
def TallyCommand (p : PartId) (ctx vid status : Nat) (after : Option Tally) (s t : State) : Prop :=
  regField t (tlyOff p) 26 24 = status ∧ (status ≠ 0 → t.sync = s.sync) ∧
  (status = 0 → getTally t ctx vid = after ∧ OnlyTally ctx vid s t) ∧ t.mem = s.mem ∧ t.host.queues = s.host.queues ∧ t.kv = s.kv

/-- Operation o, number n on its way, reaches the tally y: alone, or as the only one of a combined message for it; its scope is
one that R252 allows, and no destroy command waits for it. -/
def Reaches (s : State) (n : Nat) (o : TallyOp) (y : Tally) : Prop :=
  devRuns s = true ∧ s.sync.flight[n]? = some o ∧ s.sync.destroying = [] ∧ getTally s o.ctx o.vid = some y ∧
  o.ctx < 64 ∧ o.vid < 65536 ∧ scopeBad s o y = false ∧ (o.code = 15 → y.scope = 4) ∧
  (o.node = none ∨ ∃ k, 80 ≤ k ∧ o.node = some k ∧
    s.sync.flight.filter (fun x => decide (x.node = some k) && decide (x.ctx = o.ctx) && decide (x.vid = o.vid)) = [o])

/-- The tally that an operation reached is z now, no other tally has changed, and the waiters are w. -/
def TallyIs (o : TallyOp) (z : Tally) (w : List Waiter) (s t : State) : Prop :=
  getTally t o.ctx o.vid = some z ∧ OnlyTally o.ctx o.vid s t ∧ t.sync.waiters = w

/-- The record of a tally after an operation has been applied to it: its last source and stage (R239). -/
def noted (s : State) (o : TallyOp) (y : Tally) : Tally :=
  { y with lastSrc := BitVec.ofNat 32 (issuerSrc o.issuer), lastStage := s.stage }

/-- The waiters after a tally has become z: those other than TAKEs whose condition holds are released (R245, R246). -/
def readsReleased (s : State) (ctx vid : Nat) (z : Tally) : List Waiter :=
  s.sync.waiters.map (fun w =>
    if w.op.ctx = ctx ∧ w.op.vid = vid ∧ w.op.code ≠ 4 ∧ waitMet z w.phase = true then { w with released := true } else w)

/-- No TAKE waits at a tally. -/
def NoTakes (s : State) (o : TallyOp) : Prop := (waitersOf s o.ctx o.vid).any (·.takes) = false

/-- A tally fault (R253): the tally keeps its value, and the issuer is frozen. -/
def TallyFaults (o : TallyOp) (z : Tally) (s t : State) : Prop :=
  getTally t o.ctx o.vid = some z ∧ OnlyTally o.ctx o.vid s t ∧ t.sync.waiters = s.sync.waiters ∧
  isFrozen t (frozenBy o).1 (frozenBy o).2 = true

/-! ## Collectives -/

/-- The device takes a message of fabric source src: it is at work, and the source is not frozen (R474). -/
def Hears (s : State) (src : Nat) : Prop :=
  s.dev.ready = true ∧ s.dev.powered = true ∧ devFrozen s = false ∧ s.dev.failed = false ∧ isFrozen s 7 src = false

/-- Operation o of group g holds its channel with progress p, and nothing waits there that arrived early. -/
def Working (s : State) (ch : Nat) (o : CollOp) (p : CollProg) (g : GroupEntry) : Prop :=
  holder s ch = some (o, p, g) ∧ ch = o.group % 32 ∧ (getConv s ch).early = [] ∧ isFrozen s 4 ch = false

/-- Channel ch has progress p, stamped (R296); tallies, pages, queues, freezes and the other channels and groups are as before. -/
def Progress (ch : Nat) (p : CollProg) (s t : State) : Prop :=
  getConv t ch = { getConv s ch with prog := some p, silent := 0, lastStage := BitVec.ofNat 32 s.stage.toNat } ∧
  (∀ c, c ≠ ch → getConv t c = getConv s c) ∧ t.conv.groups = s.conv.groups ∧ t.sync = s.sync ∧ t.kv = s.kv ∧
  t.frozen = s.frozen ∧ t.host.queues = s.host.queues

/-- Group k is broken, and the others are as they were. -/
def Broken (k : Nat) (g : GroupEntry) (s t : State) : Prop :=
  getGroup t k = some { g with broken := true } ∧ ∀ j, j ≠ k → getGroup t j = getGroup s j

/-- An operation ended with REPLAY_REQUIRED (R291): its numbers are those it took, and its queue has stopped. -/
def CollReplays (o : CollOp) (g : GroupEntry) (s t : State) : Prop :=
  (∀ e l, (getQ s o.queue).journal = e :: l → e.life = .issued → getGroup t o.group = some (e.seqs.foldl giveSeq g)) ∧
  (∀ j, j ≠ o.group → getGroup t j = getGroup s j) ∧ (getQ t o.queue).run = none ∧ (getQ t o.queue).stopped = true

/-- The head of a chunk that this device sends. -/
def headOf (g : GroupEntry) (o : CollOp) (k : Nat) (result : Bool) : ChunkHead :=
  ⟨BitVec.ofNat 8 o.group, o.seq, BitVec.ofNat 32 k, BitVec.ofNat 16 g.selfPos, result⟩

/-- The answer to a chunk: kind 3 acknowledges it, kind 4 asks for it again. -/
def answerTo (g : GroupEntry) (o : CollOp) (kind : Nat) (c : ChunkHead) : Out :=
  .convoy (chunkDest g c.fromPos.toNat) { ctlOf g o kind c.seq 0 0 0 with count := c.chunk } []

/-- What a CNV_GCMD command leaves: its status, the entry it names, and the other entries and the channels as they were. -/
def GroupCommand (p : PartId) (g status : Nat) (after : Option GroupEntry) (s t : State) : Prop :=
  regField t (cnvOff p) 26 24 = status ∧ getGroup t g = after ∧ (∀ k, k ≠ g → getGroup t k = getGroup s k) ∧
  t.conv.chans = s.conv.chans ∧ t.sync = s.sync ∧ t.host.queues = s.host.queues

/-! ## Streams and swaps -/

/-- No KV_SEAL and no KV_IMPORT waits for a page. -/
def KvQuiet (s : State) : Prop :=
  ∀ q r, (getQ s q).run = some r → (∀ l, r.work ≠ .sealing l) ∧ ∀ n, r.work ≠ .imp n

/-- Flight f of stream st goes out from state u as its destination takes it (R327, R329): over the fabric in DATA messages, or
into its dock slot. -/
def SentTo (st : Nat) (f : Flight) (p : Partition) (u t : State) : Prop :=
  let x := getStream u st
  let e := getWay u f.index
  let img := pageBytes u p e 0 (imageBytes e.kfmt)
  let msg := fun (at_ bytes i n : Nat) => DataMsg.mk f.key.toNat at_ bytes i n img.length e.fill f.attempt f.crc.toNat
  let parts := chunksOf 4096 img
  (x.destKind = 0 → t.mem = u.mem ∧ t.sync = u.sync ∧
    t.out = u.out ++ (parts.zip (upFrom 0 parts.length)).map (fun y =>
      .caravan x.destFid.toNat (dataHead u st (msg (4096 * y.2) y.1.length y.2 parts.length) y.1) y.1)) ∧
  (x.destKind ≠ 0 → ∀ w, heldBack u x.dockCtx (srcOf 7 st) (pickOf t st f.index).tag.toNat = false →
    (getTally u x.dockCtx x.dockTally).isSome = true →
    xWrite u x.dockCtx (x.dockAddr + f.slot * p.frameUnits * 128) (dataHead u st (msg 0 (dockBytes u img.length) 0 1) img ++ img) = .ok w →
    t.mem = w.mem)

/-- The page of a flight can be read: it is in its swap slot, or its frame holds no uncorrectable word (R331). -/
def PageReadable (s : State) (p : Partition) (i : Nat) : Prop :=
  (getWay s i).state = 5 ∨ frameBad s p (getWay s i).loc 0 (imageBytes (getWay s i).kfmt) = none

/-- Page i is sent again by stream st as flight g. -/
def Resent (st i : Nat) (g : Flight) (p : Partition) (s t : State) : Prop :=
  getStream t st = { getStream s st with flights := (getStream s st).flights.map (fun f => if f.index = i then g else f) } ∧
  (∀ j, j ≠ st → getStream t j = getStream s j) ∧ t.kv.waybill = s.kv.waybill ∧ SentTo st g p s t

/-- The shipment of page i by stream st has ended with an acknowledgement (R310, R324): `ships` falls by one, and the page
leaves SHIPPING with the last; the first acknowledgement of a selection counts, and adds 1 to its tally. -/
def ShipmentEnds (st i : Nat) (s t : State) : Prop :=
  let k := pickOf s st i
  let e := getWay s i
  let after := if e.ships - 1 = 0 ∧ e.state = 3 then
    (match poolOf s i with | some p => keptState (setKept s i 4) p e | none => 2) else e.state
  (getStream t st).flights = (getStream s st).flights.filter (fun f => f.index ≠ i) ∧
  (getStream t st).acked = (getStream s st).acked + (if k.signed then 0 else 1) ∧
  getWay t i = wayOf (wayWord { e with ships := e.ships - 1, state := after }) ∧ (∀ j, j ≠ i → getWay t j = getWay s j) ∧
  (∀ j, j ≠ st → getStream t j = getStream s j) ∧
  (k.signed = false → (getTally s (qCtx s k.queue) k.tally).isSome = true → ∃ o : TallyOp, t.sync.flight = s.sync.flight ++ [o] ∧
    o.ctx = qCtx s k.queue ∧ o.vid = k.tally ∧ o.scope = k.scope ∧ o.amount = 1 ∧ isAdd o.code = true)

/-- Page i of stream st waits for its retry time (R330); nothing else differs but a count. -/
def Deferred (st i : Nat) (s t : State) : Prop :=
  getStream t st = { getStream s st with
    flights := (getStream s st).flights.map (fun f => if f.index = i then { f with deferred := true } else f) } ∧
  (∀ j, j ≠ st → getStream t j = getStream s j) ∧ t.kv.waybill = s.kv.waybill ∧ t.mem = s.mem ∧ t.sync = s.sync ∧
  t.out = s.out ∧ t.frozen = s.frozen

/-! ## The fabric and the host's faces -/

/-- The device takes a message for it that has crossed the fabric whole (R345, R349). -/
def HearsFabric (s : State) (h : RolreHead) : Prop :=
  s.dev.ready = true ∧ s.dev.powered = true ∧ devFrozen s = false ∧ s.dev.failed = false ∧ h.crcOk = true ∧
  s.fab.fidValid = true ∧ h.destFid = s.fab.fid

/-- The answer to a message: kind 3 a read response, kind 4 a write acknowledgement; status 1 refuses. -/
def answerOut (h : RolreHead) (mkind status : Nat) (data : List Byte) : Out :=
  .rolre h.srcFid.toNat 1 mkind (if mkind = 3 then h.offset.toNat else 0) status data none

/-- The message has been accepted on its flow (R344, R351), and answered with o; tallies, pages, queues and freezes are as before. -/
def AcceptedWith (h : RolreHead) (o : Out) (s t : State) : Prop :=
  tabGet 0 t.fab.flowSeen (flowKey h) = h.flowSeq + 1 ∧ t.out = s.out ++ [o] ∧ t.kv = s.kv ∧ t.host = s.host ∧ t.frozen = s.frozen

/-- A message that is refused (R193): its source is frozen, and it is told so last. -/
def FabricRefused (h : RolreHead) (mkind : Nat) (s t : State) : Prop :=
  isFrozen t 7 h.srcFid.toNat = true ∧ (∃ l, t.out = s.out ++ l ++ [answerOut h mkind 1 []]) ∧ t.sync = s.sync ∧ t.kv = s.kv

/-- A message that is answered and does nothing else. -/
def OnlyAnswered (o : Out) (s t : State) : Prop :=
  t.out = s.out ++ [o] ∧ t.mem = s.mem ∧ t.sync = s.sync ∧ t.kv = s.kv ∧ t.host = s.host ∧ t.frozen = s.frozen

/-- Every byte of memory reads as it did. -/
def ReadsAsBefore (s t : State) : Prop := ∀ b, byteSeen t b = byteSeen s b

/-- Port p is x now; the other ports, the memories, tallies and queues are as before. -/
def PortIs (p : RolrePort) (x : Port) (s t : State) : Prop :=
  getPort t p = x ∧ (∀ j, j ≠ p.val → getPort t j = getPort s j) ∧ t.mem = s.mem ∧ t.sync = s.sync ∧ t.comp = s.comp ∧
  t.host = s.host

/-- A port that has entered a state. -/
def entered (s : State) (x : Port) (st : BitVec 3) : Port := { x with state := st, since := s.stage, timed := false, measure := none }

/-- Nothing but the epoch and a port differs. -/
def OnlyEpoch (s t : State) : Prop := t = { s with fab := { s.fab with epoch := t.fab.epoch, ports := t.fab.ports, fidValid := t.fab.fidValid } }

/-! ## Power, the weighhouse and the reset of units -/

/-- Programs, tallies, pages, groups, freezes and the stage are as before. -/
def WorkKept (s t : State) : Prop :=
  t.comp = s.comp ∧ t.sync = s.sync ∧ t.kv = s.kv ∧ t.conv = s.conv ∧ t.frozen = s.frozen ∧ t.stage = s.stage

/-- As `WorkKept`, and so are the queues and the weighhouse. -/
def PowerOnly (s t : State) : Prop := WorkKept s t ∧ t.host.queues = s.host.queues ∧ t.weigh = s.weigh

/-- Nothing but the weighhouse differs. -/
def WeighIs (w : Weigh) (s t : State) : Prop := t = { s with weigh := w }

/-- The least step of the votes that partition p has for the last boundary. -/
def leastVote (s : State) (p : Nat) : Nat :=
  ((getLock s p).votes.filter (fun v => v.1 = s.power.boundary)).foldl (fun m v => min m v.2.2.toNat) 127

/-- Partition p has a vote of every member for the last boundary. -/
def allVoted (s : State) (p : Nat) (e : GroupEntry) : Prop :=
  ∀ i, i < e.members.length → ∃ v, v ∈ (getLock s p).votes ∧ v.1 = s.power.boundary ∧ v.2.1 = i

/-! ## Resets and configuration -/

/-- A queue whose accepted packets run again from its commit index (R399). -/
def rerun (u : Queue) : Queue :=
  { u with run := none, journal := u.journal.map (fun e => if e.life = .issued then { e with life := .accepted } else e) }

/-- No collective of a queue for which the test holds stands on a channel. -/
def NoColl (s : State) (f : Nat → Bool) : Prop := ∀ c o, o ∈ (getConv s c).ops → f o.queue = false

/-- The queues below 256 for which the test holds are as g makes them, and the others as they were. -/
def QueuesAre (f : Nat → Bool) (g : Queue → Queue) (s t : State) : Prop :=
  ∀ q, getQ t q = if q < 256 ∧ f q = true then g (getQ s q) else getQ s q

/-- What a context reset leaves (R399): the queues of the contexts run again, their freezes are gone, and what a program sees of
memory, tallies and pages is as it was. -/
def ContextsReset (l : List Nat) (s t : State) : Prop :=
  QueuesAre (fun q => l.any (boundTo s q)) rerun s t ∧ (∀ c, c ∈ l → isFrozen t 1 c = false) ∧ t.sync.tallies = s.sync.tallies ∧
  t.mem = s.mem ∧ t.kv.waybill = s.kv.waybill ∧ t.kv.streams = s.kv.streams

/-- What a reset of the functions in l leaves (R396): their queues disabled and empty, their event queues off, their access-error
flags clear. -/
def FunctionsReset (l : List Nat) (s t : State) : Prop :=
  QueuesAre (fun q => decide (qAttach s q ≤ 1) && l.contains (qFn s q)) (fun u => { u with journal := [], run := none, waiting := [] }) s t ∧
  (∀ q, q < 256 → qAttach s q ≤ 1 → qFn s q ∈ l → qEnabled t q = false) ∧
  (∀ f, f ∈ l → regField t (evqOff f + 8) 27 27 = 0 ∧ tabGet {} t.host.accErr f = {}) ∧ t.sync.tallies = s.sync.tallies ∧ t.mem = s.mem

/-- What a warm device reset leaves (R493, R494): the device runs, nothing is frozen, an apply and hand-overs have ended, accepted
work runs again, and the power controller starts from code 64. -/
def WarmReset (cause : Nat) (s t : State) : Prop :=
  t.dev.ready = true ∧ t.dev.fstate = 0 ∧ t.dev.lastDev.toNat = cause ∧ t.dev.partReset = none ∧ t.dev.waitResets = [] ∧ t.frozen = [] ∧
  t.cfg.apply = none ∧ t.cfg.cstate = 0 ∧ t.cfg.image = s.cfg.image ∧ t.sec.updating = [] ∧ t.power.devCode = 64 ∧ t.power.next = none ∧
  (∀ q, getQ t q = if (getQ s q).journal = [] then getQ s q else rerun (getQ s q)) ∧
  t.sync.tallies = s.sync.tallies ∧ t.mem.cells = s.mem.cells ∧ t.weigh = s.weigh ∧ t.stage = s.stage

/-- What booting from step 2 leaves (R445, R447, R448): the device is Ready with the firmware in flash, or in recovery. -/
def Boots (b : BootFacts) (s t : State) : Prop :=
  t.dev.bootHeld = false ∧ t.cfg.flash = b.ecloth ∧ t.cfg.flashOk = b.eclothOk ∧ t.cfg.owners = s.cfg.owners ∧
  (b.firmwareOk = true ∧ s.sec.minSvn.toNat ≤ s.sec.flashSvn.toNat → t.dev.ready = true ∧ t.dev.recovery = false ∧ t.sec.rstate = 0 ∧
    t.sec.svn = s.sec.flashSvn ∧ t.sec.running = s.sec.flashVers ∧ (t.cfg.nullConfig = true ↔ t.cfg.image = none)) ∧
  (¬ (b.firmwareOk = true ∧ s.sec.minSvn.toNat ≤ s.sec.flashSvn.toNat) → t.dev.recovery = true ∧ t.sec.rstate = 1)

/-- What was in the memories, queues and tallies is lost (R492, R493); flash, fuses, and the outputs sent so far are kept. -/
def WorkLost (s t : State) : Prop :=
  (∀ q, getQ t q = {}) ∧ t.sync.tallies = [] ∧ t.mem.cells = [] ∧ t.frozen = [] ∧ t.stage = 0 ∧ (∀ d, getDrv t d = {}) ∧
  s.sec.minSvn.toNat ≤ t.sec.minSvn.toNat ∧ t.sec.flashVers = s.sec.flashVers ∧ t.pending = s.pending

/-! ## Attestation, units, freezes and register accesses -/

/-- An SPDM request of transport r is served (R450, R453, R497): the responder runs, and the transport has negotiated far
enough. -/
def Serves (s : State) (r : Transport) (level : Nat) : Prop :=
  s.dev.powered = true ∧ s.dev.ready = true ∧ handing s 0 = false ∧ handing s 1 = false ∧ level ≤ connLevel s r

/-- The response goes out, the security state is c, and nothing else differs but a draw. -/
def Responds (c : Sec) (code : Nat) (data : List Byte) (s t : State) : Prop :=
  t = { s with sec := c, out := s.out ++ [.spdm code data], fresh := t.fresh }

/-- ERROR alone. -/
def Errs (e : Nat) (data : List Byte) (s t : State) : Prop := Responds s.sec 0x7F (leBytes 1 e ++ data) s t

/-- The response waits for its signature (R455): a job at the end of the queue, and ResponseNotReady with its token. -/
def SignatureQueued (c : Sec) (code : Nat) (content : List Byte) (s t : State) : Prop :=
  let tok := s.sec.tokens + 1
  Responds { c with tokens := tok, jobs := s.sec.jobs ++ [⟨tok, code, content, false⟩] } 0x7F
    ([0x42] ++ leBytes 1 (21 + clog2 ((s.sec.jobs.filter (fun j => !j.ready)).length + 1)) ++ [tok]) s t

/-- The slot of engine e is retired (R66, R459 to R462): its block is executed again elsewhere, the slot is marked, and without a
spare the engine is parked where none of its cluster is. -/
def SlotRetired (e : Nat) (s t : State) : Prop :=
  (getEng t e).retired = true ∧ (getEng t e).fencing = true ∧ (getEng t e).quarantined = false ∧ (getEng t e).block = none ∧
  bitOf (getClu t (cluOf e)).retired.toNat (slotOf s e) = true ∧
  tabGet 0 (getClu t (cluOf e)).lives (slotOf s e) = tabGet 0 (getClu s (cluOf e)).lives (slotOf s e) + 1 ∧
  (getClu t (cluOf e)).spare = (getClu s (cluOf e)).spare ∧
  ((getClu s (cluOf e)).spare = 31 → (getClu s (cluOf e)).parked = none → (getClu t (cluOf e)).parked = some (Fin.ofNat 16 (e % 16))) ∧
  t.sync = s.sync ∧ t.kv = s.kv ∧ t.frozen = s.frozen

/-- The slot rejoins as the spare of cluster c with its next generation (R461, R469). -/
def SlotRejoined (c slot : Nat) (s t : State) : Prop :=
  getClu t c = { getClu s c with
    retired := putBit (getClu s c).retired slot false, spare := BitVec.ofNat 5 slot, passed := (getClu s c).passed.filter (· ≠ slot)
    gens := tabSet (getClu s c).gens slot (some (nextGen (genOf s c slot))) } ∧
  (∀ k, k ≠ c → getClu t k = getClu s k) ∧ t.sync = s.sync ∧ t.kv = s.kv ∧ t.host.queues = s.host.queues

/-- The device ends its service (R464): every accepted packet completes with REPLAY_REQUIRED. -/
def ServiceEnds (s t : State) : Prop :=
  t.dev.failed = true ∧ t.conv.chans = [] ∧ t.sync.tallies = s.sync.tallies ∧
  ∀ q, (∀ e, e ∈ (getQ s q).journal.tail → e.life = .accepted) → (getQ s q).journal ≠ [] →
    (getQ t q).journal = [] ∧ (getQ t q).run = none ∧ (getQ t q).stopped = true ∧
    (getQ t q).posted ++ (getQ t q).waiting = (getQ s q).posted ++ (getQ s q).waiting ++
      (getQ s q).journal.map (fun e => recordBytes e.bytes 0x10 q)

/-- The device freezes with a cause (R476): the stage is kept, and HALT_ALL_N is driven where `halt_out_en` is set. -/
def DeviceFroze (cause : Nat) (s t : State) : Prop :=
  let drive := decide (regField s 0xB0000C 30 30 = 1)
  t.dev = { s.dev with fstate := 2, fcause := BitVec.ofNat 3 cause, fstage := s.stage, haltDriven := s.dev.haltDriven || drive } ∧
  (drive = true → t.out.getLast? = some (.haltAllN true)) ∧ WorkKept s t ∧ t.host.queues = s.host.queues ∧ t.power = s.power

/-- The header of a scan dump (R480). -/
def DumpHeader (s : State) (l : Nat) (hdr : List Byte) : Prop :=
  hdr.length = 64 ∧ fieldAt hdr 0 8 = s.dev.fstage.toNat ∧ fieldAt hdr 8 1 = s.dev.fcause.toNat ∧ fieldAt hdr 9 1 = s.power.devCode.toNat ∧
  fieldAt hdr 12 4 = l % 2 ^ 32

/-- An access that is refused (R14): the flag of the function records the first cause and offset; nothing else differs. -/
def AccRefused (r : Requester) (cause : Nat) (o : RegOff) (s t : State) : Prop :=
  t = { s with host := { s.host with accErr := t.host.accErr } } ∧
  ∀ k, tabGet {} t.host.accErr k = match r with
    | .fn f => if k = f.val ∧ (tabGet ({} : AccErr) s.host.accErr k).flag = false then ⟨true, BitVec.ofNat 4 cause, o⟩
               else tabGet {} s.host.accErr k
    | _ => tabGet {} s.host.accErr k

/-- A read is performed (R12, R376, R478): the requester is on the bus and sees the register, which is served. -/
def Reads (s : State) (r : Requester) (o : Nat) : Prop :=
  onBus s r = true ∧ served s false (regAt s o) = true ∧ sees s r (regAt s o) = true

/-- A read of a view's first word returns it and latches the others; nothing else differs. -/
def ViewLatched (o : Nat) (b : List Byte) (s t : State) : Prop :=
  t = { s with host := { s.host with readData := t.host.readData, latched := t.host.latched } } ∧
  t.host.readData = BitVec.ofNat 32 (fieldAt b 0 4) ∧
  ∀ i, 1 ≤ i → 4 * i + 4 ≤ b.length → latchedWord t (o + 4 * i) = BitVec.ofNat 32 (fieldAt b (4 * i) 4)

end Sys2Proof.Safety
end

