-- ==== Sys2Proof/Certificates/Slice0/Obligations.lean ====
section
/-! DEFINITION. The statements for the provers. -/

open Sys2Proof Sys2Proof.Machine Sys2Proof.Safety

/-- A step takes the command at the front of the queue and runs it on the state with the queue's rest. -/
def Obligations.StepRunsFrontCommand : Prop :=
  ∀ (c : Instr) (s : State), step { s with pending := c :: s.pending } = exec c s

/-- The state after reset is in canonical form, with an empty queue, no tally, no frozen master, no queue enabled, and the values
that the rules give the power controller, the stage counter and the epoch; nothing stops the block: every command, and a step on
an empty queue, which lets one stage pass, answers a next state (the last two are the model's choice, logs 3 and 4). -/
def Obligations.ResetAndNoStop : Prop :=
  (State.reset.wf = true ∧ State.reset.pending = [] ∧ State.reset.stage = 0 ∧ State.reset.sync.tallies = [] ∧ State.reset.frozen = [] ∧
    (∀ q : Nat, q < 256 → qEnabled State.reset q = false ∧ getQ State.reset q = {}) ∧ (∀ d, getDrv State.reset d = {}) ∧
    State.reset.power.devCode = 64 ∧ State.reset.power.capW = 3200 ∧ State.reset.power.dieLimitW = 1650 ∧
    State.reset.fab.epoch.state = 0 ∧ State.reset.dev.fstate = 0) ∧
  (∀ (c : Instr) (s : State), ∃ t, exec c s = .next t) ∧ (∀ s : State, s.pending = [] → step s = .next (stageTick s)) ∧
  (∀ s : State, s.dev.powered = false → stageTick s = s) ∧
  (∀ s : State, s.dev.powered = true → devFrozen s = true → (stageTick s).stage = s.stage + 1 ∧ (stageTick s).comp = s.comp ∧
    (stageTick s).sync = s.sync ∧ (stageTick s).kv = s.kv ∧ (stageTick s).conv = s.conv ∧ (stageTick s).host = s.host)

/-- Every step keeps the canonical form of the memories, registers and tables: addresses and keys rise, and no entry equals what an
unlisted one reads as, so that equal contents are equal data.
The model's choices in it: logs 6 and 7. -/
def Obligations.EveryStepKeepsForm : Prop :=
  ∀ s t : State, s.wf = true → step s = .next t → t.wf = true

/-- R154 to R156: every well-formed drover instruction is decoded from the word that its fields make, and every word that is decoded
is the word of the instruction it gives: no bit of a legal word is dropped, and no two words are one instruction. -/
def Obligations.DroverWordsRoundTrip : Prop :=
  (∀ (i : Instr) (w : Word), i.wf = true → drvEncode i = some w → ∃ d, drvDecode d w = some i) ∧
  (∀ (d : DroverId) (w : Word) (i : Instr), drvDecode d w = some i → i.wf = true ∧ drvEncode i = some w)

/-! ## Drover instructions (R149 to R177) -/

/-- R156, R157: where one of the integer instructions of format R is the drover's next one, it writes rd with the table's
value, x0 discarding it, moves to the next instruction and changes nothing else. -/
def Obligations.DroverIntegerArithmetic : Prop :=
  ∀ row ∈ aluRows, ∀ (d : DroverId) (a : RArgs) (s : State), s.wf = true → drvNext s d (row.1 d a) = true →
    Completes (row.1 d a) s (WritesX d s a.rd (row.2 (getX s d a.rs1.toNat) (getX s d a.rs2.toNat)) (getDrv s d).fflags)

/-- R153, R156: the immediate instructions and the shifts by an immediate; the FP32 instructions write rd with the result and OR its
flags into FFLAGS, and FMA reads rd as its addend.
The model's choices in it: log 9. -/
def Obligations.DroverScalarArithmetic : Prop :=
  (((∀ row ∈ immRows, ∀ (d : DroverId) (a : IArgs) (s : State), s.wf = true → drvNext s d (row.1 d a) = true →
      Completes (row.1 d a) s (WritesX d s a.rd (row.2 (getX s d a.rs1.toNat) a.imm) (getDrv s d).fflags)) ∧
    (∀ row ∈ shiftRows, ∀ (d : DroverId) (a : ShArgs) (s : State), s.wf = true → drvNext s d (row.1 d a) = true →
      Completes (row.1 d a) s (WritesX d s a.rd (row.2 (getX s d a.rs1.toNat) a.amt.toNat) (getDrv s d).fflags)))) ∧
  ((∀ row ∈ fpRows, ∀ (d : DroverId) (a : RArgs) (s : State), s.wf = true → drvNext s d (row.1 d a) = true →
     Completes (row.1 d a) s (let r := row.2 (getX s d a.rs1.toNat).toNat (getX s d a.rs2.toNat).toNat
       WritesX d s a.rd (BitVec.ofNat 32 r.1) (flAfter s d r.2))) ∧
   (∀ (d : DroverId) (a : RArgs) (s : State), s.wf = true → drvNext s d (.fma d a) = true →
     Completes (.fma d a) s (let r := fpFma fp32 (getX s d a.rs1.toNat).toNat (getX s d a.rs2.toNat).toNat (getX s d a.rd.toNat).toNat
       WritesX d s a.rd (BitVec.ofNat 32 r.1) (flAfter s d r.2))))

/-- R145, R146, R156: a load whose read is aligned, inside the window and free of uncorrectable words writes rd with the
bytes, extended as the table says. -/
def Obligations.DroverLoads : Prop :=
  ∀ row ∈ loadRows, ∀ (d : DroverId) (a : IArgs) (s : State), s.wf = true → drvNext s d (row.1 d a) = true →
    let addr := (getX s d a.rs1.toNat + a.imm.signExtend 32).toNat
    Readable s d addr row.2.1 →
    Completes (row.1 d a) s (fun t => LoadKeeps d s t ∧
      DroverIs d s t (xAfter s d a.rd (row.2.2 (leNat (windowBytes s d addr row.2.1)))) (getV s d) ((getDrv s d).pc + 4)
        (getDrv s d).fflags)

/-- R145, R146, R156: a store that is aligned and inside the window stores the low bytes of rd at its address and no others. -/
def Obligations.DroverStores : Prop :=
  ∀ row ∈ storeRows, ∀ (d : DroverId) (a : IArgs) (s : State), s.wf = true → drvNext s d (row.1 d a) = true →
    let addr := (getX s d a.rs1.toNat + a.imm.signExtend 32).toNat
    Writable d addr row.2 →
    Completes (row.1 d a) s (Stores d s addr (leBytes row.2 (getX s d a.rd.toNat).toNat))

/-- R146, R156, R174, R176: a misaligned access, one outside the window, or a store to the instruction store is a fault that freezes the
drover's group, and leaves the registers, the local store and the tallies as they were; so are a break and an illegal word, as the
rules give them.
The model's choices in it: log 6. -/
def Obligations.DroverFaultsAndBreaks : Prop :=
  ((∀ row ∈ loadRows, ∀ (d : DroverId) (a : IArgs) (s : State), s.wf = true → drvNext s d (row.1 d a) = true →
     let addr := (getX s d a.rs1.toNat + a.imm.signExtend 32).toNat
     addr % row.2.1 ≠ 0 ∨ winPlace d addr = .outside →
     Completes (row.1 d a) s (fun t => DroverFaults d s t ∧ t.comp.lstore = s.comp.lstore ∧ t.sync = s.sync)) ∧
   (∀ row ∈ storeRows, ∀ (d : DroverId) (a : IArgs) (s : State), s.wf = true → drvNext s d (row.1 d a) = true →
     ¬ Writable d ((getX s d a.rs1.toNat + a.imm.signExtend 32).toNat) row.2 →
     Completes (row.1 d a) s (fun t => DroverFaults d s t ∧ t.comp.lstore = s.comp.lstore ∧ t.sync = s.sync)) ∧
   (∀ (d : DroverId) (a : MArgs) (s : State), s.wf = true → drvNext s d (.vst d a) = true →
     ¬ Writable d ((getX s d a.rs1.toNat + 32 * a.off.signExtend 32).toNat) 32 →
     Completes (.vst d a) s (fun t => DroverFaults d s t ∧ t.comp.lstore = s.comp.lstore ∧ t.sync = s.sync))) ∧
  ((∀ (d : DroverId) (a : RArgs) (s : State), s.wf = true → drvNext s d (.brk d a) = true →
     Completes (.brk d a) s (DroverFaults d s)) ∧
   (∀ (d : DroverId) (s : State), s.wf = true → drvReady s d = true → fetchIn s d = true → drvDecode d (wordAtPc s d) = none →
     Completes (.illegalInstruction d) s (DroverFaults d s)) ∧
   (∀ (d : DroverId) (s : State), s.wf = true → drvReady s d = true → (getGrp s (d / 16)).codeBytes ≤ (getDrv s d).pc.toNat →
     Completes (.fetchOutsideImage d) s (DroverFaults d s)))

/-- R156: a branch whose comparison holds goes to pc + 4 × offset, one whose comparison fails to the next instruction; JAL
links in x31, JALR in rd after reading rs1, and clears bits 1:0 of its target. -/
def Obligations.DroverBranchesAndJumps : Prop :=
  (∀ row ∈ branchRows, ∀ (d : DroverId) (a : BArgs) (s : State), s.wf = true → drvNext s d (row.1 d a) = true →
    Completes (row.1 d a) s (Jumps d s 0 0 ((getDrv s d).pc +
      if row.2 (getX s d a.rs1.toNat) (getX s d a.rs2.toNat) then 4 * a.off.signExtend 32 else 4))) ∧
  (∀ (d : DroverId) (off : BitVec 26) (s : State), s.wf = true → drvNext s d (.jal d off) = true →
    Completes (.jal d off) s (Jumps d s 31 ((getDrv s d).pc + 4) ((getDrv s d).pc + 4 * off.signExtend 32))) ∧
  (∀ (d : DroverId) (a : RArgs) (s : State), s.wf = true → drvNext s d (.jalr d a) = true →
    Completes (.jalr d a) s (Jumps d s a.rd ((getDrv s d).pc + 4) (getX s d a.rs1.toNat &&& 0xFFFFFFFC)))

/-- R154, R156, R164, R168: CSRR reads the control registers (DRV_CYCLE, a count of cycles, apart) and CSRW replaces FFLAGS; a fence,
a halt and a poll do what the table says and nothing else.
The model's choices in it: log 8. -/
def Obligations.DroverControlAndHalt : Prop :=
  ((∀ (d : DroverId) (a : RArgs) (s : State), s.wf = true → drvNext s d (.csrr d a) = true →
     (∀ row ∈ csrRows s d, a.rs2 = row.1 → Completes (.csrr d a) s (WritesX d s a.rd row.2 (getDrv s d).fflags)) ∧
     (a.rs2 = 5 → Completes (.csrr d a) s (fun t => t.fresh = s.fresh + 1 ∧ ∃ w,
       DroverIs d s t (xAfter s d a.rd w) (getV s d) ((getDrv s d).pc + 4) (getDrv s d).fflags))) ∧
   (∀ (d : DroverId) (a : RArgs) (s : State), s.wf = true → drvNext s d (.csrw d a) = true →
     Completes (.csrw d a) s (WritesX d s 0 0 ((getX s d a.rs1.toNat).setWidth 5)))) ∧
  ((∀ (d : DroverId) (a : SArgs) (s : State), s.wf = true → drvNext s d (.droverFence d a) = true →
     Completes (.droverFence d a) s (WritesX d s 0 0 (getDrv s d).fflags)) ∧
   (∀ (d : DroverId) (a : RArgs) (s : State), s.wf = true → drvNext s d (.halt d a) = true →
     Completes (.halt d a) s (fun t => OnlyDrover d s t ∧ getDrv t d = { getDrv s d with st := .halted })) ∧
   (∀ (d : DroverId) (a : RArgs) (s : State), s.wf = true → drvNext s d (.mpoll d a) = true →
     ∀ x : LaunchSlot, (getEng s (d / 64)).slots[(getX s d a.rs1.toNat).toNat % 4]? = some x →
     Completes (.mpoll d a) s (fun t =>
       DroverIs d s t (xAfter s d a.rd (x.state.zeroExtend 32)) (getV s d) ((getDrv s d).pc + 4) (getDrv s d).fflags ∧
       (x.state ≠ 3 → OnlyDrover d s t) ∧
       (x.state = 3 → (getEng t (d / 64)).slots[(getX s d a.rs1.toNat).toNat % 4]? = some {}) ∧ t.mem = s.mem ∧ t.sync = s.sync)))

/-- R167 to R169: a tally instruction sends its operation and the drover waits; MLAUNCH queues its image in a free launch slot, and
waits while all four are taken.
The model's choices in it: log 18. -/
def Obligations.DroverTalliesAndLaunches : Prop :=
  (∀ (d : DroverId) (a : SArgs) (s : State), s.wf = true →
     let vid := (getX s d a.rs1.toNat).toNat
     let n := getX s d a.rs2.toNat
     let rows : List (Instr × Nat × Word) := [(.tsig d a, 8, n), (.twait d a, 9, n), (.tbar d a, 10, n), (.tread d a, 11, 0)]
     ∀ row ∈ rows, drvNext s d row.1 = true →
       ((vid < 65536 ∧ (getTally s (getGrp s (d / 16)).ctx vid).isSome ∧ opDone s (.drover d) (getDrv s d).ord = none ∧
           (row.2.1 = 8 → 1 ≤ n.toNat ∧ n.toNat ≤ 255) →
         Completes row.1 s (TallyIssued d s row.2.1 vid a.scope.toNat row.2.2 a.rd.toNat)) ∧
       (65536 ≤ vid ∨ (row.2.1 = 8 ∧ (n = 0 ∨ 255 < n.toNat)) →
         Completes row.1 s (fun t => DroverFaults d s t ∧ t.sync = s.sync)))) ∧
  (∀ (d : DroverId) (a : RArgs) (s : State), s.wf = true → drvNext s d (.mlaunch d a) = true →
     let at_ := (getX s d a.rs1.toNat).toNat
     let len := fieldAt (lstoreBytes s d at_ 4) 2 2
     let p := lstoreBytes s d at_ (64 * len)
     at_ % 64 = 0 → 1 ≤ len → len ≤ 4 → at_ + 64 * len ≤ 0x800 → imageCheck s d p = none →
     ((∃ i, i < 4 ∧ ∃ x : LaunchSlot, (getEng s (d / 64)).slots[i]? = some x ∧ x.state = 0) →
       Completes (.mlaunch d a) s (fun t => ∃ n, n < 4 ∧
         (∃ x : LaunchSlot, (getEng s (d / 64)).slots[n]? = some x ∧ x.state = 0) ∧
         (∃ y : LaunchSlot, (getEng t (d / 64)).slots[n]? = some y ∧ y.state = 1 ∧ y.image = p ∧ y.drover = d.val) ∧
         (∀ i : Nat, i ≠ n → (getEng t (d / 64)).slots[i]? = (getEng s (d / 64)).slots[i]?) ∧
         (getX t d a.rd.toNat = if a.rd = 0 then 0 else BitVec.ofNat 32 n) ∧ (getDrv t d).pc = (getDrv s d).pc + 4 ∧
         t.mem = s.mem ∧ t.sync = s.sync)) ∧
     ((∀ (i : Nat) (x : LaunchSlot), i < 4 → (getEng s (d / 64)).slots[i]? = some x → x.state ≠ 0) →
       Completes (.mlaunch d a) s (fun t => OnlyDrover d s t ∧ getDrv t d = getDrv s d)))

/-- R156, R158, R160: the floating-point vector instructions work lane by lane in the format of their type and OR the flags of
every lane into FFLAGS.
The model's choices in it: logs 9 and 15. -/
def Obligations.DroverVectorFloat : Prop :=
  (∀ row ∈ vfp2Rows, ∀ (d : DroverId) (a : VArgs) (s : State), s.wf = true → drvNext s d (row.1 d a) = true →
    let w := fpWidth a.ty
    let f := fun i => row.2 (fpType a.ty) (lane w (getV s d a.va.toNat) i) (lane w (getV s d a.vb.toNat) i)
    Completes (row.1 d a) s (WritesV d s a.vd (byLane w (fun i => (f i).1)) (flAfter s d (orFlags ((List.range (256 / w)).map f))))) ∧
  (∀ row ∈ vfp1Rows, ∀ (d : DroverId) (a : VArgs) (s : State), s.wf = true → drvNext s d (row.1 d a) = true →
    let w := fpWidth a.ty
    let f := fun i => row.2 (fpType a.ty) (lane w (getV s d a.va.toNat) i)
    Completes (row.1 d a) s (WritesV d s a.vd (byLane w (fun i => (f i).1)) (flAfter s d (orFlags ((List.range (256 / w)).map f))))) ∧
  (∀ (d : DroverId) (a : VArgs) (s : State), s.wf = true → drvNext s d (.vfma d a) = true →
    let w := fpWidth a.ty
    let f := fun i => fpFma (fpType a.ty) (lane w (getV s d a.va.toNat) i) (lane w (getV s d a.vb.toNat) i)
      (lane w (getV s d a.vc.toNat) i)
    Completes (.vfma d a) s (WritesV d s a.vd (byLane w (fun i => (f i).1)) (flAfter s d (orFlags ((List.range (256 / w)).map f)))))

/-- R156: the integer vector instructions work lane by lane; VSEL selects bit by bit; VRADD leaves the sum in lane 0. -/
def Obligations.DroverVectorInteger : Prop :=
  (∀ row ∈ vintRows, ∀ (d : DroverId) (a : VArgs) (s : State), s.wf = true → drvNext s d (row.1 d a) = true →
    let w := intWidth a.ty
    Completes (row.1 d a) s (WritesV d s a.vd
      (byLane w (fun i => row.2 w (lane w (getV s d a.va.toNat) i) (lane w (getV s d a.vb.toNat) i))) (getDrv s d).fflags)) ∧
  (∀ (d : DroverId) (a : VArgs) (s : State), s.wf = true → drvNext s d (.vsel d a) = true →
    Completes (.vsel d a) s (WritesV d s a.vd ((getV s d a.va.toNat &&& getV s d a.vc.toNat) |||
      (getV s d a.vb.toNat &&& ~~~(getV s d a.vc.toNat))) (getDrv s d).fflags)) ∧
  (∀ (d : DroverId) (a : VArgs) (s : State), s.wf = true → drvNext s d (.vradd d a) = true →
    Completes (.vradd d a) s (WritesV d s a.vd (byLane 32 (fun i => if i = 0 then
      ((List.range 8).map (lane 32 (getV s d a.va.toNat))).sum else 0)) (getDrv s d).fflags))

/-- R156, R161, R162: inserts, extracts and splats of lanes, the reductions by their pairwise tree, and permutes, rotates and sorts.
The model's choices in it: logs 13 and 17. -/
def Obligations.DroverVectorLanes : Prop :=
  (∀ (d : DroverId) (a : XArgs) (s : State), s.wf = true →
     let w := xWidth a.ty
     let x := (getX s d a.x.toNat).toNat
     (drvNext s d (.vsplat d a) = true →
       Completes (.vsplat d a) s (WritesV d s a.vd (byLane w (fun _ => x)) (getDrv s d).fflags)) ∧
     (drvNext s d (.vmov d a) = true →
       Completes (.vmov d a) s (WritesV d s a.vd (getV s d a.va.toNat) (getDrv s d).fflags)) ∧
     (drvNext s d (.vins d a) = true → a.lane.toNat < 256 / w →
       Completes (.vins d a) s (WritesV d s a.vd
         (byLane w (fun i => if i = a.lane.toNat then x else lane w (getV s d a.vd.toNat) i)) (getDrv s d).fflags)) ∧
     (drvNext s d (.vins d a) = true → 256 / w ≤ a.lane.toNat → Completes (.vins d a) s (fun t => t.fresh = s.fresh + 1 ∧
       ∃ y, DroverIs d s t (getX s d) (vAfter s d a.vd y) ((getDrv s d).pc + 4) (getDrv s d).fflags)) ∧
     (drvNext s d (.vext d a) = true → a.lane.toNat < 256 / w →
       Completes (.vext d a) s (WritesX d s a.x (BitVec.ofInt 32 (signedOf w (lane w (getV s d a.va.toNat) a.lane.toNat)))
         (getDrv s d).fflags)) ∧
     (drvNext s d (.vext d a) = true → 256 / w ≤ a.lane.toNat → Completes (.vext d a) s (fun t => t.fresh = s.fresh + 1 ∧
       ∃ y, DroverIs d s t (xAfter s d a.x y) (getV s d) ((getDrv s d).pc + 4) (getDrv s d).fflags))) ∧
  ((∀ row ∈ reduceRows, ∀ (d : DroverId) (a : VArgs) (s : State), s.wf = true → drvNext s d (row.1 d a) = true →
     let r := (reduceV s d a row.2).headD (0, noFlags)
     let q := if a.ty = 0 then (r.1, noFlags) else toIeee (fpType a.ty) (v32 r.1)
     Completes (row.1 d a) s (WritesV d s a.vd (byLane (fpWidth a.ty) (fun i => if i = 0 then q.1 else 0))
       (flAfter s d (r.2.or q.2)))) ∧
   (∀ (d : DroverId) (a : VArgs) (s : State), s.wf = true → drvNext s d (.vrmaxi d a) = true →
     let r := (reduceV s d a (redMax true)).headD (0, noFlags)
     let at_ := ((List.range 8).find? (fun i => eqV (v32 (lane 32 (getV s d a.va.toNat) i)) (v32 r.1))).getD 0
     Completes (.vrmaxi d a) s (WritesV d s a.vd
       (byLane 32 (fun i => if i = 0 then r.1 else if i = 1 ∧ (v32 r.1).isNaN = false then at_ else 0)) (flAfter s d r.2)))) ∧
  ((∀ (d : DroverId) (a : VArgs) (s : State), s.wf = true → drvNext s d (.vperm d a) = true →
     let w := permWidth a.ty
     Completes (.vperm d a) s (WritesV d s a.vd (byLane w (fun i =>
       lane w (getV s d a.va.toNat) (lane w (getV s d a.vb.toNat) i % (256 / w)))) (getDrv s d).fflags)) ∧
   (∀ (d : DroverId) (a : VArgs) (s : State), s.wf = true → drvNext s d (.vrot d a) = true →
     let w := permWidth a.ty
     Completes (.vrot d a) s (WritesV d s a.vd (byLane w (fun i =>
       lane w (getV s d a.va.toNat) ((i + a.vc.toNat) % (256 / w)))) (getDrv s d).fflags)) ∧
   (∀ (d : DroverId) (a : VArgs) (s : State), s.wf = true → drvNext s d (.vsort d a) = true →
     let l := (List.range 8).map (fun i => (lane 32 (getV s d a.va.toNat) i, lane 32 (getV s d a.vb.toNat) i))
     ∃ r : List (Nat × Nat), r.Perm l ∧ r.Pairwise (fun p q => sortAbove q.1 p.1 = false) ∧
       (∀ k, r.filter (fun p => p.1 = k) = l.filter (fun p => p.1 = k)) ∧
       Completes (.vsort d a) s (fun t => OnlyDrover d s t ∧ DroverIs d s t (getX s d) (fun i =>
         if i = a.vd.toNat + 1 then ofLanes 32 (r.map (·.2)) else if i = a.vd.toNat then ofLanes 32 (r.map (·.1)) else getV s d i)
         ((getDrv s d).pc + 4) (getDrv s d).fflags)))

/-- R163, R165, R166: VCVT converts the elements of one part and keeps the rest of a register it does not fill; VPACK writes
the packed bytes and the scales; VUNPK writes four registers. A format code they do not take raises FORMAT_UNSUPPORTED.
The model's choices in it: log 49. -/
def Obligations.DroverVectorConversions : Prop :=
  (∀ (d : DroverId) (a : CArgs) (s : State), s.wf = true → drvNext s d (.vcvt d a) = true →
    let bs := cvtBits a.src.toNat
    let bd := cvtBits a.dst.toNat
    let n := 256 / max bs bd
    let k := n * a.part.toNat
    let f := fun i => cvtElem a.src.toNat a.dst.toNat (lane bs (getV s d a.va.toNat) i)
    (bs ≠ 0 → bd ≠ 0 → Completes (.vcvt d a) s (WritesV d s a.vd
      (byLane bd (fun i => if bs < bd then (f (k + i)).1 else if bs = bd then (f i).1
        else if k ≤ i ∧ i < k + n then (f (i - k)).1 else lane bd (getV s d a.vd.toNat) i))
      (flAfter s d (orFlags ((List.range n).map (fun i => f (if bs < bd then k + i else i))))))) ∧
    (bs = 0 ∨ bd = 0 → Completes (.vcvt d a) s (DroverFaults d s))) ∧
  (∀ (d : DroverId) (a : PArgs) (s : State), s.wf = true →
    let off := if kindHalf a.kind.toNat then 16 * a.part.toNat else 0
    (drvNext s d (.vpack d a) = true → a.kind.toNat ≤ 10 →
      let l := ((List.range 4).map (fun i => lanes 32 (getV s d (a.va.toNat + i)))).flatten
      let r := packKind a.kind.toNat (l.map v32)
      Completes (.vpack d a) s (fun t => OnlyDrover d s t ∧ DroverIs d s t (xAfter s d a.x (BitVec.ofNat 32 r.2.1))
        (vAfter s d a.vd (ofBytes (putAt (vBytes (getV s d a.vd.toNat)) off r.1))) ((getDrv s d).pc + 4)
        (flAfter s d (r.2.2.or { nv := l.any (isSNaN fp32) })))) ∧
    (drvNext s d (.vunpk d a) = true → a.kind.toNat ≤ 10 →
      let l := unpackKind a.kind.toNat ((vBytes (getV s d a.va.toNat)).drop off) (getX s d a.x.toNat).toNat
      Completes (.vunpk d a) s (fun t => OnlyDrover d s t ∧ DroverIs d s t (getX s d) (fun i =>
        if a.vd.toNat ≤ i ∧ i < a.vd.toNat + 4 then ofLanes 32 (((chunksOf 8 l)[i - a.vd.toNat]?).getD []) else getV s d i)
        ((getDrv s d).pc + 4) (getDrv s d).fflags)) ∧
    (drvNext s d (.vpack d a) = true → 10 < a.kind.toNat → Completes (.vpack d a) s (DroverFaults d s)) ∧
    (drvNext s d (.vunpk d a) = true → 10 < a.kind.toNat → Completes (.vunpk d a) s (DroverFaults d s)))

/-- R146, R152, R156: VLD, VST, VGATH and VSCAT with every access aligned and inside the window; where one access of a gather
or scatter is not, it is a fault, and a scatter has stored nothing.
The model's choices in it: log 59. -/
def Obligations.DroverVectorMemory : Prop :=
  ∀ (d : DroverId) (a : MArgs) (s : State), s.wf = true →
    let addr := (getX s d a.rs1.toNat + 32 * a.off.signExtend 32).toNat
    let at_ := fun i => (BitVec.ofNat 32 addr + 4 * BitVec.ofNat 32 (lane 32 (getV s d a.va.toNat) i)).toNat
    (drvNext s d (.vld d a) = true → Readable s d addr 32 →
      Completes (.vld d a) s (fun t => LoadKeeps d s t ∧
        DroverIs d s t (getX s d) (vAfter s d a.vd (ofBytes (windowBytes s d addr 32))) ((getDrv s d).pc + 4) (getDrv s d).fflags)) ∧
    (drvNext s d (.vst d a) = true → Writable d addr 32 →
      Completes (.vst d a) s (Stores d s addr (vBytes (getV s d a.vd.toNat)))) ∧
    (drvNext s d (.vgath d a) = true → (∀ i, i < 8 → Readable s d (at_ i) 4) → s.mem.errors = [] →
      Completes (.vgath d a) s (WritesV d s a.vd (byLane 32 (fun i => leNat (windowBytes s d (at_ i) 4))) (getDrv s d).fflags)) ∧
    (drvNext s d (.vgath d a) = true → (∃ i, i < 8 ∧ (at_ i % 4 ≠ 0 ∨ winPlace d (at_ i) = .outside)) → s.mem.errors = [] →
      Completes (.vgath d a) s (DroverFaults d s)) ∧
    (drvNext s d (.vscat d a) = true → (∀ i, i < 8 → Writable d (at_ i) 4) → s.mem.errors = [] →
      Completes (.vscat d a) s (fun t => DroverIs d s t (getX s d) (getV s d) ((getDrv s d).pc + 4) (getDrv s d).fflags ∧
        (∀ e, e ≠ d.val → getDrv t e = getDrv s e) ∧
        (∀ i, i < 8 → ∃ j, j < 8 ∧ at_ j = at_ i ∧ leNat (windowBytes t d (at_ i) 4) = lane 32 (getV s d a.vd.toNat) j) ∧
        (∀ k, (∀ i, i < 8 → winPlace d k ≠ winPlace d (at_ i)) → k % 4 = 0 → windowBytes t d k 4 = windowBytes s d k 4))) ∧
    (drvNext s d (.vscat d a) = true → (∃ i, i < 8 ∧ ¬ Writable d (at_ i) 4) → s.mem.errors = [] →
      Completes (.vscat d a) s (fun t => DroverFaults d s t ∧ t.comp.lstore = s.comp.lstore ∧ t.sync = s.sync))

/-- R202: a write of a whole aligned 64-bit word replaces an uncorrectable word with a valid one; a write of a part of it leaves the
word uncorrectable, without an event. Every master writes local memory by `gWrite`; the drover stores are two of them. -/
def Obligations.WritesAndUncorrectableWords : Prop :=
  (∀ (s : State) (a : Nat) (bs : List Byte) (w : Nat), s.wf = true → (∀ p x, placeOf s a ≠ .host p x) → (∀ f x, placeOf s a ≠ .fabric f x) →
    (a ≤ 8 * w → 8 * w + 8 ≤ a + bs.length → wordBad (gWrite s a bs) w = false ∧
      ∀ i, i < 8 → some (byteSeen (gWrite s a bs) (8 * w + i)) = bs[8 * w + i - a]?) ∧
    (wordBad s w = true → a < 8 * w + 8 → 8 * w < a + bs.length → ¬ (a ≤ 8 * w ∧ 8 * w + 8 ≤ a + bs.length) →
      wordBad (gWrite s a bs) w = true ∧ (gWrite s a bs).out = s.out ∧ (gWrite s a bs).host = s.host)) ∧
  (∀ row ∈ storeRows, ∀ (d : DroverId) (a : IArgs) (ga : Nat) (s : State), s.wf = true → drvNext s d (row.1 d a) = true →
    let addr := (getX s d a.rs1.toNat + a.imm.signExtend 32).toNat
    addr % row.2 = 0 → winPlace d addr = .mem ga → wordBad s (ga / 8) = true →
    Completes (row.1 d a) s (fun t => wordBad t (ga / 8) = true ∧ t.out = s.out ∧ t.host = s.host ∧ t.frozen = s.frozen)) ∧
  (∀ (d : DroverId) (a : MArgs) (ga w : Nat) (s : State), s.wf = true → drvNext s d (.vst d a) = true →
    let addr := (getX s d a.rs1.toNat + 32 * a.off.signExtend 32).toNat
    addr % 32 = 0 → winPlace d addr = .mem ga → ga ≤ 8 * w → 8 * w + 8 ≤ ga + 32 →
    Completes (.vst d a) s (fun t => wordBad t w = false ∧ t.frozen = s.frozen))

/-! ## Packets of queues -/

/-- R27, R87, R93, R97, R278, R279, R281: a compute packet whose checks pass issues with the blocks and the bounds read at its
issue; its collective, where it has one, starts with it. -/
def Obligations.ComputePacketsIssue : Prop :=
  ∀ (q : QueueId) (p : List Byte) (s : State), s.wf = true → nextPacket s q = some p →
    (∀ row ∈ ([(.matmul q, 1), (.matmulBatched q, 2), (.matvec q, 4)] : List (Instr × Nat)), pkOp p = row.2 →
      planStatic s p (qCtx s q) (qLatency s q) (qBatched s q) none = none →
      ∀ l tb, planBounds s q (qCtx s q) (planOf p) = .ok l tb →
      IssuesFused row.1 q p (planOf p).shape (planRegion (planOf p) l tb)
        { newRun s (.blocks (upFrom 0 (planBlocks (planOf p) l tb)) 0) with bounds := l, table := tb } false s) ∧
    (pkOp p = 5 → convStatic s p (qCtx s q) none = none → ∀ l tb, convBounds s q (qCtx s q) (convOf p) = .ok l tb →
      IssuesFused (.conv q) q p (convOf p).shape (convRegion (convOf p) l)
        { newRun s (.blocks (upFrom 0 (convBlocks (convOf p) l)) 0) with bounds := l } false s) ∧
    (pkOp p = 3 → attnStatic s p (qCtx s q) = none → ∀ l ds, attnBounds s q (qCtx s q) (attnOf p) = .ok l ds →
      IssuesFused (.attend q) q p (attnOf p).shape (attnRegion (attnOf p) (nth0 l 1))
        { newRun s (.attend (if nth0 l 1 = 0 then [] else appendUnits (attnOf p) (nth0 l 2) ds)
            (upFrom 0 (attnBlocks (attnOf p) (nth0 l 1))) 0) with bounds := l, descs := ds } true s)

/-- R97: a packet whose check fails does not issue: the context of its queue is frozen, the packet stays the queue's oldest
accepted one, and no page, tally, ring, channel or local memory of a drover has changed.
The model's choices in it: log 20. -/
def Obligations.FailedIssueCheckFreezes : Prop :=
  ∀ (q : QueueId) (p : List Byte) (s : State), s.wf = true → nextPacket s q = some p →
    let left := fun (t : State) => isFrozen t 1 (qCtx s q) = true ∧ (getQ t q).journal = (getQ s q).journal ∧
      (getQ t q).run = none ∧ t.sync = s.sync ∧ t.kv = s.kv ∧ t.comp = s.comp ∧ t.conv = s.conv
    (∀ row ∈ ([(.matmul q, 1), (.matmulBatched q, 2), (.matvec q, 4)] : List (Instr × Nat)), pkOp p = row.2 →
      planStatic s p (qCtx s q) (qLatency s q) (qBatched s q) none ≠ none → Completes row.1 s left) ∧
    (pkOp p = 5 → convStatic s p (qCtx s q) none ≠ none → Completes (.conv q) s left) ∧
    (pkOp p = 3 → attnStatic s p (qCtx s q) ≠ none → Completes (.attend q) s left) ∧
    (pkOp p = 8 → xferCheck s p (qCtx s q) none ≠ none → Completes (.transfer q) s left) ∧
    (pkOp p = 0x09 → ringCfgCheck s q p ≠ none → Completes (.ringConfig q) s left) ∧
    (pkOp p = 0x20 → launchCheck s q p ≠ none → Completes (.droverLaunch q) s left) ∧
    (pkOp p = 0x13 → dumpCheck s q p ≠ none → Completes (.syncDump q) s left) ∧
    (pkOp p = 0x38 → snapCheck s q p ≠ none → Completes (.snapshot q) s left) ∧
    (pkOp p = 0x39 → freezeCheck s q p ≠ none → Completes (.freezeAt q) s left) ∧
    (∀ row ∈ collRows, pkOp p = 0x18 → (collOf p 104).cop = row.2 → collHead p ≠ none → Completes (row.1 q) s left) ∧
    (opLength (pkOp p) = none → Completes (.nop q) s left)

/-- R270, R271, R280 to R282: a COLLECTIVE packet whose fields, lists and group pass their checks takes its sequence numbers
and the free channel of its group, and waits for its local part.
The model's choices in it: log 29. -/
def Obligations.CollectivePacketsStart : Prop :=
  ∀ row ∈ collRows, ∀ (q : QueueId) (p : List Byte) (s : State), s.wf = true → nextPacket s q = some p → pkOp p = 0x18 →
    let b := collOf p 104
    let c := collPacketOf p
    b.cop = row.2 → collHead p = none → handing s 21 = false →
    ∀ n g, readBound s q (qCtx s q) 0 b.count = .ok n → collCheck s (qCtx s q) p n none = none → ChannelIdle s q b g →
    (c.kind = 1 → ∃ d, xRead s (qCtx s q) c.src (4 * n) = .ok d ∧ pageFail s (qCtx s q) ((words32 d).map (·.toNat)) = none) →
    (b.cop = 5 → ∃ d, xRead s (qCtx s q) c.counts (4 * g.members.length) = .ok d) →
    Completes (row.1 q) s (fun t => Issued q p { newRun s .coll with coll := some (b.group % 32), collDone := false } s t ∧
      CollStarted q b g n s t ∧ t.comp = s.comp ∧ t.sync = s.sync)

/-- R243 to R249: SIGNAL, WAIT and BARRIER send one operation to the home of the tally that the packet names, under its own
scope and amount; a remote SIGNAL sends one message to the fabric ID it names. -/
def Obligations.TallyPacketsSend : Prop :=
  ∀ (q : QueueId) (p : List Byte) (s : State), s.wf = true → Fresh s q p → headerCheck p = none → fieldAt p 19 1 < 8 →
    let mapped := (getTally s (qCtx s q) (fieldAt p 16 2)).isSome = true
    (pkOp p = 0x10 → fieldAt p 18 1 = 0 → fieldAt p 20 4 ≠ 0 → fieldAt p 24 2 = 0 → fieldAt p 26 1 = 0 → fieldAt p 27 37 = 0 →
      mapped → Completes (.signalAdd q) s (TallySent q p 1 s)) ∧
    (pkOp p = 0x10 → fieldAt p 18 1 = 1 → fieldAt p 20 4 ≠ 0 → fieldAt p 24 2 = 0 → fieldAt p 26 1 = 0 → fieldAt p 27 37 = 0 →
      mapped → Completes (.signalSub q) s (TallySent q p 2 s)) ∧
    (pkOp p = 0x10 → fieldAt p 18 1 = 0 → fieldAt p 20 4 ≠ 0 → bitOf (fieldAt p 24 2) 15 = true → bitOf (fieldAt p 24 2) 14 = false →
      fieldAt p 27 37 = 0 →
      Completes (.signalAdd q) s (fun t => Issued q p (newRun s (.tally false)) s t ∧ t.sync = s.sync ∧ t.mem = s.mem ∧
        ∃ sg : RemoteSignal, t.out = s.out ++ [.rolre (fieldAt p 24 2 % 2 ^ 14) 1 5 0 0 [] (some sg)] ∧
          sg.vid.toNat = fieldAt p 16 2 ∧ sg.group.val = fieldAt p 26 1 ∧ sg.scope.toNat = fieldAt p 19 1 ∧
          sg.amount.toNat = fieldAt p 20 4)) ∧
    (pkOp p = 0x11 → fieldAt p 18 1 = 0 → fieldAt p 24 40 = 0 → mapped → Completes (.waitAtLeast q) s (TallySent q p 3 s)) ∧
    (pkOp p = 0x11 → fieldAt p 18 1 = 1 → fieldAt p 24 40 = 0 → mapped → Completes (.waitTake q) s (TallySent q p 4 s)) ∧
    (pkOp p = 0x12 → fieldAt p 18 1 = 0 → fieldAt p 24 40 = 0 → mapped → Completes (.barrier q) s (TallySent q p 5 s))

/-- R172, R208, R225, R261: FENCE, DROVER_LAUNCH, RING_CONFIG and SYNC_DUMP issue when their checks pass, and wait: for their
writes, their groups, their rings, and the cut at the next stage boundary.
The model's choices in it: log 20. -/
def Obligations.WaitingPacketsIssue : Prop :=
  ∀ (q : QueueId) (p : List Byte) (s : State), s.wf = true → nextPacket s q = some p →
    (pkOp p = 0x3E → headerCheck p = none → fieldAt p 16 1 ≤ 4 → fieldAt p 17 47 = 0 →
      Completes (.fence q) s (IssuedAlone q p (newRun s .fence) false s)) ∧
    (pkOp p = 0x20 → launchCheck s q p = none →
      Completes (.droverLaunch q) s (IssuedAlone q p (newRun s (.launch false false)) false s)) ∧
    (pkOp p = 0x13 → dumpCheck s q p = none →
      Completes (.syncDump q) s (IssuedAlone q p (newRun s (.dump (s.stage + 1) false)) false s)) ∧
    (pkOp p = 0x09 → ringCfgCheck s q p = none →
      (bitOf (fieldAt p 33 1) 0 = true → ∀ fill : Bool, ∃ y : Tally,
        getTally s (qCtx s q) (fieldAt p (if fill then 34 else 36) 2) = some y ∧ y.scope.toNat = fieldAt p 38 1) →
      Completes (.ringConfig q) s (IssuedAlone q p
        (newRun s (.ringCfg (maskEngines (fieldAt p 16 4) (fieldAt p 20 2)))) false s))

/-- R368, R382, R409, R477: NOP, HINT and FREEZE_AT complete at issue; a HINT begins or ends its phase, a FREEZE_AT arms its
stage, or freezes the device at once when that has passed; a SNAPSHOT is scheduled, latched at once when late, or waits while
sixteen are pending.
The model's choices in it: logs 20 and 35. -/
def Obligations.PacketsThatCompleteAtIssue : Prop :=
  ∀ (q : QueueId) (p : List Byte) (s : State), s.wf = true → nextPacket s q = some p →
    let done := PacketDone q p 0 (unissuedTail s q) s
    let id := BitVec.ofNat 8 (fieldAt p 16 1)
    let isIt := fun (x : Phase) => decide (x.ctx = qCtx s q ∧ x.id = id)
    let n := BitVec.ofNat 64 (stageOf s (fieldAt p 16 8) (bitOf (fieldAt p 24 1) 0))
    let m := BitVec.ofNat 64 (stageOf s (fieldAt p 16 8) (bitOf (fieldAt p 37 1) 0))
    let atOnce := m.toNat ≤ s.stage.toNat ∧ latchFrom s ≤ s.stage.toNat ∧ s.fab.snaps = []
    (pkOp p = 0x3F → headerCheck p = none → Completes (.nop q) s (fun t => done t ∧ t.comp = s.comp ∧ t.conv = s.conv)) ∧
    (pkOp p = 0x30 → headerCheck p = none → fieldAt p 17 1 ≤ 6 → fieldAt p 18 1 < 4 → fieldAt p 19 1 = 0 → fieldAt p 32 32 = 0 →
      (bitOf (fieldAt p 18 1) 1 = false → fieldAt p 24 8 = 0) →
      Completes (.hint q) s (fun t => done t ∧
        (bitOf (fieldAt p 18 1) 0 = true → t.power.phases.filter isIt = []) ∧
        (bitOf (fieldAt p 18 1) 0 = false → ∃ x : Phase, t.power.phases.filter isIt = [x] ∧ x.cls.toNat = fieldAt p 17 1 ∧
          x.duration.toNat = fieldAt p 20 4 ∧ (x.awaits = if bitOf (fieldAt p 18 1) 1 then none else some q.val)))) ∧
    (pkOp p = 0x39 → freezeCheck s q p = none →
      (s.stage.toNat < n.toNat → ¬ (s.dev.fstate = 1 ∧ s.dev.fstage.toNat ≤ n.toNat) → Completes (.freezeAt q) s (fun t => done t ∧
        t.dev.fstate = 1 ∧ t.dev.fstage = n ∧ t.dev.ftag.toNat = pkTag p)) ∧
      (s.stage.toNat < n.toNat → s.dev.fstate = 1 → s.dev.fstage.toNat ≤ n.toNat → Completes (.freezeAt q) s (fun t => done t ∧
        t.dev.fstate = 1 ∧ t.dev.fstage = s.dev.fstage ∧ t.dev.ftag = s.dev.ftag)) ∧
      (n.toNat ≤ s.stage.toNat → Completes (.freezeAt q) s (fun t => done t ∧ devFrozen t = true))) ∧
    (pkOp p = 0x38 → snapCheck s q p = none →
      (atOnce → Completes (.snapshot q) s (fun t => t.fab.lastLatch = some s.stage ∧ curPacket t q = some p ∧
        (fieldAt p 24 8 = 0 → ∃ r, (getQ t q).run = some r ∧ r.work = .snap m true))) ∧
      (¬ atOnce → s.fab.snaps.length < 16 → Completes (.snapshot q) s (fun t =>
        Issued q p (newRun s (.snap m false)) s t ∧ t.fab = { s.fab with snaps := s.fab.snaps ++ [⟨m, q⟩] })) ∧
      (¬ atOnce → 16 ≤ s.fab.snaps.length → Completes (.snapshot q) s (fun t => t = s)))

/-- R27, R143, R379, R383, R384: a fetch takes the next packet of the ring into the journal and moves the consumed index past
it, or counts a duplicate; a packet completes when its work, its collective and its fabric accesses have ended, after its
pages are sealed.
The model's choices in it: log 21. -/
def Obligations.PacketFetchAndCompletion : Prop :=
  (∀ (q : QueueId) (d : List Byte) (s : State), s.wf = true →
    let n := fetchSlots s q d
    let next := BitVec.ofNat 16 (((getQ s q).consumed.toNat + n) % sqSize s q)
    mayFetch s q = true → d.length = 64 * n → n ≤ slotsReady s q →
    ((getQ s q).accSeq.toNat < pkSeq d → Completes (.packetFetch q d) s (fun t =>
      (∃ e : JEntry, (getQ t q).journal = (getQ s q).journal ++ [e] ∧ e.bytes = d ∧ e.life = .accepted ∧ e.no = s.host.accepts) ∧
      (getQ t q).accSeq.toNat = pkSeq d ∧ (getQ t q).consumed = next ∧ (getQ t q).run = (getQ s q).run ∧
      (∀ k, k ≠ q.val → getQ t k = getQ s k) ∧ t.host.accepts = s.host.accepts + 1 ∧ t.sync = s.sync ∧ t.comp = s.comp)) ∧
    (pkSeq d ≤ (getQ s q).accSeq.toNat → Completes (.packetFetch q d) s (fun t =>
      (getQ t q).journal = (getQ s q).journal ∧ (getQ t q).consumed = next ∧ (getQ t q).accSeq = (getQ s q).accSeq ∧
      ((getQ s q).dups ≠ 0xFFFFFFFF → (getQ t q).dups = (getQ s q).dups + 1) ∧
      (∀ k, k ≠ q.val → getQ t k = getQ s k) ∧ t.mem = s.mem ∧ t.sync = s.sync ∧ t.comp = s.comp))) ∧
  (∀ (q : QueueId) (p : List Byte) (r : Run) (s : State), s.wf = true → devRuns s = true → (getQ s q).run = some r →
    curPacket s q = some p → workEnded r.work = true → r.collDone = true → acked s q = true →
    (r.status ≠ 0 → Completes (.packetComplete q) s (PacketDone q p r.status.toNat (unissued s q) s)) ∧
    (r.status = 0 → ∀ u, sealAll s q (pkTag p) (sealsOf s p r) = .done u →
      Completes (.packetComplete q) s (PacketDone q p 0 (unissued s q) s)))

/-! ## Blocks, tiles, launches -/

/-- R53, R70, R109, R391: a free engine takes the block that the placement order offers it from the queue that comes first in
that order; a warm array without a block goes idle.
The model's choices in it: log 4. -/
def Obligations.BlocksArePlaced : Prop :=
  (∀ (e : EngineId) (q : QueueId) (r : Run) (s : State), s.wf = true → devRuns s = true → handing s (23 + e.val / 640) = false →
    (getQ s q).run = some r →
    let l := nextPlacement s q r e
    l ≠ [] → l.Pairwise (fun a b => a.2 ≠ b.2) →
    (∀ k r', k ≠ q.val → (getQ s k).run = some r' → nextPlacement s k r' e ≠ [] → placedBefore s (q, r) (k, r') = true) →
    Completes (.blockPlace e) s (fun t =>
      (∀ b ∈ l, ∃ x : BlockRun, (getEng t b.2).block = some x ∧ x.owner = .queue q ∧ x.no = b.1 ∧ x.tile = 0) ∧
      (∀ k, (∀ b ∈ l, b.2 ≠ k) → getEng t k = getEng s k) ∧
      (∃ r' : Run, (getQ t q).run = some r' ∧ placeable r' = (placeable r).filter (fun n => !(l.map (·.1)).contains n)) ∧
      (∀ k, k ≠ q.val → getQ t k = getQ s k) ∧ t.mem = s.mem ∧ t.sync = s.sync ∧ t.kv = s.kv)) ∧
  (∀ (e : EngineId) (s : State), s.wf = true → devRuns s = true →
    (getEng s e).array = 3 ∨ ((getEng s e).array = 1 ∧ (getEng s e).block = none) →
    Completes (.arrayRampDown e) s (fun t =>
      t = { s with comp := { s.comp with engines := t.comp.engines } } ∧
      getEng t e = { getEng s e with array := 0, activeRows := 0 } ∧ ∀ k, k ≠ e.val → getEng t k = getEng s k))

/-- R62 to R68: a tile that passes its check is released and its block moves on, or ends; a first failure is counted against the
engine; a second one quarantines the engine, and where no other engine can take the block the packet ends with
REPLAY_REQUIRED.
The model's choices in it: logs 14 and 22. -/
def Obligations.TilesAreChecked : Prop :=
  ∀ (e : EngineId) (hw : TileHw) (b b1 : BlockRun) (d : TileDone) (ended : Bool) (slices : Nat) (q : QueueId) (s : State),
    s.wf = true → devRuns s = true → (getEng s e).block = some b → b.owner = .queue q → b1.owner = b.owner →
    let ctx := ownerCtx s b.owner
    heldBack s ctx (srcOf 1 e) (pkTag (ownerBytes s b.owner)) = false →
    nextTile s e b = .formed d b1 ended slices → writesFail s b d = false →
    (∀ u, hw.faulty = false → d.fails = 0 → xWriteAll (d.fill s) ctx d.writes = .ok u →
      Completes (.tileCheck e hw) s (fun t => (getEng t e).block = (if ended then none else some b1) ∧
        (getEng t e).mismatches = (getEng s e).mismatches ∧ t.mem = (d.drain (tagSent s u b.owner)).mem)) ∧
    (∀ u, hw.faulty = true → hw.again = false → d.fails = 0 → (getEng s e).mismatches ≠ 0xFF →
      xWriteAll (d.fill (mismatchRecord (countMismatch s e) e b d 0 hw.columns.toNat 0xFFFFFFFF)) ctx d.writes = .ok u →
      Completes (.tileCheck e hw) s (fun t => (getEng t e).mismatches = (getEng s e).mismatches + 1 ∧
        (getEng t e).quarantined = (getEng s e).quarantined ∧ (getEng t e).block = (if ended then none else some b1))) ∧
    (∀ p, hw.faulty = true → hw.again = true → otherServes s e = false → curPacket s q = some p →
      Completes (.tileCheck e hw) s (fun t => (getEng t e).quarantined = true ∧ (getEng t e).block = none ∧
        (getQ t q).stopped = true ∧ (getQ t q).run = none)) ∧
    (hw.faulty = true → hw.again = true → hw.outcome = 0 → d.fails = 0 → otherServes s e = true → hw.other ≠ e →
      cluOf hw.other = cluOf e → engFree s hw.other = true →
      Completes (.tileCheck e hw) s (fun t => (getEng t e).quarantined = true ∧ (getEng t e).block = none))

/-- R125 to R127: the next append unit writes the new tokens of its head into its page, where it holds more of them than the
page does, and leaves the list of units; a page to be allocated first takes a frame.
The model's choices in it: log 18. -/
def Obligations.AppendUnitsWriteTokens : Prop :=
  ∀ (q : QueueId) (p : List Byte) (r : Run) (u i : Nat) (us todo : List Nat) (n : Nat) (s : State), s.wf = true → devRuns s = true →
    (getQ s q).run = some r → curPacket s q = some p → r.work = .attend (u :: us) todo n →
    heldBack s (qCtx s q) (srcOf 3 q) (pkTag p) = false →
    let a := attnOf p
    let d := nthL r.descs u
    let rg := appendRange (nth0 r.bounds 0) (nth0 r.bounds 1) d
    let off := fun (t : State) => ∃ r' : Run, (getQ t q).run = some r' ∧ r'.work = .attend ((u :: us).filter (· ≠ u)) todo n ∧ i ∈ r'.seals
    descIdx s a (u / nth0 r.bounds 2) d = some i →
    (dAlloc d = false → (getWay s i).state ≠ 1 ∨ rg.2 - dPos d ≤ (getWay s i).fill →
      Completes (.appendUnit q) s (fun t => off t ∧ t.mem = s.mem ∧ t.kv = s.kv ∧ t.sync = s.sync)) ∧
    (dAlloc d = false → (getWay s i).state = 1 → (getWay s i).fill < rg.2 - dPos d → rg.2 - dPos d ≤ 256 → (poolOf s i).isSome = true →
      ∀ tab kv, ropeTable s (qCtx s q) a = .ok tab →
      newRows s (qCtx s q) a tab (nth0 r.bounds 0) (u / nth0 r.bounds 2) rg.1 (rg.2 - rg.1) = .ok kv →
      Completes (.appendUnit q) s (fun t => off t ∧ getWay t i = { getWay s i with fill := rg.2 - dPos d } ∧
        (∀ k, k ≠ i → getWay t k = getWay s k) ∧ t.sync = s.sync)) ∧
    (∀ pt sq, dAlloc d = true → (getWay s i).state = 0 → poolOf s i = some pt → seqOf s a.handle = some sq → framesFree s pt ≠ 0 →
      s.kv.stalls = [] → Completes (.appendUnit q) s (fun t => (getWay t i).state = 1 ∧ (∀ k, k ≠ i → getWay t k = getWay s k) ∧
        t.sync = s.sync)) ∧
    (∀ pt sq, dAlloc d = true → (getWay s i).state = 0 → poolOf s i = some pt → seqOf s a.handle = some sq → framesFree s pt = 0 →
      s.kv.stalls.any (fun x => x.queue = q.val && x.kind = 1 && x.index = i) = false →
      Completes (.appendUnit q) s (fun t => (getQ t q).run = some r ∧ (getWay t i).state = 0 ∧
        ∃ x : Stall, x ∈ t.kv.stalls ∧ x.queue = q.val ∧ x.kind = 1 ∧ x.index = i ∧ x.frame = none))

/-- R150, R171 to R173: when its groups are free, a launch loads each with its code, its record and sixteen drovers at their
start; when every drover has halted it completes, and its groups are free again.
Then the launch slots: R169, R170: an engine that can take a launched macro goes on with the blocks of the one that runs, or takes the one that was
queued first: its checks, then its first block on that engine; without a block it is complete.
The model's choices in it: logs 24 and 25. -/
def Obligations.DroverLaunchesRun : Prop :=
  ((∀ (q : QueueId) (p : List Byte) (r : Run) (x : Bool) (code args : List Byte) (s : State), s.wf = true → devRuns s = true →
     curPacket s q = some p → (getQ s q).run = some r → r.work = .launch false x → isFrozen s 1 (qCtx s q) = false →
     let gs := launchList p
     (∀ g ∈ gs, (getGrp s g).queue = none) → behindLaunch s q gs = false →
     xRead s (qCtx s q) (fieldAt p 16 8) (fieldAt p 32 4) = .ok code → xRead s (qCtx s q) (fieldAt p 24 8) (fieldAt p 36 2) = .ok args →
     Completes (.droverLaunchStart q) s (fun t =>
       (getQ t q).run = some { r with work := .launch true false } ∧ (∀ k, k ≠ q.val → getQ t k = getQ s k) ∧
       (∀ g, g ∉ gs → getGrp t g = getGrp s g) ∧
       (∀ j g, gs[j]? = some g →
         getGrp t g = { queue := some q.val, ctx := qCtx s q, tag := BitVec.ofNat 32 (pkTag p), codeBytes := fieldAt p 32 4
                        argBytes := fieldAt p 36 2, count := 16 * gs.length } ∧
         istoreBytes t g 0 0x8000 = bytesAt code 0 0x8000 ∧
         ∀ i, i < 16 → (getDrv t (16 * g + i)).st = .running ∧ (getDrv t (16 * g + i)).pc = BitVec.ofNat 32 (4 * fieldAt p 38 2) ∧
           getX t (16 * g + i) 1 = BitVec.ofNat 32 (16 * j + i) ∧ getX t (16 * g + i) 2 = BitVec.ofNat 32 (16 * gs.length) ∧
           getX t (16 * g + i) 3 = BitVec.ofNat 32 (fieldAt p 36 2) ∧ (getDrv t (16 * g + i)).v = [] ∧ (getDrv t (16 * g + i)).fflags = 0) ∧
       t.mem = s.mem ∧ t.sync = s.sync)) ∧
   (∀ (q : QueueId) (p : List Byte) (r : Run) (x : Bool) (s : State), s.wf = true → devRuns s = true → curPacket s q = some p →
     (getQ s q).run = some r → r.work = .launch true x → launchOver s q = true → acked s q = true →
     let cut := s.comp.groups.any (fun g => g.2.queue = some q.val && g.2.discarded)
     Completes (.droverLaunchComplete q) s (fun t =>
       PacketDone q p (if cut then 0x20 else r.status.toNat) (unissued s q) s t ∧
       (∀ g, (getGrp s g).queue = some q.val → getGrp t g = {}) ∧ (∀ g, (getGrp s g).queue ≠ some q.val → getGrp t g = getGrp s g)))) ∧
  (∀ (e : EngineId) (n : Nat) (x : LaunchSlot) (s : State), s.wf = true → devRuns s = true → engRuns s e = true →
     (getEng s e).quarantined = false → (getEng s e).block = none → n < 4 → (getEng s e).slots.length = 4 → (getEng s e).slots[n]? = some x →
     (∀ r b bs k, x.state = 2 → x.run = some r → r.work = .blocks (b :: bs) k →
       (∀ (m : Nat) (y : LaunchSlot), m < n → (getEng s e).slots[m]? = some y → ¬ (y.state = 2 ∧ launchHolds y = true)) →
       Completes (.launchSlotTake e) s (fun t => (∃ k : BlockRun, (getEng t e).block = some k ∧ k.owner = .slot e n ∧ k.no = b ∧ k.tile = 0) ∧
         t.mem = s.mem ∧ t.sync = s.sync ∧ t.host = s.host)) ∧
     (x.state = 1 → (∀ (m : Nat) (y : LaunchSlot), (getEng s e).slots[m]? = some y → ¬ (y.state = 2 ∧ launchHolds y = true)) →
       (∀ (m : Nat) (y : LaunchSlot), m ≠ n → (getEng s e).slots[m]? = some y → y.state = 1 → x.order < y.order) →
       let ctx := ownerCtx s (.slot e n)
       let q := ownerQueue s (.slot e n)
       let p := x.image
       heldBack s ctx (srcOf 1 e) (pkTag p) = false →
       (pkOp p ∈ [1, 2, 4] → planStatic s p ctx (qLatency s q) (qBatched s q) (some [e.val]) = none → ∀ l tb,
         planBounds s q ctx (planOf p) = .ok l tb → planBlocks (planOf p) l tb ≠ 0 →
         Completes (.launchSlotTake e) s (fun t => (∃ k : BlockRun, (getEng t e).block = some k ∧ k.owner = .slot e n ∧ k.no = 0 ∧ k.tile = 0) ∧
           (∃ y : LaunchSlot, (getEng t e).slots[n]? = some y ∧ y.state = 2 ∧ y.image = p) ∧ t.mem = s.mem ∧ t.sync = s.sync)) ∧
       (pkOp p = 5 → convStatic s p ctx (some [e.val]) = none → ∀ l tb, convBounds s q ctx (convOf p) = .ok l tb →
         convBlocks (convOf p) l ≠ 0 →
         Completes (.launchSlotTake e) s (fun t => (∃ k : BlockRun, (getEng t e).block = some k ∧ k.owner = .slot e n ∧ k.no = 0 ∧ k.tile = 0) ∧
           (∃ y : LaunchSlot, (getEng t e).slots[n]? = some y ∧ y.state = 2 ∧ y.image = p) ∧ t.mem = s.mem ∧ t.sync = s.sync)) ∧
       (pkOp p = 8 → xferCheck s p ctx (some e.val) = none → (xferOf p (some e.val)).empty = false →
         Completes (.launchSlotTake e) s (fun t => (∃ y : LaunchSlot, (getEng t e).slots[n]? = some y ∧ y.state = 2 ∧ y.image = p) ∧
           (freeChans s (cluOf e) ≠ [] → ∃ ch c, ch ∈ freeChans s (cluOf e) ∧ getChan t ch = some c ∧ c.owner = .slot e n) ∧
           t.mem = s.mem ∧ t.sync = s.sync)) ∧
       (pkOp p = 8 → xferCheck s p ctx (some e.val) = none → (xferOf p (some e.val)).empty = true →
         Completes (.launchSlotTake e) s (fun t => ∃ y : LaunchSlot, (getEng t e).slots[n]? = some y ∧ y.state = 3))))

/-! ## Pages -/

/-- R310 to R313: SEAL seals every selected page that is FILLING; RELEASE frees, and RENEW renews, every selected page that nobody
ships or reads; CLOSE_SEQUENCE frees the sequence with its pages, OPEN_SEQUENCE enters one in a free slot of its partition.
The model's choices in it: log 18. -/
def Obligations.SealPacketsActOnPages : Prop :=
  ∀ (q : QueueId) (p : List Byte) (slot : Nat) (x : Sequence) (s : State), s.wf = true →
    (∀ v, v = selPages s slot (selOf p) → SealIssues s q p 0 slot x → s.mem.errors = [] →
      (∀ i ∈ v, (getWay s i).state = 1 → (poolOf s i).isSome = true) →
      Completes (.seal q) s (fun t => PagesServed q p t ∧
        (∀ i, i ∈ v → (getWay s i).state = 1 → getWay t i = { getWay s i with state := 2 }) ∧
        (∀ i, i ∉ v ∨ (getWay s i).state ≠ 1 → getWay t i = getWay s i) ∧ t.sync = s.sync)) ∧
    (∀ v, v = selPages s slot (selOf p) → SealIssues s q p 1 slot x → (∀ i ∈ v, PageFree s q i) →
      Completes (.release q) s (fun t => PagesServed q p t ∧ (∀ i ∈ v, (getWay t i).state = 0) ∧
        (∀ i, i ∉ v → getWay t i = getWay s i) ∧ t.mem = s.mem ∧ t.sync = s.sync)) ∧
    (∀ v, v = selPages s slot (selOf p) → SealIssues s q p 2 slot x →
      (∀ i ∈ v, (getWay s i).gen < fieldAt p 44 2 → PageFree s q i ∧ (getWay s i).state ≠ 5 ∧ (poolOf s i).isSome = true) →
      Completes (.renew q) s (fun t => PagesServed q p t ∧
        (∀ i, i ∈ v → (getWay s i).gen < fieldAt p 44 2 →
          getWay t i = { getWay s i with gen := fieldAt p 44 2, fill := 0, state := 1, ships := 0 }) ∧
        (∀ i, i ∉ v ∨ fieldAt p 44 2 ≤ (getWay s i).gen → getWay t i = getWay s i) ∧ t.sync = s.sync)) ∧
    (SealIssues s q p 4 slot x → (∀ i ∈ (seqPages s slot).map (·.1), PageFree s q i) →
      Completes (.closeSequence q) s (fun t => PagesServed q p t ∧ tabFind t.kv.sequences slot = none ∧
        (∀ n, n ≠ slot → tabFind t.kv.sequences n = tabFind s.kv.sequences n) ∧
        (∀ i ∈ (seqPages s slot).map (·.1), (getWay t i).state = 0) ∧ t.mem = s.mem ∧ t.sync = s.sync)) ∧
    (∀ pt n, nextPacket s q = some p → pkOp p = 0x2A → fieldAt p 22 1 = 3 → sealForm p = none → partOfCtx s (qCtx s q) = some pt →
      openPlace s pt p = true → freeSlot s pt = some n →
      Completes (.openSequence q) s (fun t => PagesServed q p t ∧
        tabFind t.kv.sequences n = some { handle := BitVec.ofNat 48 (fieldAt p 16 6), ctx := qCtx s q, part := pt.part, layers := fieldAt p 26 2
                                          heads := fieldAt p 30 2, pages := fieldAt p 36 4, base := fieldAt p 40 4 % 2 ^ 24
                                          opened := s.stage, swapping := [] } ∧
        (∀ k, k ≠ n → tabFind t.kv.sequences k = tabFind s.kv.sequences k) ∧ t.kv.waybill = s.kv.waybill ∧ t.mem = s.mem ∧
        t.sync = s.sync))

/-- R322, R323, R336, R337: KV_SHIP binds or checks its stream and adds its selection to the stream's; KV_IMPORT brings each record
whose key, format and CRC hold into a frame as an IMPORTED page.
The model's choices in it: logs 18 and 31. -/
def Obligations.ShipAndImportPackets : Prop :=
  (∀ (q : QueueId) (p : List Byte) (y : Nat × Sequence) (s : State), s.wf = true → nextPacket s q = some p → pkOp p = 0x28 →
    (∃ e l, (getQ s q).journal = e :: l ∧ e.shipped = false) → shipCheck s (qCtx s q) p false = none →
    seqOn s (qCtx s q) (fieldAt p 16 6) = some y →
    let w := fieldAt p 22 2
    let st := w % 1024
    let sel := selPages s y.1 (selOf p)
    Completes (.kvShip q) s (fun t =>
      (∃ r, Issued q p r s t ∧ (bitOf w 13 = false → r.work = .ship [] false) ∧
        (bitOf w 13 = true → ∃ l, r.work = .ship l (bitOf w 14) ∧ ∀ i ∈ sel, i ∈ l)) ∧
      (getStream t st).state = (if bitOf w 14 then 2 else 1) ∧ (getStream t st).handle.toNat = fieldAt p 16 6 ∧
      (getStream t st).picks.map (·.index) = (if bitOf w 15 then [] else (getStream s st).picks.map (·.index)) ++ sel ∧
      (bitOf w 15 = true → (getStream t st).destKind.toNat = fieldAt p 42 1 ∧ (getStream t st).destFid.toNat = fieldAt p 40 2 ∧
        (getStream t st).dockAddr = fieldAt p 48 8 ∧ (getStream t st).flights = []) ∧
      (∀ k, k ≠ st → getStream t k = getStream s k) ∧ t.kv.waybill = s.kv.waybill ∧ t.mem = s.mem ∧ t.sync = s.sync)) ∧
  (∀ (q : QueueId) (p : List Byte) (s : State), s.wf = true → nextPacket s q = some p → pkOp p = 0x29 → headerCheck p = none →
    rsvCheck p [rsvAll 38 2 15, sigRsv 40, sigRsv 44, rsvAll 48 16 15] = none → sigCheck p 40 = none → sigCheck p 44 = none →
    fieldAt p 16 8 % 128 = 0 → addrOk (fieldAt p 16 8) = true →
    fieldAt p 28 4 % 128 = 0 → (seqOn s (qCtx s q) (fieldAt p 32 6)).isSome = true →
    (fieldAt p 24 4 = 0 → Completes (.kvImport q) s (IssuedAlone q p (newRun s .finished) false s)) ∧
    (∀ tr img slot x pt, fieldAt p 24 4 = 1 → xRead s (qCtx s q) (fieldAt p 16 8) 128 = .ok tr →
      let key := leNat (tr.take 16)
      let k := bitsOf key 119 112
      let i := pageIdx x (bitsOf key 59 48) (bitsOf key 71 60) (bitsOf key 95 72)
      seqOn s (qCtx s q) (fieldAt p 32 6) = some (slot, x) → key % 2 ^ 48 = fieldAt p 32 6 → partOfCtx s (qCtx s q) = some pt →
      inSeq x (bitsOf key 59 48) (bitsOf key 71 60) (bitsOf key 95 72) = true → kfmtOk k = true → imageBytes k + 128 ≤ pt.frameUnits * 128 →
      (getWay s i).state = 0 → xRead s (qCtx s q) (fieldAt p 16 8 + 128) (imageBytes k) = .ok img →
      crc32c img = BitVec.ofNat 32 (fieldAt tr 16 4) → s.kv.stalls = [] → framesFree s pt ≠ 0 →
      Completes (.kvImport q) s (fun t => curPacket t q = some p ∧ (∃ r : Run, (getQ t q).run = some r ∧ r.work = .finished) ∧
        (getWay t i).state = 6 ∧ (getWay t i).gen = fieldAt tr 12 2 ∧ (getWay t i).kfmt = k ∧ (getWay t i).slot = slot % 4096 ∧
        (getWay t i).loc < 2 ^ 24 ∧ (∀ j, j ≠ i → getWay t j = getWay s j) ∧ t.sync = s.sync)))

/-! ## Transfers and rings -/

/-- R213, R222, R278: a TRANSFER whose checks pass takes a free channel of its cluster, waits for one, or, with a count of zero,
has nothing to move; it completes when its channel has delivered everything.
The model's choices in it: log 18. -/
def Obligations.TransfersRun : Prop :=
  (∀ (q : QueueId) (p : List Byte) (s : State), s.wf = true → nextPacket s q = some p → pkOp p = 8 → xferCheck s p (qCtx s q) none = none →
    let x := xferOf p none
    let b := collOf p 232
    (b.zero = true → x.empty = true → Completes (.transfer q) s (IssuedAlone q p (newRun s (.xfer none true)) false s)) ∧
    (b.zero = true → x.empty = false → freeChans s x.cluster ≠ [] → Completes (.transfer q) s (ChannelTaken q p s)) ∧
    (b.zero = true → x.empty = false → freeChans s x.cluster = [] → Completes (.transfer q) s (fun t =>
      Issued q p (newRun s (.xfer none false)) s t ∧ t.comp = { s.comp with xferWait := s.comp.xferWait ++ [.queue q] } ∧
      t.mem = s.mem ∧ t.sync = s.sync)) ∧
    (b.zero = false → handing s 21 = false → ∀ n g, readBound s q (qCtx s q) 0 b.count = .ok n →
      collCheck s (qCtx s q) p n (some (xferRegion x)) = none → ChannelIdle s q b g →
      Completes (.transfer q) s (fun t => CollStarted q b g n s t ∧ curPacket t q = some p ∧
        ∃ r : Run, (getQ t q).run = some r ∧ r.coll = some (b.group % 32) ∧ r.collDone = false ∧
          (x.empty = true → r.work = .xfer none true)))) ∧
  (∀ (q : QueueId) (p : List Byte) (r : Run) (s : State), s.wf = true → devRuns s = true → curPacket s q = some p → (getQ s q).run = some r →
    r.collDone = true → acked s q = true → s.comp.xferWait = [] →
    (r.work = .xfer none true → Completes (.transferComplete q) s (PacketDone q p r.status.toNat (unissued s q) s)) ∧
    (∀ ch c, r.work = .xfer (some ch) false → getChan s ch = some c → c.owner = .queue q.val → c.inSlot = false → c.signals = 0 →
      cursorEnd (xferOf c.bytes none) c.cursor = true → s.fab.sent.any (fun m => m.who = some (.chan ch)) = false →
      Completes (.transferComplete q) s (fun t => PacketDone q p r.status.toNat (unissued s q) s t ∧ getChan t ch = none ∧
        ∀ k, k ≠ ch → getChan t k = getChan s k)))

/-- R220, R227, R229, R231: a channel delivers the unit at its cursor and moves its cursor past it; into a ring it first starts a
slot, which is EMPTY and follows the last one filled.
The model's choices in it: log 30. -/
def Obligations.ChannelsDeliver : Prop :=
  ∀ (x : XferId) (hit : Bool) (c : Chan) (s : State), s.wf = true → getChan s x = some c → chanGoes s x c = true →
    let f := xferOf c.bytes (ownerLaunch c.owner)
    cursorEnd f c.cursor = false →
    (∀ l, chanRing c = none → c.inSlot = false → f.skew = true ∨ (mirrorAt s c.ctx (strided f.src c.cursor f.ss) f false = none ∧
        mirrorAt s c.ctx (strided f.dst c.cursor f.ds) f true = none) →
      unitPieces (ownGot s x) c.ctx hit f c.cursor = .ok l → destFail s c.ctx hit l = none → l.any (toFabric s c.ctx) = false →
      let u := l.foldl (fun t p => putPiece t c.ctx p) s
      (cursorEnd f (nextCursor f c.cursor) = false → Completes (.transferDelivery x hit) s (fun t =>
        getChan t x = some { c with cursor := nextCursor f c.cursor, cause := 0 } ∧ (∀ k, k ≠ x.val → getChan t k = getChan s k) ∧
        t.mem = u.mem ∧ t.sync = s.sync ∧ t.kv = s.kv ∧ t.frozen = s.frozen)) ∧
      (∀ (q : QueueId) r, u.fab.sent = s.fab.sent → cursorEnd f (nextCursor f c.cursor) = true → c.owner = .queue q.val → (getQ s q).run = some r → c.signals = 0 →
        s.fab.sent.any (fun m => m.who = some (.chan x)) = false → s.comp.xferWait = [] →
        Completes (.transferDelivery x hit) s (fun t => getChan t x = none ∧ (getQ t q).run = some { r with work := .xfer none true } ∧
          t.mem = u.mem ∧ t.sync = s.sync))) ∧
    (∀ e n l, chanRing c = some (e, n) → c.inSlot = true → (unitSlot f (getRing s e n).slotBytes c.cursor).1 ≤ slotNo s c e n →
      f.skew = true ∨ mirrorAt s c.ctx (strided f.src c.cursor f.ss) f false = none →
      unitPieces (ownGot s x) c.ctx hit f c.cursor = .ok l →
      slotsOpen (getRing s e n) c.startFilled (slotNo s c e n)
        (l.map (fun p => piecePos f (getRing s e n) c.cursor p + pieceLen p - 1)) = true →
      cursorEnd f (nextCursor f c.cursor) = false →
      let z := unitSlot f (getRing s e n).slotBytes (nextCursor f c.cursor)
      z.1 ≤ slotNo s c e n →
      Completes (.transferDelivery x hit) s (fun t => getChan t x = some { c with cursor := nextCursor f c.cursor, cause := 0 } ∧
        getRing t e n = { getRing s e n with mark := BitVec.ofNat 12 (z.2 / 4096) } ∧ t.sync = s.sync ∧ t.kv = s.kv)) ∧
    (∀ e n, chanRing c = some (e, n) → c.inSlot = false → (getRing s e n).filled < (getRing s e n).slots ∨ c.waiting = 2 →
      slotFree (getRing s e n) = true →
      Completes (.channelSlotStart x) s (fun t => getChan t x = some { c with inSlot := true, waiting := 0 } ∧
        (getRing t e n).head = (getRing s e n).head + 1 ∧ (getRing t e n).mark = 0 ∧ (getRing t e n).filled = (getRing s e n).filled ∧
        (getRing t e n).states = listSet (getRing s e n).states ((getRing s e n).filled % max 1 (getRing s e n).slots) 1 ∧
        t.mem = s.mem ∧ t.sync = s.sync ∧ t.host = s.host))

/-- R224, R225: an idle ring takes its new configuration, its tallies start from zero, and its engine leaves the list.
Then: R232, R234, R235: the answer to a page request lets its channel deliver again; a refused request, or none within 2^20 stages,
stops the channel and freezes its context.
The model's choices in it: log 45. -/
def Obligations.RingsAndPageRequests : Prop :=
  (∀ (q : QueueId) (e : EngineId) (p : List Byte) (r : Run) (left : List Nat) (s : State), s.wf = true → devRuns s = true →
     (getQ s q).run = some r → curPacket s q = some p → r.work = .ringCfg left → e.val ∈ left →
     let n := fieldAt p 22 1 % 16
     ringIdle s e n = true →
     Completes (.ringConfigApply q e) s (fun t =>
       getRing t e n = ringOf s q p ∧ (∀ d m, d < 1280 → m < 16 → (d, m) ≠ (e.val, n) → getRing t d m = getRing s d m) ∧
       (getQ t q).run = some { r with work := .ringCfg (left.filter (· ≠ e.val)) } ∧ (∀ k, k ≠ q.val → getQ t k = getQ s k) ∧
       (∀ vid y, (ringOf s q p).sw = true → vid = (ringOf s q p).fillTally.toNat ∨ vid = (ringOf s q p).freeTally.toNat →
         getTally t (qCtx s q) vid = some y → y.value = 0) ∧
       ((ringOf s q p).sw = false → t.sync = s.sync) ∧ t.mem = s.mem)) ∧
  (∀ (x : XferId) (c : Chan) (r : PageReq) (s : State), s.wf = true → devRuns s = true → getChan s x = some c → c.req = some r →
     c.state = 2 → c.ctx < 64 →
     let stopped := fun (t : State) => isFrozen t 1 c.ctx = true ∧ (∃ d, getChan t x = some d ∧ d.state = 3 ∧ d.cause = 2) ∧
       (∀ k, k ≠ x.val → getChan t k = getChan s k) ∧ t.sync = s.sync ∧ t.kv = s.kv
     Completes (.pageRequestResponse x 0) s (fun t => getChan t x = some { c with state := 1, cause := 0, req := none } ∧
       (c.ctx, r.port, r.iova / 4096) ∈ t.mem.atsCache ∧ (∀ k, k ≠ x.val → getChan t k = getChan s k) ∧ t.mem.cells = s.mem.cells ∧
       t.sync = s.sync ∧ t.frozen = s.frozen) ∧
     Completes (.pageRequestResponse x 1) s stopped ∧ Completes (.pageRequestResponse x 15) s stopped ∧
     (r.since.toNat + 2 ^ 20 ≤ s.stage.toNat → Completes (.pageRequestTimeout x) s stopped))

/-! ## Tallies -/

/-- R241, R242, R251: the four commands of TLY_CMD with the status of each outcome, a destroy that waits for operations on their
way, and the host's signal, which sends an ADD at HOST scope unless its amount is 0.
Then: R268: the four group commands with the status of each outcome and what each makes of its entry; the read command writes the
entry and its members at the image's address.
The model's choices in it: log 23. -/
def Obligations.PageCommands : Prop :=
  ((∀ (r : Requester) (p : PartId) (ctx : BitVec 8) (vid : BitVec 16) (s : State), s.wf = true → tlyBusy s p = false →
     let word := fun (op : Nat) => 2 ^ 31 + op * 2 ^ 27 + ctx.toNat * 2 ^ 16 + vid.toNat
     let a := tallyAttr s p
     let known := vidOk s p ctx.toNat vid.toNat
     let y := getTally s ctx.toNat vid.toNat
     let flying := inFlight s ctx.toNat vid.toNat
     (TakenLocked s r (tlyOff p) (word 1) → Completes (.tallyCreate r p ctx vid) s (TallyCommand p ctx.toNat vid.toNat
       (if known = false ∨ attrBad s p a = true then 5 else if y.isSome then 1 else if homeShare s p a ≤ homeUse s p a then 3 else 0)
       (some (newTally s a)) s)) ∧
     (TakenLocked s r (tlyOff p) (word 2) → (y = none ∨ flying = false) → Completes (.tallyDestroy r p ctx vid) s
       (TallyCommand p ctx.toNat vid.toNat
         (if known = false then 5 else if y = none then 2 else if tallyInUse s ctx.toNat vid.toNat then 4 else 0) none s)) ∧
     (TakenLocked s r (tlyOff p) (word 2) → y ≠ none → flying = true → Completes (.tallyDestroy r p ctx vid) s (fun t =>
       t.sync = { s.sync with destroying := s.sync.destroying ++ [(p.val, tallyKey ctx.toNat vid.toNat)] } ∧ tlyBusy t p = true)) ∧
     (TakenLocked s r (tlyOff p) (word 3) → Completes (.tallySetValue r p ctx vid) s (TallyCommand p ctx.toNat vid.toNat
       (if known = false then 5 else if y = none then 2 else if (waitersOf s ctx.toNat vid.toNat).isEmpty then 0 else 4)
       (y.map (fun z => { z with value := BitVec.ofNat 32 a.value, arrivals := 0 })) s)) ∧
     (TakenLocked s r (tlyOff p) (word 4) → Completes (.tallyClearFlags r p ctx vid) s (TallyCommand p ctx.toNat vid.toNat
       (if known = false then 5 else if y = none then 2 else 0)
       (y.map (fun z => { z with overflow := false, underflow := false, mismatch := false })) s))) ∧
   (∀ (r : Requester) (q : QueueId) (vid amount : BitVec 16) (s : State), s.wf = true →
     Taken s r (hqOff q + 0x900) (vid.toNat * 2 ^ 16 + amount.toNat) →
     (amount = 0 → Completes (.hostTallySignal r q vid amount) s (fun t => t = s)) ∧
     (amount ≠ 0 → (getTally s (qCtx s q) vid.toNat).isSome = true → Completes (.hostTallySignal r q vid amount) s (fun t =>
       ∃ node, t.sync = { s.sync with flight := s.sync.flight ++ [
           { code := 15, ctx := qCtx s q, vid := vid.toNat, scope := 4, amount := BitVec.ofNat 32 amount.toNat, issuer := .host q,
             tag := 0, ord := 0, node := node, dest := 0 }] } ∧
       t.host.queues = s.host.queues ∧ t.mem = s.mem)))) ∧
  (∀ (r : Requester) (p : PartId) (g : GroupId) (ctx : BitVec 8) (s : State), s.wf = true →
     let word := fun (op : Nat) => 2 ^ 31 + op * 2 ^ 27 + g.val * 2 ^ 16 + ctx.toNat * 2 ^ 8
     let owned := match getPart s p with | some x => x.channels.contains (g.val % 32) && x.contexts.contains ctx.toNat | none => false
     let img := regField s (cnvOff p + 4) 31 7 * 128 + regField s (cnvOff p + 8) 23 0 * 2 ^ 32
     let old := getGroup s g
     let held := if owned = false then 3 else if groupBusy s g then 1 else if old = none then 2 else 0
     (TakenLocked s r (cnvOff p) (word 1) →
       ((owned = false ∨ groupBusy s g = true) → Completes (.groupLoad r p g ctx) s (fun t => GroupCommand p g held old s t ∧ t.mem = s.mem)) ∧
       (∀ h b, owned = true → groupBusy s g = false → xRead s ctx.toNat img 64 = .ok h →
         xRead s ctx.toNat img (64 + 2 * min 4096 (fieldAt h 0 2)) = .ok b →
         let z := groupLoad s p g ctx.toNat b
         Completes (.groupLoad r p g ctx) s (fun t => GroupCommand p g z.1 (getGroup z.2 g) s t ∧ t.mem = s.mem))) ∧
     (TakenLocked s r (cnvOff p) (word 2) → Completes (.groupInvalidate r p g ctx) s (fun t =>
       GroupCommand p g held (if held = 0 then none else old) s t ∧ t.mem = s.mem)) ∧
     (TakenLocked s r (cnvOff p) (word 3) → Completes (.groupResetSequences r p g ctx) s (fun t =>
       GroupCommand p g held (if held = 0 then old.map (fun e => { e with seq := 0, sendSeq := [], recvSeq := [], broken := false })
         else old) s t ∧ t.mem = s.mem)) ∧
     (TakenLocked s r (cnvOff p) (word 4) →
       (owned = false ∨ old = none → Completes (.groupRead r p g ctx) s (fun t =>
         GroupCommand p g (if owned then 2 else 3) old s t ∧ t.mem = s.mem)) ∧
       (∀ e w, owned = true → old = some e → xWrite s ctx.toNat img (groupBytes e) = .ok w →
         Completes (.groupRead r p g ctx) s (fun t => GroupCommand p g 0 old s t ∧ t.mem = w.mem))))

/-- R244, R245, R253: on a counter, an ADD within the limit raises the value and releases the waits it satisfies, a SUB within
the value lowers it, a TAKE that is satisfied subtracts, an AT_LEAST leaves the value and waits where it is below the
threshold; an ADD above the limit and a SUB below zero set their flag, leave the value and freeze their issuer.
The model's choices in it: log 23. -/
def Obligations.CounterOperations : Prop :=
  ∀ (n : Nat) (o : TallyOp) (y : Tally) (s : State), s.wf = true → Reaches s n o y → y.barrier = false → o.amount.toNat < 2 ^ 32 →
    let c := Instr.tallyOperationArrival n
    let up := { noted s o y with value := y.value + o.amount }
    let down := { noted s o y with value := y.value - o.amount }
    (isAdd o.code = true → y.value.toNat + o.amount.toNat ≤ limitOf s o.ctx o.vid y → y.value.toNat + o.amount.toNat < 2 ^ 32 →
      NoTakes s o → Completes c s (TallyIs o up (readsReleased s o.ctx o.vid up) s)) ∧
    (isAdd o.code = true → limitOf s o.ctx o.vid y < y.value.toNat + o.amount.toNat → (frozenBy o).2 < 2 ^ 32 →
      Completes c s (TallyFaults o { y with overflow := true } s)) ∧
    (o.code = 2 → o.amount.toNat ≤ y.value.toNat → Completes c s (TallyIs o down s.sync.waiters s)) ∧
    (o.code = 2 → y.value.toNat < o.amount.toNat → (frozenBy o).2 < 2 ^ 32 →
      Completes c s (TallyFaults o { y with underflow := true } s)) ∧
    (o.code = 4 → o.amount.toNat ≤ y.value.toNat → NoTakes s o → Completes c s (TallyIs o down s.sync.waiters s)) ∧
    (o.code = 4 → (y.value.toNat < o.amount.toNat ∨ ¬ NoTakes s o) → Completes c s (TallyIs o (noted s o y)
      (s.sync.waiters ++ [{ op := o, phase := o.amount, since := s.stage, released := false, asleep := false }]) s)) ∧
    (o.code = 3 ∨ o.code = 7 ∨ o.code = 9 ∨ o.code = 16 → o.amount.toNat ≤ y.value.toNat →
      Completes c s (TallyIs o (noted s o y) s.sync.waiters s)) ∧
    (o.code = 3 ∨ o.code = 7 ∨ o.code = 9 ∨ o.code = 16 → y.value.toNat < o.amount.toNat → Completes c s (TallyIs o (noted s o y)
      (s.sync.waiters ++ [{ op := o, phase := o.amount, since := s.stage, released := false, asleep := false }]) s)) ∧
    (o.code = 5 ∨ o.code = 10 → (frozenBy o).2 < 2 ^ 32 → Completes c s (TallyFaults o { y with mismatch := true } s))

/-- R246, R250, R253: on a barrier, arrivals short of P are counted, the arrival that completes a phase raises the value and
releases its waiters, or at FABRIC scope sends one arrival to the switch; a wrong count, arrivals beyond P, and a SUB or TAKE
are mismatches that leave the barrier as it was.
The model's choices in it: log 23. -/
def Obligations.BarrierOperations : Prop :=
  (∀ (n : Nat) (o : TallyOp) (y : Tally) (s : State), s.wf = true → Reaches s n o y → y.barrier = true →
    let c := Instr.tallyOperationArrival n
    let left := y.participants.toNat - y.arrivals.toNat
    let next := { noted s o y with arrivals := 0, value := y.value + 1 }
    let wait := fun (ph : Word) => s.sync.waiters ++ [{ op := o, phase := ph, since := s.stage, released := false, asleep := false }]
    y.arrivals.toNat < y.participants.toNat →
    (isAdd o.code = true → o.amount.toNat < left →
      Completes c s (TallyIs o { noted s o y with arrivals := BitVec.ofNat 24 (y.arrivals.toNat + o.amount.toNat) } s.sync.waiters s)) ∧
    (isAdd o.code = true → o.amount.toNat = left → y.scope ≠ 3 →
      Completes c s (TallyIs o next (readsReleased s o.ctx o.vid next) s)) ∧
    (isAdd o.code = true → o.amount.toNat = left → y.scope = 3 →
      Completes c s (fun t => TallyIs o { noted s o y with arrivals := 0, pend := y.pend + 1 } s.sync.waiters s t ∧
        t.out = s.out ++ [.switchArrival y.group.toNat o.vid])) ∧
    (isAdd o.code = true → left < o.amount.toNat → (frozenBy o).2 < 2 ^ 32 →
      Completes c s (TallyFaults o { y with mismatch := true } s)) ∧
    (o.code = 5 ∨ o.code = 10 → o.amount.toNat = y.participants.toNat → 1 < left →
      Completes c s (TallyIs o { noted s o y with arrivals := y.arrivals + 1 } (wait (y.value + 1 + BitVec.ofNat 32 y.pend)) s)) ∧
    (o.code = 5 ∨ o.code = 10 → o.amount.toNat = y.participants.toNat → left = 1 → y.scope ≠ 3 → y.pend = 0 →
      Completes c s (fun t => getTally t o.ctx o.vid = some next ∧
        ∃ w : Waiter, w ∈ t.sync.waiters ∧ w.op = o ∧ w.phase = y.value + 1 ∧ w.released = true)) ∧
    (o.code = 5 ∨ o.code = 10 → o.amount.toNat ≠ y.participants.toNat → (frozenBy o).2 < 2 ^ 32 →
      Completes c s (TallyFaults o { y with mismatch := true } s)) ∧
    (o.code = 2 ∨ o.code = 4 → (frozenBy o).2 < 2 ^ 32 → Completes c s (TallyFaults o { y with mismatch := true } s))) ∧
  (∀ (g : GroupId) (vid : BitVec 16) (e : GroupEntry) (y : Tally) (s : State), s.wf = true → devRuns s = true → getGroup s g = some e →
    e.ctx < 64 → getTally s e.ctx vid.toNat = some y → y.scope = 3 → y.barrier = true → y.group.toNat = g.val → y.pend ≠ 0 →
    let z := { y with pend := y.pend - 1, value := y.value + 1 }
    Completes (.switchBarrierRelease g vid) s (fun t => getTally t e.ctx vid.toNat = some z ∧ OnlyTally e.ctx vid.toNat s t ∧
      t.sync.waiters = readsReleased s e.ctx vid.toNat z ∧ t.sync.flight = s.sync.flight ∧ t.mem = s.mem))

/-- R240, R252 to R254: an operation on an identifier that is not mapped, or outside the scope rules, changes no tally and freezes
its issuer; a host signal is only reported.
Then: R255, R257: a node forwards what it holds in ascending source identity, and nothing else moves; a released waiter goes on
with its master and leaves the length of its wait in the tally; a waiter that is not released may sleep.
The model's choices in it: logs 23 and 55. -/
def Obligations.CombiningAndRefusals : Prop :=
  (∀ (n : Nat) (o : TallyOp) (s : State), s.wf = true → devRuns s = true → s.sync.flight[n]? = some o → s.sync.destroying = [] →
     o.node = none → (frozenBy o).2 < 2 ^ 32 →
     let bad := getTally s o.ctx o.vid = none ∨ ∃ y, getTally s o.ctx o.vid = some y ∧ scopeBad s o y = true
     (bad → o.code ≠ 15 → Completes (.tallyOperationArrival n) s (fun t => t.sync.tallies = s.sync.tallies ∧
       t.sync.waiters = s.sync.waiters ∧ t.sync.flight = listDel s.sync.flight n ∧ isFrozen t (frozenBy o).1 (frozenBy o).2 = true)) ∧
     (bad → o.code = 15 → Completes (.tallyOperationArrival n) s (fun t => t.sync.tallies = s.sync.tallies ∧
       t.sync.waiters = s.sync.waiters ∧ t.sync.flight = listDel s.sync.flight n ∧ t.frozen = s.frozen))) ∧
  ((∀ (c : ClusterId) (s : State), s.wf = true → devRuns s = true → ∃ held : List TallyOp,
     held.Perm (s.sync.flight.filter (fun o => o.node = some c.val)) ∧ held.Pairwise (fun a b => issuerSrc a.issuer ≤ issuerSrc b.issuer) ∧
     Completes (.combineFlush c) s (fun t => t = { s with sync := { s.sync with
       flight := s.sync.flight.filter (fun o => o.node ≠ some c.val) ++ held.map (fun o => { o with node := some (80 + c.val) }) } })) ∧
   (∀ (n cycles : Nat) (w : Waiter) (y : Tally) (s : State), s.wf = true → devRuns s = true → s.sync.waiters[n]? = some w →
     w.released = true → w.op.ctx < 64 → w.op.vid < 65536 → getTally s w.op.ctx w.op.vid = some y →
     Completes (.waiterWake n cycles) s (fun t => t.sync.waiters = listDel s.sync.waiters n ∧ t.sync.flight = s.sync.flight ∧
       getTally t w.op.ctx w.op.vid = some { y with waitEst := BitVec.ofNat 16 (min 0xFFFF (cycles / 64)) } ∧
       OnlyTally w.op.ctx w.op.vid s t ∧ t.mem = s.mem ∧
       (∀ (q : QueueId) r, w.op.issuer = .queue q.val → (getQ s q).run = some r → (getQ t q).run = some { r with work := .tally true }) ∧
       (∀ d : DroverId, w.op.issuer = .drover d.val → (getDrv s d).st = .waiting → (getDrv t d).st = .running ∧
         (getDrv t d).pc = (getDrv s d).pc + 4 ∧ (w.op.code ≠ 11 → ∀ i, i < 32 → getX t d i = getX s d i)))) ∧
   (∀ (n : Nat) (w : Waiter) (s : State), s.wf = true → s.sync.waiters[n]? = some w → w.released = false →
     Completes (.waiterSleep n) s (fun t => t = { s with sync := { s.sync with
       waiters := listSet s.sync.waiters n { w with asleep := true } } })))

/-! ## Collectives -/

/-- R273, R274: an opening that comes before the local start is kept; one that agrees with the local operation is counted; one
that differs breaks the group and freezes its context. An abort breaks the group, and the operation, where one runs; an abort
with cause 0 ends the operation with REPLAY_REQUIRED (R291).
The model's choices in it: log 29. -/
def Obligations.OpeningsAndAborts : Prop :=
  ∀ (src : Fid) (m : ConvoyCtl) (data : List Byte) (g : GroupEntry) (s : State), s.wf = true → Hears s src.toNat →
    getGroup s m.group.toNat = some g → fromMember g src.toNat m.fromPos.toNat = true → g.ctx < 64 →
    let ch := m.group.toNat % 32
    let i := Instr.convoyOpening src m data
    let a := Instr.convoyAbort src m
    (m.mkind = 1 → isFrozen s 4 ch = false → (∀ o p h, holder s ch = some (o, p, h) → concerns o m = false) →
      Completes i s (fun t => getConv t ch = { getConv s ch with early := (getConv s ch).early ++ [(m.fromPos.toNat, m, data)] } ∧
        (∀ c, c ≠ ch → getConv t c = getConv s c) ∧ t = { s with conv := { s.conv with chans := t.conv.chans } })) ∧
    (∀ o p, m.mkind = 1 → Working s ch o p g → concerns o m = true → (awaited g o).contains (keyFor o p m) = true →
      m.seq = seqFor o (keyFor o p m) → p.opens.any (fun x => x.1 = keyFor o p m) = false →
      let q := { p with opens := p.opens ++ [(keyFor o p m, m.count.toNat, bitOf m.cflags.toNat 0, data)] }
      (openingDiff g o m = none → allOpen g o q = false → Completes i s (fun t => Progress ch q s t ∧ t.mem = s.mem ∧ t.out = s.out)) ∧
      (openingDiff g o m ≠ none → Completes i s (fun t => Broken o.group g s t ∧ isFrozen t 1 g.ctx = true ∧
        (getQ t o.queue).run = none))) ∧
    (m.mkind = 2 → (getConv s ch).early = [] →
      let o := opFor s m.group.toNat m.seq (isPair (m.cop.toNat % 16)) m.fromPos.toNat
      (o = none → m.abortCause ≠ 0 → Completes a s (fun t => Broken m.group.toNat g s t ∧
        t = { s with conv := { s.conv with groups := t.conv.groups } })) ∧
      (∀ x, o = some x → m.abortCause ≠ 0 → Completes a s (fun t => Broken x.group g s t ∧ isFrozen t 1 g.ctx = true ∧
        (getQ t x.queue).run = none)) ∧
      (∀ x p, o = some x → m.abortCause = 0 → curPacket s x.queue = some p → Completes a s (CollReplays x g s)))

/-- R283, R285, R292, R293: a chunk of the running operation is kept as a contribution, or written to the result, and
acknowledged; one with an uncorrectable word is asked for again; one already written is only acknowledged again, and so is a
chunk of an operation that has ended.
The model's choices in it: log 29. -/
def Obligations.ChunksArrive : Prop :=
  ∀ (src : Fid) (c : ChunkHead) (data : List Byte) (g : GroupEntry) (s : State), s.wf = true → Hears s src.toNat →
    getGroup s c.group.toNat = some g → fromMember g src.toNat c.fromPos.toNat = true → isFrozen s 4 (c.group.toNat % 32) = false →
    let ch := c.group.toNat % 32
    let key := (c.chunk.toNat, c.fromPos.toNat)
    (∀ o p, Working s ch o p g → chunkFor o c = true → allOpen g o p = true →
      Completes (.convoyChunk src c data false) s (fun t => Progress ch p s t ∧ ∃ l, t.out = s.out ++ l ++ [answerTo g o 4 c]) ∧
      (isContrib g o p c = true → Completes (.convoyChunk src c data true) s (fun t =>
        Progress ch (if p.contrib.any (fun x => decide (x.1 = key.1) && decide (x.2.1 = key.2)) then p
          else { p with contrib := p.contrib ++ [(key.1, key.2, data)] }) s t ∧
        t.out = s.out ++ [answerTo g o 3 c] ∧ t.mem = s.mem)) ∧
      (∀ u, isContrib g o p c = false → (inUnits g o p).find? (fun u => decide (u.1 = key)) = some u →
        (p.written.contains key = true → Completes (.convoyChunk src c data true) s (fun t =>
          t = { s with out := s.out ++ [answerTo g o 3 c] })) ∧
        (∀ w, p.written.contains key = false → data.length ≤ u.2.2 → heldBack s g.ctx (srcOf 5 ch) (opTag s o) = false →
          xWrite s g.ctx (resultAddr o + u.2.1) data = .ok w → localDone g o { p with written := p.written ++ [key] } = false →
          Completes (.convoyChunk src c data true) s (fun t => Progress ch { p with written := p.written ++ [key] } s t ∧
            t.mem = w.mem ∧ t.out = w.out ++ [answerTo g o 3 c])))) ∧
    (∀ ok, holder s ch = none → passedSeq g c = true → Completes (.convoyChunk src c data ok) s (fun t => ∃ m : ConvoyCtl,
      t = { s with out := s.out ++ [.convoy (chunkDest g c.fromPos.toNat) m []] } ∧ m.mkind = 3 ∧ m.seq = c.seq ∧ m.count = c.chunk))

/-- R285, R292: an acknowledgement counts once, and the last thing awaited completes the local part and frees the channel; a
re-requested chunk is sent again from retention, or, once reduced, from its result.
Then: R250, R285, R296, R297: a result chunk that is ready signals its tally once, in ascending order; a channel that has made no
progress for its limit is frozen, keeps its operation, and has its context dumped where there is room.
The model's choices in it: log 29. -/
def Obligations.ChunksAreAnswered : Prop :=
  (∀ (src : Fid) (m : ConvoyCtl) (o : CollOp) (p : CollProg) (g : GroupEntry) (s : State), s.wf = true → Hears s src.toNat →
     let ch := m.group.toNat % 32
     Working s ch o p g → m.group.toNat = o.group → m.seq = o.seq → fromMember g src.toNat m.fromPos.toNat = true →
     let a := (m.count.toNat, m.fromPos.toNat)
     let p1 := if p.acks.contains a then p else { p with acks := p.acks ++ [a] }
     (m.mkind = 3 → localDone g o p1 = false → Completes (.convoyAcknowledgement src m) s (fun t =>
       Progress ch p1 s t ∧ t.mem = s.mem ∧ t.out = s.out)) ∧
     (∀ r, m.mkind = 3 → localDone g o p1 = true → (getConv s ch).ops = [o] → (getQ s o.queue).run = some r →
       Completes (.convoyAcknowledgement src m) s (fun t => (getQ t o.queue).run = some { r with collDone := true } ∧
         (getConv t ch).ops = [] ∧ (getConv t ch).prog = none ∧ t.mem = s.mem ∧ t.sync = s.sync ∧ t.conv.groups = s.conv.groups)) ∧
     (∀ u n d, m.mkind = 4 → (o.cop = 1 && p.reduced.contains a.1) = false →
       ((outUnits g o p).zip (upFrom 0 (outUnits g o p).length)).find?
         (fun x => decide (x.1.2.2.2 = a.1) && x.1.2.2.1.contains a.2) = some (u, n) → tabFind p.kept n = some d →
       Completes (.convoyReRequest src m) s (fun t => Progress ch p s t ∧ t.mem = s.mem ∧
         t.out = s.out ++ [.chunk (chunkDest g a.2) (headOf g o a.1 false) d])) ∧
     (∀ d, m.mkind = 4 → o.cop = 1 → p.reduced.contains a.1 = true → reduceChunk g o p a.1 = some d →
       Completes (.convoyReRequest src m) s (fun t => Progress ch p s t ∧ t.mem = s.mem ∧
         t.out = s.out ++ [.chunk (chunkDest g a.2) (headOf g o a.1 true) d]))) ∧
  ((∀ (ch : ChanId) (o : CollOp) (p : CollProg) (g : GroupEntry) (y : Tally) (s : State), s.wf = true → devRuns s = true →
     Working s ch o p g → o.doneTally ≠ 0 → allOpen g o p = true → p.signals < signalCount g o p → chunkReady g o p p.signals = true →
     let x := TallyOp.mk 17 g.ctx o.doneTally o.doneScope 1 (.convoy ch) (BitVec.ofNat 32 (opTag s o)) 0 none 0
     let q := { p with signals := p.signals + 1 }
     getTally s g.ctx o.doneTally = some y → y.barrier = false → scopeBad s x y = false → NoTakes s x → g.ctx < 64 →
     o.doneTally < 65536 → y.value.toNat + 1 ≤ limitOf s g.ctx o.doneTally y → y.value.toNat + 1 < 2 ^ 32 → localDone g o q = false →
     let up := { noted s x y with value := y.value + 1 }
     Completes (.chunkDoneSignal ch) s (fun t => TallyIs x up (readsReleased s g.ctx o.doneTally up) s t ∧
       getConv t ch = { getConv s ch with prog := some q } ∧ t.mem = s.mem)) ∧
   (∀ (ch : ChanId) (o : CollOp) (p : CollProg) (g : GroupEntry) (s : State), s.wf = true → devRuns s = true →
     holder s ch = some (o, p, g) → isFrozen s 4 ch = false →
     let lim := regField s (0x500008 + 16 * ch.val) 15 0
     lim ≠ 0 → 1024 * lim ≤ (getConv s ch).silent →
     Completes (.collectiveTimeout ch) s (fun t => isFrozen t 4 ch = true ∧ t.conv = s.conv ∧ t.sync.tallies = s.sync.tallies ∧
       t.sync.waiters = s.sync.waiters ∧ t.host.queues = s.host.queues ∧
       (dumpRoom s g.ctx ≠ 0 → (s.sync.dumping.any (fun x => x.1 = g.ctx)) = false →
         t.sync.dumping = s.sync.dumping ++ [(g.ctx, ch.val, s.stage.toNat + 1)] ∧ t.mem = s.mem))))

/-- R283, R284, R286, R291: the next source chunk is kept and sent to those that have not acknowledged it, or the data goes out
with the openings; a chunk whose contributions are all here is reduced, written, and sent to the others; a failing bank is
noted, and the chunk evaluated on another; three end the operation with REPLAY_REQUIRED.
The model's choices in it: log 29. -/
def Obligations.ChunksLeave : Prop :=
  ∀ (ch : ChanId) (o : CollOp) (p : CollProg) (g : GroupEntry) (s : State), s.wf = true → devRuns s = true →
    Working s ch o p g → collHeld s ch g o = false →
    (∀ u d, onSmallPath g o = false → allOpen g o p = true → (outUnits g o p)[p.taken]? = some u →
      (tabFind p.kept p.taken = some d ∨ (tabFind p.kept p.taken = none ∧ sourceReady s o u.1 u.2.1 = true ∧
        readUnit s g.ctx o u.1 u.2.1 = some (.ok d))) →
      let q := { p with taken := p.taken + 1, kept := tabSet p.kept p.taken (some d) }
      let sent := (u.2.2.1.filter (fun x => decide (x ≠ g.selfPos) && !p.acks.contains (u.2.2.2, x))).map
        (fun x => Out.chunk (chunkDest g x) (headOf g o u.2.2.2 false) d)
      (u.2.2.1.contains g.selfPos = false → localDone g o q = false → Completes (.chunkTake ch) s (fun t =>
        Progress ch q s t ∧ t.mem = s.mem ∧ t.out = s.out ++ sent)) ∧
      (u.2.2.1.contains g.selfPos = true → o.red ≠ 0 →
        p.contrib.any (fun x => decide (x.1 = u.2.2.2) && decide (x.2.1 = g.selfPos)) = false →
        let q := { q with contrib := p.contrib ++ [(u.2.2.2, g.selfPos, d)] }
        localDone g o q = false → Completes (.chunkTake ch) s (fun t => Progress ch q s t ∧ t.mem = s.mem ∧ t.out = s.out ++ sent)) ∧
      (∀ v w, u.2.2.1.contains g.selfPos = true → o.red = 0 → p.written.contains (u.2.2.2, g.selfPos) = false →
        (inUnits g o p).find? (fun x => decide (x.1 = (u.2.2.2, g.selfPos))) = some v →
        xWrite s g.ctx (resultAddr o + v.2.1) d = .ok w →
        let q := { q with written := p.written ++ [v.1] }
        localDone g o q = false → Completes (.chunkTake ch) s (fun t => Progress ch q s t ∧ t.mem = w.mem ∧ t.out = w.out ++ sent))) ∧
    (∀ d, onSmallPath g o = true → p.opened = false → (o.cop ≠ 6 ∨ o.peer = g.selfPos) → sourceReady s o 0 (opBytes o) = true →
      readUnit s g.ctx o 0 (opBytes o) = some (.ok d) →
      let q := { p with kept := tabSet p.kept 0 (some d), taken := 1, opened := true }
      allOpen g o q = false → Completes (.chunkTake ch) s (fun t => Progress ch q s t ∧ t.mem = s.mem ∧
        t.out = s.out ++ (openingsOf g o).map (fun x => .convoy (fidAt g x.1) (ctlOf g o 1 x.2.2 x.2.1 d.length 0) d))) ∧
    (∀ k d, o.red ≠ 0 → onSmallPath g o = false → inNetwork g o p = false → allOpen g o p = true → p.reduced.contains k = false →
      reduceChunk g o p k = some d →
      (∀ u w, (inUnits g o p).find? (fun u => decide (u.1 = (k, g.selfPos))) = some u →
        xWrite s g.ctx (resultAddr o + u.2.1) d = .ok w →
        let q := { p with written := (if p.written.contains u.1 then p.written else p.written ++ [u.1]), reduced := p.reduced ++ [k] }
        localDone g o q = false →
        Completes (.chunkReduce ch k []) s (fun t => Progress ch q s t ∧ t.mem = w.mem ∧ t.out = w.out ++ (if o.cop = 1 then
          ((others g).filter (fun x => !p.acks.contains (k, x))).map (fun x => .chunk (fidAt g x) (headOf g o k true) d) else [])) ∧
        (∀ b, b < 9 → (getBank s b).serving = true → (getBank s b).fails = [] → Completes (.chunkReduce ch k [b]) s (fun t =>
          getBank t b = { getBank s b with fails := [s.stage] } ∧
          (∀ j, j ≠ b → getBank t j = getBank s j) ∧ t.sync = s.sync))) ∧
      (∀ a b c j, a < 9 → b < 9 → c < 9 → a ≠ b → a ≠ c → b ≠ c → (getBank s a).serving = true → (getBank s b).serving = true →
        (getBank s c).serving = true → (getBank s a).fails = [] → (getBank s b).fails = [] → (getBank s c).fails = [] →
        curPacket s o.queue = some j → Completes (.chunkReduce ch k [a, b, c]) s (CollReplays o g s)))

/-! ## Streams, docks and swaps -/

/-- R310, R323, R327, R329, R330: a stream takes its next eligible page within its window and sends it; a page whose timer or
retry time expires is sent again, until its attempts are spent and the stream freezes.
The model's choices in it: logs 18 and 31. -/
def Obligations.StreamsSendPages : Prop :=
  (∀ (st : StreamId) (k : Pick) (p : Partition) (s : State), s.wf = true → nextPick s st = some k → streamGoes s st = true →
    poolOf s k.index = some p →
    let x := getStream s st
    let e := getWay s k.index
    let slot := if x.destKind = 0 then 0 else x.dockNext % max 1 x.dockSlots
    let f := Flight.mk k.index (BitVec.ofNat 128 (keyOf s e)) (BitVec.ofNat 32 (leNat (pageBytes s p e (imageBytes e.kfmt + 16) 4)))
      0 slot false k.tag
    x.flights.length < window s st → e.ships ≠ 255 → (x.destKind = 0 ∨ x.flights.any (fun y => y.slot = slot) = false) →
    PageReadable (raiseShips s k.index) p k.index →
    Completes (.streamTakePage st) s (fun t =>
      getStream t st = { x with dockNext := x.dockNext + 1, flights := x.flights ++ [f],
                                picks := x.picks.map (fun z => if z = k then { z with taken := true } else z) } ∧
      getWay t k.index = { e with ships := e.ships + 1, state := if settled e.state then 3 else e.state } ∧
      (∀ j, j ≠ k.index → getWay t j = getWay s j) ∧ (∀ j, j ≠ st.val → getStream t j = getStream s j) ∧
      SentTo st f p (raiseShips s k.index) t)) ∧
  (∀ (st : StreamId) (w : BitVec 24) (f : Flight) (p : Partition) (s : State), s.wf = true → streamGoes s st = true →
    poolOf s w.toNat = some p → PageReadable s p w.toNat →
    ((getStream s st).flights.find? (fun y => y.index = w.toNat) = some f → f.deferred = false →
      (f.attempt + 1 ≤ maxAttempts s st → Completes (.retransmitTimeout st w) s
        (Resent st w.toNat { f with attempt := f.attempt + 1, deferred := false } p s)) ∧
      (maxAttempts s st < f.attempt + 1 → Completes (.retransmitTimeout st w) s (fun t => isFrozen t 5 st = true ∧
        t.kv.streams = s.kv.streams ∧ t.kv.waybill = s.kv.waybill ∧ t.sync = s.sync))) ∧
    ((getStream s st).flights.find? (fun y => (y.index = w.toNat || y.index = partNo w.toNat) && y.deferred) = some f →
      f.index = w.toNat → Completes (.retryAfterExpiry st w) s (Resent st w.toNat { f with deferred := false } p s)))

/-- R324, R325, R328, R330: what the replies of the fabric do: an acknowledgement ends a shipment; reason 1 sends the page again,
reason 2 defers it, reason 5 ends it, any other reason freezes the stream. The manifest goes out when every shipment has ended,
and its acknowledgement leaves the stream idle or has the listed pages shipped again.
Then: R329, R335: the bound function's answers to a dock slot: acknowledged, busy, refused.
The model's choices in it: log 31. -/
def Obligations.StreamReplies : Prop :=
  ((∀ (src : Fid) (m : CaravanReply) (f : Flight) (s : State), s.wf = true → Hears s src.toNat → KvQuiet s →
     replyFor s src.toNat m = true → flightOf s m = some f →
     let st := m.stream.toNat
     Completes (.caravanAck src m) s (ShipmentEnds st f.index s) ∧
     ((getStream s st).flights.find? (fun y => y.index = f.index) = some f →
       (∀ p, m.code = 1 → poolOf s f.index = some p → PageReadable s p f.index → f.attempt + 1 ≤ maxAttempts s st →
         Completes (.caravanNack src m) s (Resent st f.index { f with attempt := f.attempt + 1, deferred := false } p s)) ∧
       (m.code = 2 → Completes (.caravanNack src m) s (Deferred st f.index s)) ∧
       (m.code = 5 → Completes (.caravanNack src m) s (fun t => (∀ j, j ≠ st → getStream t j = getStream s j) ∧ t.frozen = s.frozen ∧
         (getStream t st).flights = (getStream s st).flights.filter (fun y => y.index ≠ f.index))) ∧
       (m.code ≠ 1 → m.code ≠ 2 → m.code ≠ 5 → Completes (.caravanNack src m) s (fun t => isFrozen t 5 st = true ∧
         t.kv.streams = s.kv.streams ∧ t.kv.waybill = s.kv.waybill ∧ t.sync = s.sync)))) ∧
   (∀ (src : Fid) (m : CaravanReply) (s : State), s.wf = true → Hears s src.toNat → replyFor s src.toNat m = true →
     let st := m.stream.toNat
     let x := getStream s st
     x.state = 2 → x.manifestSent = true → m.key.toNat % 2 ^ 48 = x.handle.toNat →
     (m.code = 0 → Completes (.manifestAck src m) s (fun t => getStream t st = ({ acked := x.acked } : Stream) ∧
       (∀ j, j ≠ st → getStream t j = getStream s j) ∧ t.kv.waybill = s.kv.waybill ∧ t.mem = s.mem ∧ t.sync = s.sync)) ∧
     (m.code = 1 → Completes (.manifestAck src m) s (fun t => (getStream t st).manifestSent = false ∧
       (getStream t st).picks.map (·.index) = x.picks.map (·.index) ++ (manifestKeys x).filterMap (heldPage s) ∧
       ((∃ y ∈ manifestKeys x, heldPage s y = none) → isFrozen t 5 st = true) ∧ t.kv.waybill = s.kv.waybill))) ∧
   (∀ (st : StreamId) (s : State), s.wf = true → streamGoes s st = true →
     let x := getStream s st
     let parts := manifestParts (manifestKeys x)
     x.state = 2 → x.manifestSent = false → (∀ k ∈ x.picks, k.done = true) → x.flights = [] → x.destKind = 0 →
     Completes (.sendManifest st) s (fun t => getStream t st = { x with manifestSent := true } ∧
       (∀ j, j ≠ st.val → getStream t j = getStream s j) ∧ t.mem = s.mem ∧ t.sync = s.sync ∧
       t.out = s.out ++ (parts.zip (upFrom 0 parts.length)).map (fun y =>
         let m := manifestMsg s st (manifestKeys x) y.1 y.2 parts.length
         .caravan x.destFid.toNat m.1 m.2)))) ∧
  (∀ (r : Requester) (st : StreamId) (slot : BitVec 16) (retry : BitVec 14) (f : Flight) (s : State), s.wf = true → KvQuiet s →
     let x := getStream s st
     let o := 0x604000 + 4 * st.val
     x.state ≠ 0 → x.destKind ≠ 0 → isFrozen s 5 st = false → x.flights.find? (fun y => y.slot = slot.toNat) = some f → f.index < 2 ^ 24 →
     (Taken s r o (2 ^ 30 + slot.toNat) → Completes (.dockAck r st slot) s (ShipmentEnds st f.index s)) ∧
     (Taken s r o (2 * 2 ^ 30 + retry.toNat * 2 ^ 16 + slot.toNat) → Completes (.dockNackBusy r st slot retry) s (Deferred st f.index s)) ∧
     (Taken s r o (3 * 2 ^ 30 + slot.toNat) → Completes (.dockNackRefused r st slot) s (fun t => isFrozen t 5 st = true ∧
       t.kv.streams = s.kv.streams ∧ t.kv.waybill = s.kv.waybill ∧ t.sync = s.sync)))

/-- R310, R316, R318, R320: a swap-in takes a free frame or its packet stalls for one; the oldest stalled requester takes the
frame that comes free; a page that is written out is SWAPPED, unless its frame cannot be read; a page read back whose CRC holds
is resident in its frame again.
The model's choices in it: logs 18 and 28. -/
def Obligations.PagesSwap : Prop :=
  (∀ (q : QueueId) (w : BitVec 24) (p : Partition) (s : State), s.wf = true →
    let i := w.toNat
    let e := getWay s i
    poolOf s i = some p → queueGoes s q = true → s.kv.readers.contains (q.val, i) = true → e.state = 5 → swapping s i = false →
    s.kv.stalls.any (fun t => t.kind = 4 && t.index = i) = false →
    let others := s.kv.stalls.any (fun t => t.part = p.part && t.frame.isNone)
    let free := pickFree s p.frames (usedFrames s p)
    (∀ f, others = false → free = some f → Completes (.swapIn q w) s (fun t =>
      t.kv = { s.kv with swaps := s.kv.swaps ++ [⟨i, p.part, e.loc, f, true, q⟩] } ∧ t.mem = s.mem ∧ t.sync = s.sync)) ∧
    (others = true ∨ free = none → Completes (.swapIn q w) s (fun t =>
      t.kv.stalls = s.kv.stalls ++ [⟨q, 4, i, e.slot, p.part, none⟩] ∧ t.kv.waybill = s.kv.waybill ∧ t.sync = s.sync))) ∧
  (∀ (p : PartId) (pt : Partition) (y : Stall) (f : Nat) (s : State), s.wf = true → devRuns s = true → getPart s p = some pt →
    s.kv.stalls.find? (fun t => t.part = p.val && t.frame.isNone) = some y → pickFree s pt.frames (usedFrames s pt) = some f →
    y.kind = 4 → Completes (.frameGrant p) s (fun t => t.kv = { s.kv with
        stalls := s.kv.stalls.filter (fun u => !(u.queue = y.queue && u.kind = 4 && u.index = y.index)),
        swaps := s.kv.swaps ++ [⟨y.index, pt.part, (getWay s y.index).loc, f, true, y.queue⟩] } ∧
      isFrozen t 8 y.queue = false ∧ t.sync = s.sync)) ∧
  (∀ (w : BitVec 24) (x : Swap) (p : Partition) (s : State), s.wf = true → devRuns s = true → getPart s x.part = some p →
    let i := w.toNat
    let e := getWay s i
    let rest := s.kv.swaps.filter (fun y => y ≠ x)
    (s.kv.swaps.find? (fun y => y.index = i && !y.inward) = some x →
      (frameBad s p e.loc 0 (imageBytes e.kfmt + 128) = none → Completes (.swapOutDone w) s (fun t =>
        getWay t i = wayOf (wayWord { e with state := 5, loc := x.slot }) ∧ (∀ j, j ≠ i → getWay t j = getWay s j) ∧
        t.kv.swaps = rest ∧ t.mem = (gWrite s (swapAddr s p x.slot) (swapImage s p e)).mem ∧ t.sync = s.sync)) ∧
      (frameBad s p e.loc 0 (imageBytes e.kfmt + 128) ≠ none → Completes (.swapOutDone w) s (fun t =>
        t.kv.waybill = s.kv.waybill ∧ t.kv.noSwap = s.kv.noSwap ++ [i] ∧ t.sync = s.sync))) ∧
    (s.kv.swaps.find? (fun y => y.index = i && y.inward) = some x →
      let b := gBytes s (swapAddr s p x.slot) (p.frameUnits * 128)
      let ok := crc32c (b.take (imageBytes e.kfmt)) = BitVec.ofNat 32 (fieldAt b (imageBytes e.kfmt + 16) 4)
      (ok → Completes (.swapInDone w) s (fun t => getWay t i = wayOf (wayWord { e with
          state := (if e.ships = 0 then fieldAt b (imageBytes e.kfmt + 22) 1 else 3), loc := x.frame }) ∧
        (∀ j, j ≠ i → getWay t j = getWay s j) ∧ t.kv.swaps = rest ∧ t.mem = (frameWrite s p x.frame 0 b).mem ∧ t.sync = s.sync)) ∧
      (¬ ok → Completes (.swapInDone w) s (fun t => t.kv.waybill = s.kv.waybill))))

/-! ## The fabric, the host's faces and the memory -/

/-- R193, R344, R351, R378: a write through an export window stores its bytes and is acknowledged; a read is answered with the
bytes; a write to the doorbell window moves its queue; a repeated write is only acknowledged, a message of a frozen source is
discarded, and an access that no window serves freezes its source.
The model's choices in it: logs 32 and 51. -/
def Obligations.FabricAccesses : Prop :=
  ∀ (h : RolreHead) (data : List Byte) (len : Nat) (s : State), s.wf = true → HearsFabric s h →
    let src := h.srcFid.toNat
    let w := Instr.rolreMemoryWrite h data none
    let r := Instr.rolreReadRequest h len
    (isFrozen s 7 src = true → Completes w s (OnlyAnswered (answerOut h 4 1 []) s) ∧ Completes r s (OnlyAnswered (answerOut h 3 1 []) s)) ∧
    (isFrozen s 7 src = false → isDup s h = true → Completes w s (OnlyAnswered (answerOut h 4 0 []) s)) ∧
    (isFrozen s 7 src = false → isDup s h = false → h.offset.toNat < doorbellBase →
      (∀ a, exportAddr s src h.offset.toNat data.length true = some a → Completes w s (fun t =>
        AcceptedWith h (answerOut h 4 0 []) s t ∧ t.sync = s.sync ∧ t.mem = (memWrite s a data).mem)) ∧
      (exportAddr s src h.offset.toNat data.length true = none → Completes w s (FabricRefused h 4 s))) ∧
    (∀ u, isFrozen s 7 src = false → isDup s h = false → doorbellBase ≤ h.offset.toNat → doorbell s h data = some u →
      Completes w s (fun t => t.host = u.host ∧ t.out = u.out ++ [answerOut h 4 0 []] ∧ t.sync = s.sync ∧ t.kv = s.kv)) ∧
    (isFrozen s 7 src = false → h.offset.toNat < doorbellBase →
      (∀ a, exportAddr s src h.offset.toNat len false = some a → Completes r s (fun t =>
        AcceptedWith h (answerOut h 3 0 (localRead s a len)) s t ∧ t.sync = s.sync ∧ ReadsAsBefore s t)) ∧
      (exportAddr s src h.offset.toNat len false = none → Completes r s (FabricRefused h 3 s)))

/-- R193, R222, R249, R468, R471: a remote ADD or SUB of a group member is applied and acknowledged, of another source freezes
it; a read response brings its bytes, a write acknowledgement ends its write, a refusal freezes the master, and a response to a
closed generation is dropped and counted.
The model's choices in it: log 32. -/
def Obligations.FabricAnswers : Prop :=
  (∀ (h : RolreHead) (sg : RemoteSignal) (sub : Bool) (s : State), s.wf = true → HearsFabric s h → isFrozen s 7 h.srcFid.toNat = false →
    isDup s h = false →
    (∀ g y, getGroup s sg.group.val = some g → g.members.any (fun m => m.toNat = h.srcFid.toNat) = true →
      let o := remoteOp g h.srcFid.toNat (if sub then 2 else 14) sg
      getTally s g.ctx sg.vid.toNat = some y → y.barrier = false → scopeBad s o y = false → g.ctx < 64 →
      let z := { noted s o y with value := if sub then y.value - sg.amount else y.value + sg.amount }
      (if sub then sg.amount.toNat ≤ y.value.toNat
       else y.value.toNat + sg.amount.toNat ≤ limitOf s o.ctx o.vid y ∧ y.value.toNat + sg.amount.toNat < 2 ^ 32 ∧ NoTakes s o) →
      Completes (.rolreTallyOperation h sg sub) s (fun t => AcceptedWith h (answerOut h 4 0 []) s t ∧ t.mem = s.mem ∧
        TallyIs o z (if sub then s.sync.waiters else readsReleased s o.ctx o.vid z) s t)) ∧
    ((∀ g, getGroup s sg.group.val = some g → g.members.any (fun m => m.toNat = h.srcFid.toNat) = false) →
      Completes (.rolreTallyOperation h sg sub) s (fun t => isFrozen t 7 h.srcFid.toNat = true ∧ t.sync = s.sync ∧ t.kv = s.kv))) ∧
  (∀ (h : RolreHead) (data : List Byte) (x : Sent) (s : State), s.wf = true → HearsFabric s h → sentFor s h [2] = some x →
    (∀ u, x.who.bind (unitOf s) = some u → u.2.2.2 ≠ h.generation → Completes (.rolreReadResponse h data) s (fun t =>
      t.dev.stale = s.dev.stale + 1 ∧ t.comp = s.comp ∧ t.sync = s.sync ∧ t.fab.got = s.fab.got)) ∧
    ((∀ u, x.who.bind (unitOf s) = some u → u.2.2.2 = h.generation) →
      (h.rstatus ≠ 1 → data.length = x.bytes → Completes (.rolreReadResponse h data) s (fun t =>
        (∀ a, tabFind t.mem.outside a = if x.addr ≤ a ∧ a < x.addr + x.bytes then data[a - x.addr]? else tabFind s.mem.outside a) ∧
        t.mem.cells = s.mem.cells ∧ t.fab.sent = replaceFirst x none s.fab.sent ∧
        tabGet 0 t.fab.flowSeen (flowKey h) = h.flowSeq + 1 ∧ t.sync = s.sync ∧ t.comp = s.comp)) ∧
      (∀ c y, h.rstatus = 1 → x.who = some (.chan c) → getChan s c = some y → y.ctx < 64 →
        Completes (.rolreReadResponse h data) s (fun t => getChan t c = some { y with state := 3, cause := 4 } ∧
          isFrozen t 1 y.ctx = true ∧ t.sync = s.sync)))) ∧
  (∀ (h : RolreHead) (x : Sent) (s : State), s.wf = true → HearsFabric s h → sentFor s h [1, 5] = some x →
    (h.rstatus ≠ 1 → x.kind = 1 → Completes (.rolreWriteAck h) s (fun t => t.fab.sent = replaceFirst x none s.fab.sent ∧
      tabGet 0 t.fab.flowSeen (flowKey h) = h.flowSeq + 1 ∧ t.mem = s.mem ∧ t.sync = s.sync ∧ t.host = s.host ∧ t.comp = s.comp)) ∧
    (∀ q r, h.rstatus ≠ 1 → x.kind = 5 → x.who = some (.queue q) → (getQ s q).run = some r → Completes (.rolreWriteAck h) s (fun t =>
      (getQ t q).run = some { r with work := .tally true } ∧ t.fab.sent = replaceFirst x none s.fab.sent ∧ t.mem = s.mem)) ∧
    (∀ c y, h.rstatus = 1 → x.who = some (.chan c) → getChan s c = some y → y.ctx < 64 → Completes (.rolreWriteAck h) s (fun t =>
      getChan t c = some { y with state := 3, cause := 4 } ∧ isFrozen t 1 y.ctx = true ∧ t.sync = s.sync)))

/-- R189, R194, R373, R446: what a PCIe host can ask of memory: BAR2 reads and writes, requests that are refused, configuration
requests, and the invalidations of context and host translations.
Then: R200, R201, R465, R466: a refetch that succeeds replaces the burst by the origin's bytes, and one that fails ends its
packet; the scrubber moves over its stack and writes back what it corrects; when the contents of a retired pseudo-channel have
been copied, the range they took is lost.
The model's choices in it: logs 45, 52 and 53. -/
def Obligations.HostAndMemory : Prop :=
  ((∀ (f : FnId) (rid : BitVec 16) (off : BitVec 40) (len : Nat) (data : List Byte) (s : State), s.wf = true →
     (bar2Open s f rid = false →
       Completes (.bar2Read f rid off len) s (fun t => t = { s with out := s.out ++ [.completion f rid 1 []] }) ∧
       Completes (.bar2Write f rid off data) s (fun t => t = { s with out := s.out ++ [.completion f rid 1 []] })) ∧
     (bar2Open s f rid = true →
       (∀ l, bar2Pieces s f off.toNat len false = some l → l.findSome? (fun y => badBurst s y.1 y.2) = none →
         Completes (.bar2Read f rid off len) s (fun t => ReadsAsBefore s t ∧ t.sync = s.sync ∧ t.frozen = s.frozen ∧
           t.out = s.out ++ [.completion f rid 0 ((l.map (fun y => localRead s y.1 y.2)).flatten)])) ∧
       (bar2Pieces s f off.toNat len false = none → Completes (.bar2Read f rid off len) s (fun t =>
         isFrozen t 6 (pcieIdx f rid) = true ∧ t.sync = s.sync ∧ ∃ l, t.out = s.out ++ l ++ [.completion f rid 1 []])) ∧
       (∀ l, bar2Pieces s f off.toNat data.length true = some l → Completes (.bar2Write f rid off data) s (fun t =>
         t.mem = (writePieces s l data).mem ∧ t.sync = s.sync ∧ t.kv = s.kv ∧ t.host = s.host ∧ t.frozen = s.frozen)) ∧
       (bar2Pieces s f off.toNat data.length true = none → Completes (.bar2Write f rid off data) s (fun t =>
         isFrozen t 6 (pcieIdx f rid) = true ∧ t.sync = s.sync ∧ ∃ l, t.out = s.out ++ l ++ [.completion f rid 1 []]))) ∧
     Completes (.unsupportedRequest f rid) s (fun t => t = { s with out := s.out ++ [.completion f rid 1 []] })) ∧
   (∀ (f : FnId) (off : BitVec 12) (s : State), s.dev.powered = true → (s.dev.perst[f.val / 32]?).getD false = false →
     (s.dev.ready = false → s.dev.recovery = false → Completes (.pcieConfigRequest f off) s (fun t =>
       t = { s with out := s.out ++ [.completion f 0 2 []] })) ∧
     (s.dev.ready = true ∨ s.dev.recovery = true → Completes (.pcieConfigRequest f off) s (fun t => ∃ d : List Byte, d.length = 4 ∧
       t = { s with out := s.out ++ [.completion f 0 0 d], fresh := s.fresh + 1 }))) ∧
   (∀ (r : Requester) (c : CtxId) (hi : BitVec 8) (pages : BitVec 20) (s : State), s.wf = true →
     let o := xltOff c + 0xC
     let kept := fun (rm : Cached → Bool) (t : State) => t.mem = { s.mem with
       cache := s.mem.cache.filter (fun x => !(x.ctx = c.val && rm x)), invals := s.mem.invals ++ [⟨c.val⟩] } ∧ t.sync = s.sync
     let n := (if pages = 0 then 2 ^ 20 else pages.toNat) * 2 ^ 16
     s.mem.invals.any (fun i => i.ctx = c.val) = false →
     (TakenLocked s r o 0x80000000 → Completes (.xltInvalContext r c) s (kept (fun _ => true))) ∧
     (TakenLocked s r o (2 ^ 31 + 2 ^ 28 + hi.toNat * 2 ^ 20 + pages.toNat) → Completes (.xltInvalRange r c hi pages) s
       (kept (inRange (hi.toNat * 2 ^ 48 + regField s (xltOff c + 0x10) 31 0 * 2 ^ 16) n)))) ∧
   (∀ (c : CtxId) (s : State), devRuns s = true → Completes (.invalidationDone c) s (fun t => t = { s with mem := { s.mem with
     invals := s.mem.invals.filter (fun i => i.ctx ≠ c.val) } })) ∧
   (∀ (p : HostPort) (pasid : Option (BitVec 20)) (addr : BitVec 54) (n : Nat) (s : State),
     Completes (.atsInvalidate p pasid addr n) s (fun t => t = { s with mem := { s.mem with atsCache := t.mem.atsCache } } ∧
       ∀ e, e ∈ t.mem.atsCache ↔ e ∈ s.mem.atsCache ∧ ¬ (e.2.1 = p.val ∧ ctxPasid s e.1 = pasid ∧ e.2.2 * 4096 < addr.toNat + n ∧
         addr.toNat < e.2.2 * 4096 + 4096)))) ∧
  ((∀ (n : Nat) (data : List Byte) (r : Refetch) (s : State), s.wf = true → devRuns s = true → s.mem.refetches[n]? = some r →
     (data.length = 128 → s.mem.reads = [] → r.burst % 8 = 0 → Completes (.refetchDone n true data) s (fun t =>
       memBytes t r.burst 128 = data ∧ errWords t r.burst 128 = [] ∧ t.mem.refetches = listDel s.mem.refetches n ∧
       t.sync = s.sync ∧ t.frozen = s.frozen)) ∧
     (∀ q, r.issuer = some (.queue q) → (curPacket s q).isSome = true → Completes (.refetchDone n false data) s (fun t =>
       (getQ t q).run = none ∧ (getQ t q).stopped = true ∧ t.mem.refetches = listDel s.mem.refetches n))) ∧
   (∀ (k : StackId) (s : State), s.wf = true → devRuns s = true → (getStack s k).trained = true → handing s (25 + k.val) = false →
     let a := k.val * 0x1000000000 + (getStack s k).scrubAt
     let next := ((getStack s k).scrubAt + 128) % stackBytes
     (errWords s a 128 = [] → (∀ pc, pc < 64 → pcFails s k pc = false) → Completes (.scrub k) s (fun t =>
       getStack t k = { getStack s k with scrubAt := next } ∧ t.mem = { s.mem with stackTab := t.mem.stackTab } ∧ t.sync = s.sync)) ∧
     (badBurst s a 128 = none → (getStack s k).copying ≠ none → Completes (.scrub k) s (fun t =>
       (getStack t k).scrubAt = next ∧ errWords t a 128 = [] ∧ ReadsAsBefore s t ∧ t.sync = s.sync))) ∧
   (∀ (k : StackId) (pc : Fin 64) (s : State), s.wf = true → unitsMove s = true → (getStack s k).copying = some pc.val →
     (∀ i, i < 64 → pcFails s k i = false) →
     let a := k.val * 0x1000000000 + (52 - (getStack s k).retired.length) * 2 ^ 30
     Completes (.pseudoChannelCopyDone k pc) s (fun t => getStack t k = { getStack s k with copying := none } ∧
       (∀ b, memByte t b = if a ≤ b ∧ b < a + 2 ^ 30 then 0 else memByte s b) ∧ t.sync = s.sync ∧ t.kv = s.kv)))

/-! ## Ports and the epoch -/

/-- R346, R349, R489: how a port trains: what each event of its lanes and its partner makes of its state, and the fabric ID it
brings.
The model's choices in it: log 33. -/
def Obligations.PortsTrain : Prop :=
  ∀ (p : RolrePort) (s : State), s.wf = true → s.dev.powered = true →
    let x := getPort s p
    let back := { entered s x (if 3 ≤ x.tries.toNat + 1 then 0 else 1) with
      tries := BitVec.ofNat 3 (x.tries.toNat + 1), good := 0, inUse := 0, width := 0 }
    (x.state = 0 → portEnabled s p = true → refAbsent s p = false →
      (x.tries = 0 → Completes (.partnerSignalDetected p) s (PortIs p (entered s x 1) s)) ∧
      (x.tries ≠ 0 → x.since.toNat + 2 ^ 20 ≤ s.stage.toNat →
        Completes (.portDownRetry p) s (PortIs p { entered s x 1 with tries := 0 } s))) ∧
    (∀ lanes : BitVec 8, x.state = 1 → Completes (.laneLock p lanes) s (PortIs p
      (if x.good ||| lanes = 0xFF then { entered s x 2 with good := 0xFF } else { x with good := x.good ||| lanes }) s)) ∧
    (x.state = 2 → Completes (.codewordAlignment p) s (PortIs p (entered s x 3) s)) ∧
    (x.state = 1 → x.good ≠ 0 → Completes (.trainingTimeout p) s (PortIs p (entered s x 2) s)) ∧
    ((x.state = 1 ∧ x.good = 0) ∨ x.state = 2 ∨ x.state = 3 ∨ x.state = 4 → Completes (.trainingTimeout p) s (PortIs p back s)) ∧
    (∀ (width : BitVec 4) (fid : Fid) (peer : BitVec 16), x.state = 3 →
      let w := widthFor (min width.toNat (lanesOf x.good).length)
      (fidRefused s p fid = true → Completes (.trainingFlit p width fid peer) s (fun t =>
        PortIs p { entered s x 6 with peer := peer } s t ∧ t.fab.fid = s.fab.fid)) ∧
      (fidRefused s p fid = false → w ≠ 0 → Completes (.trainingFlit p width fid peer) s (fun t =>
        PortIs p { entered s x 4 with peer := peer, width := BitVec.ofNat 4 w, inUse := inUseOf x.good w } s t ∧ t.fab.fid = fid))) ∧
    (∀ k : Fin 2, Completes (.missingReferenceClock (.rolre k)) s (fun t =>
      (∀ j, 8 * k.val ≤ j → j < 8 * k.val + 8 → (getPort t j).state = 0 ∧ (getPort t j).width = 0 ∧ (getPort t j).good = 0) ∧
      (∀ j, j < 8 * k.val ∨ 8 * k.val + 8 ≤ j → getPort t j = getPort s j) ∧
      t.dev.refMissing = listSet s.dev.refMissing k.val true ∧ t.mem = s.mem)) ∧
    (∀ k : HostPort, Completes (.missingReferenceClock (.pcie k)) s (fun t =>
      t = { s with dev := { s.dev with refMissing := listSet s.dev.refMissing (2 + k.val) true } }))

/-- R341 to R343, R347, R348, R355: how a trained port works: its width follows its good lanes, a flit out of sequence is asked
for again, a replay counts, and the delay of its link is measured.
The model's choices in it: logs 33 and 34. -/
def Obligations.PortsWork : Prop :=
  ∀ (p : RolrePort) (s : State), s.wf = true → s.dev.powered = true →
    let x := getPort s p
    let live := 4 ≤ x.state.toNat ∧ x.state ≠ 6
    let ask := fun (y : Port) => if x.retrying then y else { y with retrying := true }
    let asked := if x.retrying then s.out else s.out ++ [Out.flit p 6 [BitVec.ofNat 64 x.expect.toNat]]
    (live → ∀ l : Fin 8,
      (x.good.getLsbD l.val = true →
        let g := x.good &&& ~~~(BitVec.ofNat 8 (2 ^ l.val))
        let w := min x.width.toNat (widthFor (lanesOf g).length)
        Completes (.laneNotGood p l) s (fun t => (getPort t p).good = g ∧ (getPort t p).width = BitVec.ofNat 4 w ∧
          (getPort t p).inUse = inUseOf g w ∧ (getPort t p).state = (if w = 0 then 1 else x.state) ∧ t.sync = s.sync ∧
          (∀ j, j ≠ p.val → getPort t j = getPort s j))) ∧
      (x.good.getLsbD l.val = false →
        let y := { x with good := x.good ||| BitVec.ofNat 8 (2 ^ l.val) }
        let s1 := modPort s p (fun _ => y)
        let wider := mayWiden s1 p && unitsMove s && !rejoinHeld s
        (wider = false → Completes (.laneGoodAgain p l) s (PortIs p y s)) ∧
        (wider = true → Completes (.laneGoodAgain p l) s (fun t => (getPort t p).state = 4 ∧
          (getPort t p).width = BitVec.ofNat 4 (widthFor (lanesOf y.good).length) ∧ (getPort t p).gen = nextGen x.gen ∧
          (getPort t p).good = y.good ∧ t.sync = s.sync)))) ∧
    (live → ∀ f : FlitIn, devFrozen s = false → f.kind ≠ 0 → f.kind.toNat ≤ 3 →
      (f.fecOk = false → Completes (.receivedFlit p f) s (fun t =>
        PortIs p (ask { x with uncorrected := satInc x.uncorrected }) s t ∧ t.out = asked)) ∧
      (f.fecOk = true →
        let y := if f.corrected then { x with corrected := satInc x.corrected } else x
        (f.fseq ≠ x.expect → Completes (.receivedFlit p f) s (fun t => PortIs p (ask y) s t ∧ t.out = asked)) ∧
        (f.fseq = x.expect → Completes (.receivedFlit p f) s (fun t =>
          PortIs p { y with expect := x.expect + 1, retrying := false } s t ∧ t.out = s.out)))) ∧
    (live → ∀ n : BitVec 12,
      let row := if x.replayRow ≠ 0 ∧ x.replayed = n then x.replayRow + 1 else 1
      let y := { x with replays := satInc x.replays, replayed := n, replayRow := row % 8 }
      Completes (.retryRequest p n) s (fun t => t.out = s.out ++ [.replay p n] ∧
        PortIs p (if row = 8 then { entered s y 1 with good := 0, inUse := 0, width := 0 } else y) s t)) ∧
    (∀ k : BitVec 4, k.getLsbD 3 = true → Completes (.reservedFlit p k) s (PortIs p { x with reserved := x.reserved + 1 } s)) ∧
    (x.state = 4 ∨ x.state = 5 → ∀ a b : BitVec 64, Completes (.delayRequest p a b) s (fun t =>
      t = { s with out := s.out ++ [.flit p 5 [a, b]] })) ∧
    (x.state = 4 ∨ (x.state = 5 ∧ s.fab.epoch.source.toNat = p.val) → ∀ a : BitVec 64, Completes (.delayMeasure p a) s (fun t =>
      PortIs p { x with measure := some a } s t ∧ t.out = s.out ++ [.flit p 4 [a]])) ∧
    (∀ a now : BitVec 64, x.measure = some a →
      let y := { x with measure := none, timed := true, delayNs := BitVec.ofNat 16 (min 0xFFFF ((now - a).toNat / 2000)) }
      Completes (.delayResponse p a now) s (PortIs p
        (if x.state = 4 ∧ epochBelow (modPort s p (fun _ => y)) p = true then { entered s y 5 with tries := 0 } else y) s))

/-- R354, R355, R357, R362 to R364: an accepted symbol or pulse sets the source and the offset, locks within 1 ns, and takes a
timed port to Up; the first one may advance the stage counter; silence leads to holdover, and holdover to loss.
The model's choices in it: logs 34 and 35. -/
def Obligations.EpochFollowsItsSource : Prop :=
  (∀ (p : RolrePort) (n : Stage) (off : Int) (s : State), s.wf = true → s.dev.powered = true → epochExpects s n = true →
    let x := getPort s p
    let up := if x.state = 4 then { entered s x 5 with tries := 0 } else x
    x.state = 5 ∨ (x.state = 4 ∧ x.timed = true) →
    let s1 := modPort s p (fun _ => up)
    let d := ((s.stage.toNat : Int) - n.toNat) * 1024 + off
    let e := s.fab.epoch
    (epochBelow s1 p = true → Completes (.epochSymbol p n true off) s (fun t => OnlyEpoch s t ∧ getPort t p = up ∧ t.fab.epoch = e)) ∧
    (epochBelow s1 p = false → e.acquired = true → (e.state = 1 ∨ (e.state = 2 ∧ (-1048576 ≤ d ∨ stepMeasured s = false))) →
      Completes (.epochSymbol p n true off) s (fun t => OnlyEpoch s t ∧ getPort t p = up ∧
        t.fab.epoch = { e with state := (if -2 < d ∧ d < 2 then 1 else 2), source := BitVec.ofNat 5 p.val, silent := 0,
                               offsetNs := BitVec.ofInt 32 (clampInt (-2147483648) 2147483647 d), lastStage := s.stage,
                               acquired := true, lost := if -2 < d ∧ d < 2 then false else e.lost })) ∧
    (epochBelow s1 p = false → e.acquired = false → s.stage.toNat < n.toNat → Completes (.epochSymbol p n true off) s (fun t =>
      t.stage = n ∧ t.fab.epoch.state = 1 ∧ t.fab.epoch.source = BitVec.ofNat 5 p.val ∧ t.fab.epoch.acquired = true ∧ getPort t p = up))) ∧
  (∀ s : State, s.wf = true → s.dev.powered = true →
    let e := s.fab.epoch
    (e.state = 1 ∨ e.state = 2 → portDelivers s = false → (e.source.toNat < 16 → pulseAllowed s = false ∧ 64 ≤ e.silent.toNat) →
      Completes .epochHoldover s (fun t => t.fab.epoch = { e with state := 3, heldFrom := s.stage } ∧ t.stage = s.stage ∧ t.sync = s.sync)) ∧
    (e.state = 3 → e.heldFrom.toNat + 2 ^ 20 ≤ s.stage.toNat → Completes .epochLost s (fun t =>
      t.fab.epoch = { e with state := 4, lost := true, source := 31 } ∧ t.stage = s.stage ∧ t.sync = s.sync)) ∧
    (∀ off, pulseAllowed s = true → portDelivers s = true → Completes (.epochPulse off) s (fun t => OnlyEpoch s t ∧
      t.fab.epoch = { e with pulseNext := e.pulseNext + 1024 })) ∧
    (∀ off, pulseAllowed s = true → portDelivers s = false → e.acquired = true → (off < -50 ∨ 50 < off) →
      Completes (.epochPulse off) s (fun t => OnlyEpoch s t ∧ t.fab.epoch = { e with pulseIgnored := e.pulseIgnored + 1 })) ∧
    (∀ off, pulseAllowed s = true → portDelivers s = false → e.acquired = true → e.state = 1 → -50 ≤ off → off ≤ 50 →
      Completes (.epochPulse off) s (fun t => OnlyEpoch s t ∧ t.fab.epoch.pulseNext = e.pulseNext + 1024 ∧
        t.fab.epoch.source = 16 ∧ t.fab.epoch.silent = 0)) ∧
    (pulseAllowed s = true → Completes .epochPulseMissing s (fun t => OnlyEpoch s t ∧
      t.fab.epoch = { e with pulseNext := e.pulseNext + 1024 })))

/-! ## Power and the weighhouse -/

/-- R404, R406, R410 to R414, R419, R421, R424: the device step changes at its stage; a boundary takes the registers and closes
its interval, with its feed or without; a round decides the step of N + 64; limiter, sensors and supply alert put their floors.
The model's choices in it: logs 35 and 37. -/
def Obligations.PowerIsControlled : Prop :=
  (∀ (n : Stage) (c : BitVec 7) (s : State), controlRuns s = true → s.power.next = some (n, c) → n.toNat ≤ s.stage.toNat →
    Completes .stepChange s (fun t => t.power.devCode = c ∧ t.power.next = none ∧ PowerOnly s t)) ∧
  (∀ (m : PowerReading) (s : State), controlRuns s = true → s.power.boundary + 256 ≤ s.stage.toNat →
    let n := s.stage.toNat / 256 * 256
    let taken := fun (t : State) => WorkKept s t ∧ t.power.boundary = n ∧ t.power.capW = regField s 0x300004 31 20 ∧
      t.power.dieLimitW = regField s 0x300004 19 9 ∧ t.power.fixedEn = decide (regField s 0x300008 31 31 = 1) ∧
      t.power.fixedCode.toNat = regField s 0x300008 30 24 ∧ t.power.hostMax.toNat = regField s 0x300008 23 17
    (m.feed = none → Completes (.controlInterval m) s (fun t => taken t ∧ t.power.awaiting = some m.raw)) ∧
    (∀ f, m.feed = some f → Completes (.controlInterval m) s (fun t => taken t ∧ t.power.awaiting = none ∧
      t.power.est = BitVec.ofNat 32 (min 0xFFFFFFFF (floorNat (estOf s m.raw))) ∧
      t.power.measW = (if m.feedFault then 0 else BitVec.ofNat 16 (min 0xFFFF (wattsOf f))) ∧
      t.power.mine.toNat ≤ nextCode t.power.devCode.toNat ∧ t.power.mine.toNat ≤ t.power.u.toNat ∧
      ((∀ p, p < 8 → regField s (0x300040 + 4 * p) 31 31 = 0) → t.power.next = some (BitVec.ofNat 64 (n + 64), t.power.mine))))) ∧
  (∀ (raw : Nat) (s : State), s.power.awaiting = some raw → controlRuns s = true → s.power.boundary + 4 ≤ s.stage.toNat →
    Completes .controlFeedTimeout s (fun t => WorkKept s t ∧ t.power.awaiting = none ∧ t.power.meas = 0 ∧ t.power.measW = 0 ∧
      t.power.k = s.power.k ∧ t.power.boundary = s.power.boundary ∧ (s.power.cal ≠ 3 → t.power.cal = 2))) ∧
  (∀ (src : Fid) (g : GroupId) (n : Stage) (c : BitVec 7) (s : State), controlRuns s = true → s.power.boundary ≤ n.toNat →
    Completes (.lockProposal src g n c) s (fun t => t = { s with power := { s.power with locks := t.power.locks } } ∧
      ∀ p e i, p < 8 → lockEntry s p = some e → (getLock s p).group.toNat = g.val → e.members[i]? = some src → i ≠ e.selfPos →
        (n.toNat, i, c) ∈ (getLock t p).votes)) ∧
  (∀ s : State, controlRuns s = true → s.power.boundary + 48 ≤ s.stage.toNat → s.power.roundOpen = true →
    Completes .lockRoundDeadline s (fun t => PowerOnly s t ∧ t.power.roundOpen = false ∧
      (∃ c, t.power.next = some (BitVec.ofNat 64 (s.power.boundary + 64), c)) ∧
      ∀ p e, p < 8 → lockEntry s p = some e →
        (allVoted s p e → (getLock t p).state = 1 ∧ (getLock t p).agreed = BitVec.ofNat 7 (leastVote s p) ∧
          (getLock t p).failed = (getLock s p).failed) ∧
        (¬ allVoted s p e → (getLock t p).state = 2 ∧
          (getLock t p).failed = if (getLock s p).failed = 0x3FFF then 0x3FFF else (getLock s p).failed + 1))) ∧
  (∀ (d : DieId) (watts : Nat) (x : Die) (s : State), powerRuns s = true → s.power.dies[d.val]? = some x →
    let lim := s.power.dieLimitW
    let is := fun (c : BitVec 7) (t : State) => (getDie t d).limiter = c ∧ PowerOnly s t ∧
      (∀ e, e ≠ d.val → (getDie t e).limiter = (getDie s e).limiter) ∧ t.power.devCode = s.power.devCode
    (lim < watts → 3 ≤ x.exceeded → Completes (.currentLimiterSample d watts) s (is (BitVec.ofNat 7 (limiterDown (dieStep s d))))) ∧
    (lim < watts → x.exceeded < 3 → Completes (.currentLimiterSample d watts) s (fun t => is x.limiter t ∧
      (getDie t d).exceeded = x.exceeded + 1 ∧ (getDie t d).under = 0)) ∧
    (watts * 10 < lim * 9 → x.limiter ≠ 127 → 128 ≤ x.under + 1 → (x.under + 1) % 8 = 0 →
      Completes (.currentLimiterSample d watts) s (is (if s.power.devCode.toNat ≤ limiterUp x.limiter.toNat then 127
        else BitVec.ofNat 7 (limiterUp x.limiter.toNat))))) ∧
  (∀ (r : SensorReading) (s : State), powerRuns s = true → s.power.dies.length = 2 →
    let reached := fun (f : BitVec 16 × Int × Int → Int) => (readings r).any (fun x => decide (8 * f x ≤ tempOf x.1))
    Completes (.sensorRead r) s (fun t => PowerOnly s t ∧ (getDie t 0).tmax = r.die0 ∧ (getDie t 1).tmax = r.die1 ∧
      t.power.ioTemp = r.io ∧ t.power.hbmTemp = r.hbm.take 12 ∧ t.power.critical = (s.power.critical || reached (·.2.1)) ∧
      (reached (·.2.2) = true → devFrozen t = true ∧ t.dev.therm = true ∧ t.out.getLast? = some .thermTripN) ∧
      (reached (·.2.2) = false → t.dev = s.dev))) ∧
  (∀ s : State, powerRuns s = true →
    (s.power.critical = true → s.power.hotAt.toNat + 256 ≤ s.stage.toNat → Completes .thermalFloorExit s (fun t =>
      t.power.critical = false ∧ PowerOnly s t ∧ t.power.devCode = s.power.devCode)) ∧
    (∀ src : BitVec 5, src ≠ 0 → Completes (.supplyAlert src) s (fun t => t.power.alertOn = true ∧ t.power.alertAt = s.stage ∧
      t.power.alert = (if s.power.alertOn then s.power.alert ||| src else src) ∧ (∀ d, dieStep t d = 24) ∧ PowerOnly s t)) ∧
    (s.power.alertOn = true → s.power.alertAt.toNat + 256 ≤ s.stage.toNat → Completes .supplyAlertClear s (fun t =>
      t.power.alertOn = false ∧ t.power.alert = 0 ∧ t.power.devCode = 32 ∧ t.power.next = none ∧ PowerOnly s t))) ∧
  (∀ (d : DieId) (slack : Nat) (x : Die) (s : State), powerRuns s = true → s.power.dies[d.val]? = some x →
    x.reviewed < s.stage.toNat / 2 ^ 26 →
    let n := s.stage.toNat / 2 ^ 26
    let g := x.guardMv.toNat
    let only := fun (t : State) => t = { s with power := { s.power with dies := t.power.dies, trimLog := t.power.trimLog } }
    let more := if x.trims = 0xFFFF then x.trims else x.trims + 1
    let entry := fun v => Trim.mk (BitVec.ofNat 64 (n * 2 ^ 26)) (BitVec.ofNat 8 d.val) x.guardMv (BitVec.ofNat 8 v)
      (BitVec.ofNat 8 (min 255 slack))
    (g + 15 < slack → x.floorMv.toNat + 5 ≤ g → Completes (.guardBandReview d slack) s (fun t => only t ∧
      getDie t d = { x with reviewed := n, guardNext := BitVec.ofNat 8 (g - 5), trims := more } ∧
      t.power.trimLog = (entry (g - 5) :: s.power.trimLog).take 1024)) ∧
    (slack < g + 5 → g + 5 ≤ 75 → Completes (.guardBandReview d slack) s (fun t => only t ∧
      getDie t d = { x with reviewed := n, guardMv := BitVec.ofNat 8 (g + 5), guardNext := BitVec.ofNat 8 (g + 5), trims := more } ∧
      t.power.trimLog = (entry (g + 5) :: s.power.trimLog).take 1024)) ∧
    (g + 5 ≤ slack → slack ≤ g + 15 → Completes (.guardBandReview d slack) s (fun t => only t ∧
      getDie t d = { x with reviewed := n } ∧ t.power.trimLog = s.power.trimLog))) ∧
  (∀ (c : CtxId) (id : Byte) (x : Phase) (s : State),
    s.power.phases.find? (fun y => decide (y.ctx = c.val) && decide (y.id = id)) = some x → x.awaits = none →
    x.start.toNat + (if x.duration = 0 then 2 ^ 20 else 2 * x.duration.toNat) ≤ s.stage.toNat →
    Completes (.hintPhaseEnd c id) s (fun t => t = { s with power := { s.power with
      phases := s.power.phases.filter (fun y => !(decide (y.ctx = c.val) && decide (y.id = id))) } }))

/-- R423, R425 to R429, R492: a sample adds its energy to the interval; a boundary closes the interval into a chained record; a
checkpoint holds the chain and waits for its signature; recalibration raises the seal; without its supply the domain loses all
but its fuses.
The model's choices in it: logs 35 and 38. -/
def Obligations.WeighhouseMeasures : Prop :=
  ∀ s : State, s.weigh.powered = true →
  let w := s.weigh
  let point := fun (kind : Nat) (t : State) => t.weigh.ckptIndex = w.ckptIndex + 1 ∧ t.weigh.total = w.total ∧ t.weigh.chain = w.chain ∧
    t.weigh.cur = w.cur ∧ t.weigh.records = w.records ∧ t = { s with weigh := t.weigh } ∧ ∃ c, t.weigh.ckpts.getLast? = some c ∧
      c.signed = false ∧ fieldAt c.bytes 2 1 = kind ∧ fieldAt c.bytes 4 4 = w.ckptIndex % 2 ^ 32 ∧ fieldAt c.bytes 8 8 = s.stage.toNat
  (w.state ≠ 0 →
    (∀ volts amps : BitVec 16, intervalDue s = false →
      let p := Config.weighVolts w.calibration volts * Config.weighAmps w.calibration amps
      let v := BitVec.ofNat 16 (min 0xFFFF (p / 2 ^ 40))
      Completes (.weighhouseSample volts amps) s (WeighIs { w with cur := { w.cur with
        energy := w.cur.energy + p, samples := w.cur.samples + 1
        hi := if w.cur.samples = 0 ∨ w.cur.hi.toNat < v.toNat then v else w.cur.hi
        lo := if w.cur.samples = 0 ∨ v.toNat < w.cur.lo.toNat then v else w.cur.lo
        flags := if amps = 0xFFFF then w.cur.flags ||| 2 else w.cur.flags } } s)) ∧
    (intervalDue s = true → passedOver s (BitVec.ofNat 64 (windowStart s)) = false → Completes .weighhouseInterval s (WeighIs { w with
      index := w.index + 1, total := w.total + (intervalEnergy w).1, carry := (intervalEnergy w).2
      chain := shake256 (w.chain ++ recordHead w)
      records := ((recordHead w ++ shake256 (w.chain ++ recordHead w)) :: w.records).take 4096
      cur := newInterval s (BitVec.ofNat 64 (windowStart s)) false } s)) ∧
    (intervalDue s = false → w.ckptWindow < s.stage.toNat / 2 ^ 26 → Completes .weighhouseCheckpoint s (fun t =>
      point 1 t ∧ t.weigh.ckptWindow = s.stage.toNat / 2 ^ 26)) ∧
    (∀ r : Requester, Taken s r 0x340004 0x80000000 →
      (w.req = false → Completes (.checkpointRequest r) s (fun t => point 2 t ∧ t.weigh.req = true)) ∧
      (w.req = true → Completes (.checkpointRequest r) s (fun t => t = s))) ∧
    (∀ measured : Bool, intervalDue s = false → w.sealNo ≠ 63 → Completes (.weighhouseRecalibration true measured) s (fun t =>
      t = { s with weigh := t.weigh } ∧ t.weigh.sealNo = w.sealNo + 1 ∧ t.weigh.index = w.index + 1 ∧
      t.weigh.total = w.total + (intervalEnergy w).1 ∧ t.weigh.cur = newInterval s s.stage true ∧
      t.weigh.calibration = w.calibration + (if measured then 1 else 0) ∧
      t.weigh.ckptIndex = w.ckptIndex + (if measured then 1 else 0)))) ∧
  (∀ (a b : List Checkpoint) (c : Checkpoint), w.ckpts = a ++ c :: b → (∀ x, x ∈ a → x.signed = true) → c.signed = false →
    Completes .checkpointSigned s (fun t => t = { s with fresh := s.fresh + 1, weigh := { w with
      ckpts := a ++ { c with signed := true, draw := s.fresh } :: b
      req := w.req && b.any (fun x => !x.signed && decide (fieldAt x.bytes 2 1 = 2)) } })) ∧
  (s.dev.powered = false → Completes .weighhousePowerOff s (WeighIs { sealNo := w.sealNo, calibration := w.calibration, powered := false } s))

/-! ## Queues as the host works them, and resets -/

/-- R378, R387, R390, R392, R395, R402: a doorbell sets the tail, a head gives entries back, enabling starts a queue over, resuming
lets a stopped one go on, the standby function takes a queue over, and a coalesced interrupt goes out.
The model's choices in it: log 50. -/
def Obligations.HostWorksQueues : Prop :=
  (∀ (r : Requester) (q : QueueId) (s : State), s.wf = true →
    let regsOnly := fun (t : State) => t = { s with host := { s.host with regs := t.host.regs } }
    let but := fun (o : Nat) (t : State) => ∀ o', o' ≠ o → regWord t o' = regWord s o'
    let others := fun (t : State) => ∀ k, k ≠ q.val → getQ t k = getQ s k
    (∀ tail : BitVec 32, Taken s r (hqOff q + 0x40) tail.toNat → Completes (.sqDoorbell r q tail) s (fun t => regsOnly t ∧
      regField t (hqOff q + 0x40) 15 0 = tail.toNat % 2 ^ 16 ∧ but (hqOff q + 0x40) t)) ∧
    (∀ head : BitVec 32, Taken s r (hqOff q + 0x44) head.toNat → (getQ s q).waiting = [] →
      let left := ((getQ s q).cqTail.toNat + cqSize s q - head.toNat % 2 ^ 16 % cqSize s q) % cqSize s q
      Completes (.cqHeadWrite r q head) s (fun t => regField t (hqOff q + 0x44) 15 0 = head.toNat % 2 ^ 16 ∧ but (hqOff q + 0x44) t ∧
        getQ t q = { getQ s q with posted := (getQ s q).posted.drop ((getQ s q).posted.length - left) } ∧ others t ∧ t.mem = s.mem)) ∧
    (Taken s r (hqOff q + 0x24) 0x80000000 → qEnabled s q = false → Completes (.queueEnable r q) s (fun t => qEnabled t q = true ∧
      but (hqOff q + 0x24) t ∧ others t ∧ t.mem = s.mem ∧
      getQ t q = { getQ s q with consumed := 0, cqTail := 0, phase := true, posted := [], unsignalled := 0 })) ∧
    (Taken s r (hqOff q + 0x24) 0 → Completes (.queueDisable r q) s (fun t => qEnabled t q = false ∧ regsOnly t ∧
      but (hqOff q + 0x24) t)) ∧
    (Taken s r (hqOff q + 0x24) (0x40000000 + if qEnabled s q then 0x80000000 else 0) → Completes (.queueResume r q) s (fun t =>
      getQ t q = { getQ s q with stopped := false } ∧ others t ∧ t.mem = s.mem ∧ ∀ k : Nat, qEnabled t k = qEnabled s k)) ∧
    (∀ f : FnId, r = .fn f → Taken s r (hqOff q + 0x24) 0x20000000 → qAttach s q ≤ 1 → Completes (.queueAdopt r q) s (fun t =>
      qFn t q = f.val ∧ qAttach t q ≤ 1 ∧ (qFn s q ≠ f.val → qFn s q ∈ (getQ t q).former) ∧
      (∀ i, i < 6 → regWord t (hqOff q + 4 * i) = regWord s (hqOff q + 0x70 + 4 * i)) ∧
      regField t (hqOff q + 0x40) 15 0 = 0 ∧ regField t (hqOff q + 0x44) 15 0 = 0 ∧ (getQ t q).consumed = 0 ∧
      (getQ t q).journal = (getQ s q).journal ∧ (getQ t q).run = (getQ s q).run ∧ (getQ t q).stopped = (getQ s q).stopped ∧
      (getQ t q).posted ++ (getQ t q).waiting = (getQ s q).posted ++ (getQ s q).waiting ∧ others t ∧ t.sync = s.sync))) ∧
  (∀ (f : FnId) (vec : Fin 257) (q : QueueId) (s : State), s.wf = true → s.dev.powered = true → (getQ s q).unsignalled ≠ 0 →
    qAttach s q ≤ 1 → qFn s q = f.val → regField s (hqOff q + 0x18) 21 13 = vec.val →
    Completes (.msixCoalesceTimeout f vec) s (fun t => t.out = s.out ++ [.msix f vec] ∧ getQ t q = { getQ s q with unsignalled := 0 } ∧
      (∀ k, qFn s k ≠ f.val → getQ t k = getQ s k) ∧ t.mem = s.mem ∧ t.sync = s.sync))

/-- R396, R399, R445, R491 to R495, R499: what a context reset, a context abort and a function reset make of queues, what a
partition and a warm device reset leave, and what power, a cold reset and a boot lose and keep.
The model's choices in it: logs 12 and 36. -/
def Obligations.ResetsAndPower : Prop :=
  (∀ (r : Requester) (c : CtxId) (s : State), s.wf = true → NoColl s (fun q => boundTo s q c) →
    (Taken s r (ctxOff c) (((regWord s (ctxOff c)).toNat &&& 0xFFE00000) + 2 ^ 14) → s.cfg.apply = none →
      Completes (.contextReset r c) s (ContextsReset [c.val] s)) ∧
    (Taken s r (ctxOff c) (((regWord s (ctxOff c)).toNat &&& 0xFFE00000) + 2 ^ 14) → s.cfg.apply ≠ none →
      Completes (.contextReset r c) s (fun t => t.dev.waitResets = s.dev.waitResets ++ [(false, c.val)] ∧
        t.host.queues = s.host.queues ∧ t.frozen = s.frozen)) ∧
    (Taken s r (ctxOff c) (((regWord s (ctxOff c)).toNat &&& 0xFFE00000) + 2 ^ 13) →
      (∀ st k, k ∈ (getStream s st).picks → boundTo s k.queue c = false) →
      (∀ q e, boundTo s q c = true → e ∈ (getQ s q).journal.tail → e.life = .accepted) →
      Completes (.contextAbort r c) s (fun t => isFrozen t 1 c = false ∧ t.sync.tallies = s.sync.tallies ∧
        (∀ q, q < 256 → boundTo s q c = true → (getQ t q).journal = [] ∧
          ((getQ s q).journal ≠ [] → (getQ t q).run = none) ∧
          (getQ t q).posted ++ (getQ t q).waiting = (getQ s q).posted ++ (getQ s q).waiting ++
            (getQ s q).journal.map (fun e => recordBytes e.bytes 0x20 q)) ∧
        (∀ q, 256 ≤ q ∨ boundTo s q c = false → getQ t q = getQ s q)))) ∧
  (∀ (f : FnId) (s : State), s.wf = true → s.dev.powered = true → NoColl s (fun q => decide (qAttach s q ≤ 1) && decide (qFn s q = f.val)) →
    Completes (.functionLevelReset f) s (FunctionsReset [f.val] s)) ∧
  (∀ (p : HostPort) (s : State), s.wf = true → s.dev.powered = true → s.dev.perst.length = 2 →
    (NoColl s (fun q => decide (qAttach s q ≤ 1) && decide (qFn s q / 32 = p.val)) → s.dev.perst[p.val]? = some false →
      Completes (.perst p true) s (fun t => FunctionsReset (upFrom (32 * p.val) 32) s t ∧ t.dev.perst = s.dev.perst.set p.val true)) ∧
    Completes (.perst p false) s (fun t => t = { s with dev := { s.dev with perst := s.dev.perst.set p.val false } })) ∧
  (∀ (r : Requester) (s : State), s.wf = true → onBus s r = true → served s true .glbReset = true → sees s r .glbReset = true →
    (∀ (p : PartId) (x : Partition), mayReset s r 1 p = true → s.dev.therm = false →
      (getPart s p = some x → s.dev.partReset = none → s.cfg.apply = none → NoColl s (fun q => x.contexts.any (boundTo s q)) →
        Completes (.glbResetPartition r p) s (fun t => ContextsReset x.contexts s t ∧ t.dev.partReset = some p.val ∧ t.dev.resetStatus = 0)) ∧
      (s.dev.partReset = some p.val → Completes (.glbResetPartition r p) s (fun t => t.dev = { s.dev with resetStatus := 2 } ∧
        t.host.queues = s.host.queues ∧ t.frozen = s.frozen)) ∧
      (∀ k, k ≠ p.val → s.dev.partReset = some k → Completes (.glbResetPartition r p) s (fun t =>
        t.dev = { s.dev with resetStatus := 1 } ∧ t.host.queues = s.host.queues ∧ t.frozen = s.frozen)) ∧
      (s.dev.partReset = none → s.cfg.apply ≠ none → Completes (.glbResetPartition r p) s (fun t =>
        t.dev = { s.dev with waitResets := s.dev.waitResets ++ [(true, p.val)] } ∧ t.host.queues = s.host.queues ∧ t.frozen = s.frozen))) ∧
    (mayReset s r 2 0 = true → s.dev.therm = false → s.dev.bootHeld = false → s.dev.recovery = false → s.cfg.waiting = false →
      NoColl s (fun _ => true) → Completes (.glbResetWarm r) s (WarmReset 3 s)) ∧
    (mayReset s r 2 0 = true → s.dev.therm = true → Completes (.glbResetWarm r) s (fun t =>
      t.dev = { s.dev with resetStatus := 3 } ∧ t.host.queues = s.host.queues))) ∧
  (∀ s : State, s.wf = true → s.dev.powered = true → s.dev.therm = false →
    (s.dev.bootHeld = false → s.dev.recovery = false → s.cfg.waiting = false → NoColl s (fun _ => true) →
      Completes .warmDeviceReset s (WarmReset 2 s)) ∧
    (∀ b : BootFacts, b.failedClusters = [] → b.failedStacks = [] →
      Completes (.coldReset b) s (fun t => Boots b s t ∧ WorkLost s t ∧ t.weigh = s.weigh ∧ t.dev.lastDev = 1))) ∧
  (∀ (b : BootFacts) (s : State), s.dev.powered = false → s.weigh.powered = true → b.failedClusters = [] → b.failedStacks = [] →
    Completes (.powerOn false b) s (fun t => Boots b s t ∧ WorkLost s t ∧ t.dev.powered = true ∧ t.weigh = s.weigh ∧ t.dev.lastDev = 0) ∧
    Completes (.powerOn true b) s (fun t => WorkLost s t ∧ t.dev.powered = true ∧ t.dev.bootHeld = true ∧ t.dev.ready = false)) ∧
  (∀ (b : BootFacts) (s : State), s.dev.powered = true → s.dev.bootHeld = true → b.failedClusters = [] → b.failedStacks = [] →
    Completes (.flashExtRelease b) s (Boots b s)) ∧
  (∀ s : State, s.dev.powered = true → Completes .powerDown s (fun t => WorkLost s t ∧ t.dev.powered = false ∧ t.cfg.flash = s.cfg.flash ∧
    t.cfg.owners = s.cfg.owners ∧ t.weigh.powered = s.weigh.powered ∧ t.weigh.sealNo = s.weigh.sealNo ∧
    (s.weigh.powered = true → s.weigh.state ≠ 0 → intervalDue s = false → t.weigh.index = s.weigh.index + 1 ∧
      t.weigh.total = s.weigh.total + (intervalEnergy s.weigh).1)))

/-- R437 to R444, R448 to R451: an image is checked, written for the next reset, or applied when the changed partitions have come
to rest; firmware is taken in recovery, or domain by domain.
The model's choices in it: logs 12, 39 and 40. -/
def Obligations.ImagesAndFirmware : Prop :=
  (∀ (r : Requester) (image : List Byte) (signed : Bool) (s : State), s.wf = true → cfgBusy s = false →
    let o := 0x900018
    let stored := fun (u : State) => u = { s with host := { s.host with regs := u.host.regs } } ∧ ∀ o', o' ≠ o → regWord u o' = regWord s o'
    (Taken s r o (2 ^ 31 + 2 ^ 29 + regField s o 15 0) → Completes (.imageValidate r image signed) s (fun t => ∃ u : State, stored u ∧
      (∀ e, checkImage u image signed false false = .error e → t = { u with cfg := { u.cfg with lastError := BitVec.ofNat 4 e.1 } }) ∧
      (∀ i, checkImage u image signed false false = .ok i → t = u))) ∧
    (∀ (enrol : Bool) (kst : BitVec 16), Taken s r o (2 ^ 31 + 2 * 2 ^ 29 + b2n enrol * 2 ^ 28 + kst.toNat) → s.dev.waitResets = [] →
      Completes (.imageApply r image signed enrol kst) s (fun t => ∃ u : State, stored u ∧ t.host.queues = s.host.queues ∧
        t.sync = s.sync ∧ t.comp = s.comp ∧ t.frozen = s.frozen ∧
        (∀ e, checkImage u image signed enrol false = .error e → t.cfg = { s.cfg with lastError := BitVec.ofNat 4 e.1 }) ∧
        (∀ i, checkImage u image signed enrol false = .ok i →
          (s.cfg.owners = [] → t.cfg.owners = if enrol then [(0, (bytesAt image 96 32, false))] else []) ∧
          (s.cfg.image = none → t.cfg.image = none ∧ t.cfg.flash = image ∧ t.cfg.waiting = true ∧ t.cfg.cstate = 5) ∧
          (∀ a, s.cfg.image = some a →
            let ch := (upFrom 0 8).filter (partChanged a i)
            (ch ≠ [] → t.cfg.image = some a ∧ t.cfg.flash = s.cfg.flash ∧ t.cfg.cstate = 2 ∧
              t.cfg.apply = some ⟨i, image, ch, s.stage, 1024 * max 1 kst.toNat⟩) ∧
            (ch = [] → deviceWide a i = true → t.cfg.image = some a ∧ t.cfg.flash = image ∧ t.cfg.waiting = true ∧ t.cfg.apply = none) ∧
            (ch = [] → deviceWide a i = false → t.cfg.image = some { a with serial := i.serial } ∧ t.cfg.flash = image ∧
              t.cfg.waiting = s.cfg.waiting ∧ t.cfg.apply = none)))))) ∧
  (∀ (p : Apply) (a : Image) (s : State), s.cfg.apply = some p → s.cfg.image = some a →
    (devRuns s = true → quiesced s p = true → applyAllowed s a p.image p.changed = true → Completes .applyQuiesceDone s (fun t =>
      t.cfg.apply = none ∧ t.cfg.image = some (mixImage a p.image) ∧ t.cfg.flash = p.bytes ∧ t.cfg.inForce = p.bytes ∧
      t.cfg.waiting = (s.cfg.waiting || deviceWide a p.image) ∧ t.dev.waitResets = [])) ∧
    (devRuns s = true → quiesced s p = true → applyAllowed s a p.image p.changed = false → Completes .applyQuiesceDone s (fun t =>
      t.cfg.apply = none ∧ t.cfg.image = some a ∧ t.cfg.flash = s.cfg.flash ∧ t.cfg.lastError = 12 ∧ t.sync.tallies = s.sync.tallies)) ∧
    (s.dev.ready = true → s.dev.powered = true → quiesced s p = false → p.since.toNat + p.limit ≤ s.stage.toNat →
      Completes .applyQuiesceTimeout s (fun t => t.cfg.apply = none ∧ t.cfg.image = some a ∧ t.cfg.flash = s.cfg.flash ∧
        t.cfg.lastError = s.cfg.lastError ∧ t.sync.tallies = s.sync.tallies))) ∧
  (∀ (r : Requester) (fw : Firmware) (verified : Bool) (s : State), Taken s r 0xA00010 0x80000000 → s.dev.recovery = true →
    s.sec.rstate = 1 ∨ s.sec.rstate = 5 →
    (firmwareOk s fw verified = false → Completes (.recoveryGo r fw verified) s (fun t => t.sec = { s.sec with rstate := 5 } ∧
      t.dev = s.dev ∧ t.cfg = s.cfg)) ∧
    (firmwareOk s fw verified = true → Completes (.recoveryGo r fw verified) s (fun t => t.dev.recovery = false ∧ t.dev.ready = true ∧
      t.sec.rstate = 0 ∧ t.sec.svn = fw.svn ∧ t.sec.bootDigest = fw.digest ∧ t.sec.running = (upFrom 0 37).map (verAt fw.versions)))) ∧
  (∀ (fw : Firmware) (verified : Bool) (late : List Nat) (s : State), s.dev.powered = true → s.dev.recovery = false → s.dev.ready = true →
    (cfgBusy s = true → Completes (.firmwareUpdate fw verified late) s (fun t => t = { s with out := s.out ++ [.pldm 0x8A []] })) ∧
    (cfgBusy s = false → firmwareOk s fw verified = false → Completes (.firmwareUpdate fw verified late) s (fun t => t.sec = s.sec ∧
      t.cfg = s.cfg ∧ WorkKept s t)) ∧
    (∀ d : Fin 37, cfgBusy s = false → firmwareOk s fw verified = true →
      (∀ k, k < 37 → (verAt s.sec.running k ≠ verAt fw.versions k ↔ k = d.val)) →
      (late.contains d.val = false → Completes (.firmwareUpdate fw verified late) s (fun t => t.sec.updating = [] ∧ t.sec.flashSvn = fw.svn ∧
        t.sec.minSvn = s.sec.minSvn ∧ ∀ k, k < 37 → verAt t.sec.running k = verAt fw.versions k)) ∧
      (late.contains d.val = true → Completes (.firmwareUpdate fw verified late) s (fun t => t.sec.updating = [d.val] ∧
        t.sec.held = some d.val ∧ t.sec.running = s.sec.running ∧ t.sec.flashSvn = fw.svn)))) ∧
  (∀ (d : Fin 37) (s : State), s.dev.powered = true → s.sec.waitPort = none → s.sec.held = some d.val → s.sec.updating = [d.val] →
    Completes (.handoverTimeout d) s (fun t => t.sec = { s.sec with held := none, updating := [] } ∧ WorkKept s t))

/-! ## Attestation and management -/

/-- R450, R453 to R457, R497: what the SPDM responder and the PLDM agent answer: in their turn of negotiation, busy, or with an
error; signed responses wait for the security engine and are read in chunks; sessions open and close.
The model's choices in it: logs 12, 18, 41 and 42. -/
def Obligations.AttestationAnswers : Prop :=
  (∀ (r : Transport) (s : State),
    let at_ := fun (n : Nat) => { s.sec with conn := tabPut 0 s.sec.conn (transportNo r) n }
    (Serves s r 0 → Completes (.getVersion r) s (Responds (at_ 1) 0x04 [0x12] s)) ∧
    (Serves s r 1 → Completes (.getCapabilities r) s (Responds (at_ 2) 0x61 [] s)) ∧
    (Serves s r 2 → Completes (.negotiateAlgorithms r) s (Responds (at_ 3) 0x63 [] s)) ∧
    (s.dev.powered = true → s.dev.ready = false ∨ handing s 0 = true →
      (overMctp r = true → Completes (.getVersion r) s (Errs 3 [] s)) ∧ (overMctp r = false → Completes (.getVersion r) s (fun t => t = s))) ∧
    (Serves s r 0 → ∀ c n, (n, c) ∈ [(1, Instr.getCapabilities r), (2, .negotiateAlgorithms r), (3, .getDigests r), (3, .challenge r 0)] →
      connLevel s r < n → Completes c s (Errs 4 [] s))) ∧
  (∀ (r : Transport) (s : State), Serves s r 3 →
    let digest := Config.chainDigest s.sec.bootDigest
    Completes (.getDigests r) s (Responds s.sec 0x01 (leBytes 1 1 ++ digest) s) ∧
    (∀ off len,
      let part := ((Config.certChain s.sec.bootDigest).drop off).take len
      Completes (.getCertificate r 0 off len) s (fun t =>
        if off < (Config.certChain s.sec.bootDigest).length then Responds s.sec 0x02 (leBytes 2 part.length ++
          leBytes 2 (min 0xFFFF ((Config.certChain s.sec.bootDigest).length - off - part.length)) ++ part) s t
        else Errs 1 [] s t)) ∧
    Completes (.challenge r 0) s (SignatureQueued s.sec 0x03 digest s) ∧
    (∀ slot, slot ≠ 0 → Completes (.challenge r slot) s (Errs 1 [] s) ∧ Completes (.keyExchange r slot) s (Errs 1 [] s)) ∧
    (∀ i : Byte, i.toNat ≤ 42 ∨ i = 0xFF →
      let l := if i = 0 then [] else if i = 0xFF then upFrom 1 42 else [i.toNat]
      let data := leBytes 1 (if i = 0 then 42 else l.length) ++ (l.map (fun k => leBytes 1 k ++ measurementBlock s k)).flatten
      Completes (.getMeasurements r i false) s (Responds s.sec 0x60 data s) ∧
      Completes (.getMeasurements r i true) s (SignatureQueued s.sec 0x60 data s)) ∧
    (s.sec.sessions.length < 4 → Completes (.keyExchange r 0) s (fun t => ∃ id : Word,
      SignatureQueued { s.sec with sessions := s.sec.sessions ++ [⟨id, false⟩] } 0x64 (leBytes 4 id.toNat) s t)) ∧
    (4 ≤ s.sec.sessions.length → Completes (.keyExchange r 0) s (Errs 0x0A [] s)) ∧
    (∀ id : Word, ⟨id, false⟩ ∈ s.sec.sessions → Completes (.finish r id) s (Responds { s.sec with
      sessions := s.sec.sessions.map (fun x => if x.id = id then { x with established := true } else x) } 0x65 [] s)) ∧
    (∀ id : Word, ⟨id, true⟩ ∈ s.sec.sessions → Completes (.heartbeat r id) s (Responds s.sec 0x68 [] s) ∧
      (∀ op : Byte, op = 1 ∨ op = 2 ∨ op = 3 → Completes (.keyUpdate r id op) s (Responds s.sec 0x69 [op] s)) ∧
      Completes (.endSession r id) s (Responds { s.sec with sessions := s.sec.sessions.filter (fun x => x.id ≠ id) } 0x6C [] s)) ∧
    (∀ id : Word, (∀ b, ⟨id, b⟩ ∉ s.sec.sessions) → Completes (.finish r id) s (Errs 2 [] s) ∧ Completes (.heartbeat r id) s (Errs 2 [] s))) ∧
  (∀ (r : Transport) (s : State), Serves s r 3 →
    (∀ (h : Byte) (n : BitVec 16) (last : Bool) (data : List Byte),
      (n = 0 → (∀ x, s.sec.partialReq = some x → x.1 ≠ h) → Completes (.chunkSend r h n last data) s
        (Responds { s.sec with partialReq := if last then none else some (h, 1, data) } 0x05 ([h] ++ leBytes 2 0) s)) ∧
      (∀ l, s.sec.partialReq = some (h, n, l) → Completes (.chunkSend r h n last data) s
        (Responds { s.sec with partialReq := if last then none else some (h, n + 1, l ++ data) } 0x05 ([h] ++ leBytes 2 n.toNat) s))) ∧
    (∀ (h : Byte) (content : List Byte) (draw pos : Nat), s.sec.large = some (h, content, draw, pos) → pos < content.length + 29792 →
      Completes (.chunkGet r h s.sec.chunkNext) s (fun t => ∃ n, 1 ≤ n ∧ pos + n ≤ content.length + 29792 ∧
        Responds { s.sec with chunkNext := s.sec.chunkNext + 1
                              large := if content.length + 29792 ≤ pos + n then none else some (h, content, draw, pos + n) }
          0x06 (leBytes 1 (b2n (decide (content.length + 29792 ≤ pos + n))) ++ [h] ++ leBytes 2 s.sec.chunkNext.toNat ++
            (upFrom pos n).map (largeByte content draw)) s t)) ∧
    (∀ tok : Byte,
      (s.sec.jobs.find? (fun j => decide (j.token = tok)) = none → Completes (.respondIfReady r tok) s (Errs 1 [] s)) ∧
      (∀ j, s.sec.jobs.find? (fun j => decide (j.token = tok)) = some j →
        (j.ready = false → Completes (.respondIfReady r tok) s (Errs 0x42 (leBytes 1 21 ++ [tok]) s)) ∧
        (j.ready = true → Completes (.respondIfReady r tok) s (Responds { s.sec with
          jobs := s.sec.jobs.filter (fun x => x.token ≠ tok), handles := s.sec.handles + 1, chunkNext := 0
          large := some (s.sec.handles + 1, leBytes 1 j.code ++ j.response, s.fresh, 0) } 0x7F ([0x0F] ++ [s.sec.handles + 1]) s))))) ∧
  (∀ (a b : List SignJob) (j : SignJob) (s : State), s.dev.powered = true → s.dev.ready = true → handing s 1 = false →
    s.sec.jobs = a ++ j :: b → (∀ x, x ∈ a → x.ready = true) → j.ready = false → Completes .signatureDone s (fun t =>
      t = { s with sec := { s.sec with jobs := a ++ { j with ready := true } :: b } })) ∧
  (∀ (r : Transport) (changes : Bool) (n : Nat) (s : State), s.dev.powered = true →
    let tells := fun (code : Nat) (data : List Byte) (t : State) => t = { s with out := s.out ++ [.pldm code data] }
    (overMctp r = false → Completes (.pldmPlatformRequest r changes n) s (fun t => t = s)) ∧
    (overMctp r = true → mgmtBusy s = true → Completes (.pldmPlatformRequest r changes n) s (tells 0x03 [])) ∧
    (overMctp r = true → mgmtBusy s = false →
      Completes (.pldmPlatformRequest r true n) s (tells 0x05 []) ∧
      (sensorValue s n = none → Completes (.pldmPlatformRequest r false n) s (tells 0x80 [])) ∧
      (∀ v, sensorValue s n = some v → Completes (.pldmPlatformRequest r false n) s (tells 0 (leBytes 2 v)))))

/-! ## Units -/

/-- R66, R458 to R464, R467 to R470: a quarantined slot goes back to work or is retired, a spare or a retested slot rejoins with
its next generation, a parked engine is swapped, and a self-check parks a cluster or ends the device's service.
The model's choices in it: log 46. -/
def Obligations.UnitsLeaveAndRejoin : Prop :=
  (∀ (e : EngineId) (s : State), s.wf = true → unitsMove s = true → (getEng s e).quarantined = true → (getEng s e).retired = false →
    (recentQuarantines (getEng s e).quarantines < 3 → Completes (.selfTestDone e true) s (fun t =>
      getEng t e = { getEng s e with quarantined := false } ∧ (∀ k, k ≠ e.val → getEng t k = getEng s k) ∧
      t = { s with comp := { s.comp with engines := t.comp.engines } })) ∧
    (slotOf s e < 17 → Completes (.selfTestDone e false) s (SlotRetired e s) ∧
      (3 ≤ recentQuarantines (getEng s e).quarantines → Completes (.selfTestDone e true) s (SlotRetired e s)))) ∧
  (∀ (e : EngineId) (s : State), s.wf = true → unitsMove s = true → Completes (.fenceCloseTimeout e) s (fun t =>
    getEng t e = { getEng s e with fencing := false } ∧ (∀ k, k ≠ e.val → getEng t k = getEng s k) ∧
    t = { s with comp := { s.comp with engines := t.comp.engines } })) ∧
  (∀ (c : ClusterId) (slot : Fin 17) (s : State), s.wf = true → unitsMove s = true → bitOf (getClu s c).retired.toNat slot.val = true →
    tabGet 0 (getClu s c).lives slot.val < 3 → (getClu s c).spare = 31 →
    (rejoinHeld s = false → Completes (.slotRetest c slot true) s (SlotRejoined c slot.val s)) ∧
    (rejoinHeld s = true → Completes (.slotRetest c slot true) s (fun t => slot.val ∈ (getClu t c).passed ∧
      (getClu t c).spare = 31 ∧ t = { s with comp := { s.comp with clusters := t.comp.clusters } })) ∧
    Completes (.slotRetest c slot false) s (fun t => t = s)) ∧
  (∀ (c : ClusterId) (e h : Nat) (s : State), s.wf = true → unitsMove s = true → parkedEngines s c = [e] → hostOf s e = some h →
    ((getEng s h).swapped = some e → drvWork s e = false → Completes (.parkedSwap c) s (fun t =>
      getEng t h = { getEng s h with swapped := none } ∧ ∀ k, k ≠ h → getEng t k = getEng s k)) ∧
    ((getEng s h).swapped = none → (getEng s h).block = none → drvWork s e = true → Completes (.parkedSwap c) s (fun t =>
      getEng t h = { getEng s h with swapped := some e } ∧ ∀ k, k ≠ h → getEng t k = getEng s k))) ∧
  (∀ (c : ClusterId) (s : State), s.wf = true → unitsMove s = true →
    ((getClu s c).unitFailed = false → ∀ u, u = .dispatcher c ∨ u = .transferEngine c → Completes (.selfCheck u) s (fun t =>
      (getClu t c).unitFailed = true ∧ (getClu t c).cstate = 3 ∧ (∀ e, e / 16 = c.val → (getEng t e).block = none) ∧
      (∀ k, k ≠ c.val → getClu t k = getClu s k) ∧ t.sync = s.sync)) ∧
    (∀ u, u = .seraiMemory c ∨ u = .tallyNode c ∨ u = .ioDie → Completes (.selfCheck u) s (ServiceEnds s))) ∧
  (∀ (c : ClusterId) (s : State), s.wf = true → unitsMove s = true →
    (∀ e, orphanOf s c = some e → (getClu s c).spare ≠ 31 →
      let slot := (getClu s c).spare.toNat
      Completes (.unitRejoin (.spare c)) s (fun t => (getEng t e).retired = false ∧ (getEng t e).quarantines = [] ∧
        (getClu t c).spare = 31 ∧ slotOf t e = slot ∧ genOf t c slot = nextGen (genOf s c slot) ∧
        (∀ k, k ≠ c.val → getClu t k = getClu s k) ∧ t.sync = s.sync)) ∧
    (∀ slot : Fin 17, rejoinHeld s = false → slot.val ∈ (getClu s c).passed → (getClu s c).spare = 31 →
      Completes (.unitRejoin (.retested c slot)) s (SlotRejoined c slot.val s)) ∧
    (rejoinHeld s = false → (getClu s c).cstate = 2 → Completes (.unitRejoin (.givenCluster c)) s (fun t =>
      (getClu t c).cstate = 0 ∧ (getClu t c).gen = nextGen (getClu s c).gen ∧ (∀ d, d / 1024 = c.val → getDrv t d = {}) ∧
      (∀ k, k / (0x800 * 1024) = c.val → tabGet 0 t.comp.lstore k = 0) ∧ t.sync = s.sync ∧ t.kv = s.kv))) ∧
  (∀ (b : Fin 9) (s : State), s.wf = true → unitsMove s = true → rejoinHeld s = false → (getBank s b).serving = false →
    (getBank s b).retired = false → banksServing s < 8 → Completes (.unitRejoin (.bank b)) s (fun t =>
      getBank t b = { getBank s b with serving := true, gen := nextGen (getBank s b).gen, fails := [] } ∧
      (∀ k, k ≠ b.val → getBank t k = getBank s k) ∧ t.sync = s.sync)) ∧
  (∀ (p : RolrePort) (l : Fin 8) (s : State), s.wf = true → unitsMove s = true → rejoinHeld s = false →
    (getPort s p).good.getLsbD l.val = true → (getPort s p).inUse.getLsbD l.val = false → mayWiden s p = true →
    Completes (.unitRejoin (.lane p l)) s (fun t => (getPort t p).state = 4 ∧ (getPort t p).gen = nextGen (getPort s p).gen ∧
      (getPort t p).width = BitVec.ofNat 4 (widthFor (lanesOf (getPort s p).good).length) ∧ t.sync = s.sync))

/-! ## Freezes, debugging and registers -/

/-- R366, R367, R474 to R482, R496, R500: a latch copies the counters at its stage; the device freezes at its stage, by the line, or
by the test port; masters are released with the status the rules give; and the dump and the test port shift out what they hold.
The model's choices in it: logs 35, 43, 48 and 56. -/
def Obligations.FreezesAndDebugging : Prop :=
  (∀ (x : Snap) (s : State), s.wf = true → nextSnap s = some x → x.at_.toNat ≤ s.stage.toNat → latchFrom s ≤ s.stage.toNat →
    s.dev.powered = true → devFrozen s = false → Completes .snapshotLatch s (fun t =>
      t.fab.lastLatch = some s.stage ∧ t.fab.snaps = s.fab.snaps.filter (fun y => y.at_ ≠ x.at_) ∧
      (∀ k, k / (65536 * 16) < 12 → tabGet 0 t.fab.shadows k = tabGet 0 s.fab.counters k) ∧
      (∀ p, p < 8 → tabGet 0 t.fab.shadows (ctrKey 12 p 0) = tabGet 0 s.power.partEnergy p) ∧
      t.sync = s.sync ∧ t.comp = s.comp ∧ t.kv = s.kv)) ∧
  (∀ s : State, s.dev.powered = true → devFrozen s = false →
    (s.dev.fstate = 1 → s.dev.fstage.toNat ≤ s.stage.toNat → Completes .deviceFreeze s (DeviceFroze 2 s)) ∧
    (s.dev.ready = true → s.dev.haltIgnored = false → regField s 0xB0000C 29 29 = 1 → Completes .haltAll s (DeviceFroze 1 s)) ∧
    (s.dev.haltIgnored = true → Completes .haltAll s (fun t => t = s)) ∧
    Completes .haltAllNHigh s (fun t => t = { s with dev := { s.dev with haltIgnored := false } }) ∧
    Completes .hyFreeze s (DeviceFroze 4 { s with dev := { s.dev with tapInstr := 4 } })) ∧
  (∀ (r : Requester) (kind : BitVec 4) (idx : Word) (s : State), s.wf = true → Taken s r 0xB00014 idx.toNat →
    let find := s.frozen.find? (fun f => decide (f.kind = kind) && decide (f.index = idx))
    let v := fun (a : Nat) => 2 ^ 31 + a * 2 ^ 26 + kind.toNat * 2 ^ 22
    ∀ c a, (c, a) ∈ [(Instr.releaseResume r kind idx, 1), (.releaseDiscard r kind idx, 2)] → Taken s r 0xB00010 (v a) →
      let kept := fun (n : BitVec 3) (t : State) => t.dev = { s.dev with relStatus := n } ∧ t.frozen = s.frozen ∧ WorkKept s t
      (find = none → Completes c s (kept 1)) ∧
      (∀ f, find = some f → seesPart s r (getPart s f.part.toNat) = false → Completes c s (kept 2)) ∧
      (∀ f, find = some f → seesPart s r (getPart s f.part.toNat) = true → actionLegal kind.toNat a = false → Completes c s (kept 3)) ∧
      (∀ f, find = some f → seesPart s r (getPart s f.part.toNat) = true → actionLegal kind.toNat a = true → Completes c s (fun t =>
        t.dev.relStatus = 0 ∧ t.sync.tallies = s.sync.tallies ∧
        (devFrozen s = true ∨ (kind ≠ 1 ∧ kind ≠ 3 ∧ kind ≠ 5) → isFrozen t kind.toNat idx.toNat = false) ∧
        (devFrozen s = false → kind = 2 → a = 2 → (getGrp t idx.toNat).discarded = true ∧
          ∀ d, grpOf d = idx.toNat → (getDrv s d).st ≠ .idle → (getDrv t d).st = .halted)))) ∧
  (∀ (r : Requester) (s : State),
    (Taken s r 0xB0000C (2 ^ 31 + ((regWord s 0xB0000C).toNat &&& 0x60000000)) →
      (s.dev.fstate = 1 → Completes (.disarm r) s (fun t => t.dev = { s.dev with fstate := 0, fstage := 0, ftag := 0 } ∧ WorkKept s t)) ∧
      (s.dev.fstate ≠ 1 → Completes (.disarm r) s (fun t => t.dev = s.dev ∧ WorkKept s t))) ∧
    (Taken s r 0xB0003C (2 ^ 31 + regField s 0xB0003C 2 0) →
      (devFrozen s = false → Completes (.debugDump r) s (fun t => t.dev = { s.dev with dstate := 4 } ∧ t.out = s.out ∧ t.mem = s.mem)) ∧
      (devFrozen s = true → 64 ≤ 128 * (regWord s 0xB00038).toNat → Completes (.debugDump r) s (fun t => ∃ hdr l,
        DumpHeader s (List.length l) hdr ∧
        t.out = s.out ++ .hostWrite (match r with | .fn f => f.val / 32 | _ => 0)
          (regField s 0xB00030 31 7 * 128 + (regWord s 0xB00034).toNat * 2 ^ 32) hdr :: l ∧
        t.dev = { s.dev with dstate := if l.length < (dumpChains s (regField s 0xB0003C 2 0)).length then 3 else 2 } ∧ WorkKept s t)))) ∧
  (∀ s : State, s.dev.powered = true →
    let loads := fun (n : BitVec 3) => { s.dev with tapInstr := n }
    let shifts := fun (n : BitVec 3) (bits : List Byte) (t : State) => t = { s with dev := loads n, out := s.out ++ [.jtag bits] }
    let boundary := fun (n : BitVec 3) (t : State) => ∃ w : Word,
      t = { s with dev := loads n, out := s.out ++ [.jtag (leBytes 4 w.toNat)], fresh := s.fresh + 1 }
    Completes .idcode s (shifts 0 (leBytes 4 (idWord s))) ∧ Completes .bypass s (shifts 1 [0]) ∧ Completes .samplePreload s (boundary 2) ∧
    (devFrozen s = true → Completes .extest s (boundary 3)) ∧ (devFrozen s = false → Completes .extest s (shifts 1 [0])) ∧
    Completes .trst s (fun t => t = { s with dev := loads 0 }) ∧
    (devFrozen s = false → Completes .hyDump s (shifts 5 [0])) ∧
    (devFrozen s = true → Completes .hyDump s (fun t => ∃ hdr l n, DumpHeader s n hdr ∧ shifts 5 (hdr ++ l) t)) ∧
    (s.wf = true → s.dev.therm = false → s.dev.bootHeld = false → s.dev.recovery = false → s.cfg.waiting = false →
      NoColl s (fun _ => true) → Completes .hyWarm s (WarmReset 4 s)))

/-- R10, R12 to R14, R260, R315, R370, R376, R421, R428, R482, R497, R505: which register writes are refused and with which cause,
what an accepted write stores, what a read clears or latches; an I3C target takes its address.
The model's choices in it: logs 10 and 19. -/
def Obligations.RegisterAccesses : Prop :=
  (∀ (r : Requester) (off : RegOff) (size : Nat) (v : Word) (s : State), s.wf = true → (∀ f, r ≠ .fabric f) →
    let x := regAt s off.toNat
    let c := Instr.registerWrite r off size v
    (onBus s r = false → Completes c s (fun t => t = s)) ∧
    (onBus s r = true → size ≠ 4 ∨ off.toNat % 4 ≠ 0 → Completes c s (AccRefused r 1 off s)) ∧
    (onBus s r = true → size = 4 → off.toNat % 4 = 0 →
      (served s true x = false → Completes c s (fun t => t = s)) ∧
      (served s true x = true → x ≠ .accErr →
        (unbound s r x = true → Completes c s (AccRefused r 3 off s)) ∧
        (unbound s r x = false → sees s r x = false → Completes c s (AccRefused r 2 off s)) ∧
        (sees s r x = true → unbound s r x = false → x = .none → Completes c s (AccRefused r 7 off s))) ∧
      (∀ o, served s true x = true → sees s r x = true → x = .pwr o →
        (let m := regMasks x; m.rw ||| m.rwl ||| m.wo ||| m.w1c = 0 → Completes c s (fun t => t = s)) ∧
        (lockedOut s r x v.toNat = true → Completes c s (AccRefused r 7 off s)) ∧
        ((pwrMasks o).rwl ≠ 0 → lockedOut s r x v.toNat = false → valueCause s r x v.toNat ≠ 0 →
          Completes c s (AccRefused r (valueCause s r x v.toNat) off s)) ∧
        (Taken s r off.toNat v.toNat → Completes c s (fun t => t = { s with host := { s.host with regs := t.host.regs } } ∧
          (∀ o', o' ≠ off.toNat → regWord t o' = regWord s o') ∧
          let m := storeMask s r x v.toNat
          let w := (regWord s off.toNat).toNat
          regWord t off.toNat = BitVec.ofNat 32 (w - (w &&& m) + (v.toNat &&& m))))))) ∧
  (∀ (f : FnId) (v : Word) (s : State), s.wf = true → onBus s (.fn f) = true → served s true .accErr = true →
    v.getLsbD 31 = true → Completes (.registerWrite (.fn f) 8 4 v) s (fun t => tabGet {} t.host.accErr f = {} ∧
      ∀ k, k ≠ f.val → tabGet {} t.host.accErr k = tabGet {} s.host.accErr k)) ∧
  (∀ (r : Requester) (off : RegOff) (s : State), s.wf = true → off.toNat % 4 = 0 → Reads s r off.toNat →
    let x := regAt s off.toNat
    let data := fun (t : State) => t.host.readData = regValue s r off.toNat x ∧ t.sync = s.sync ∧ t.mem = s.mem ∧ t.frozen = s.frozen
    Completes (.rcRead r off 4) s (fun t => data t ∧
      (∀ e, x = .eng e 0x800 → getEng t e = { getEng s e with mismatches := 0 }) ∧ (x = .adder → t.conv.residueFails = 0) ∧
      (∀ p, x = .port p 8 → getPort t p = { getPort s p with corrected := 0 }) ∧
      (∀ p, x = .port p 12 → getPort t p = { getPort s p with replays := 0, uncorrected := 0 }) ∧
      (∀ q, x = .hq q 0x68 → getQ t q = { getQ s q with dups := 0 }) ∧
      (∀ i, x = .evq i 0x1C → (tabGet {} t.host.evqs i : Evq) = { (tabGet {} s.host.evqs i : Evq) with lost := 0 }) ∧
      (∀ p, p < 8 → s.power.locks.length = 8 → x = .pwr (0x40 + 4 * p) → (getLock t p).failed = 0) ∧ (x = .dbg 0x4C → t.dev.stale = 0)) ∧
    (∀ w, pairValue s x = some w → Completes (.hiHalfLatchRead r off 4) s (fun t => t.host.readData = BitVec.ofNat 32 w ∧
      latchedWord t (off.toNat + 4) = BitVec.ofNat 32 (w / 2 ^ 32) ∧
      t = { s with host := { s.host with readData := t.host.readData, latched := t.host.latched } }))) ∧
  (∀ (r : Requester) (s : State), s.wf = true →
    (Reads s r 0x802004 → Completes (.tlyViewLatch r) s (ViewLatched 0x802004 (viewBytes s) s)) ∧
    (Reads s r 0x609004 → Completes (.wayViewLatch r) s (ViewLatched 0x609004 (wayBytes s r) s)) ∧
    (Reads s r 0xB0001C → Completes (.dbgFrozenLatch r) s (ViewLatched 0xB0001C (frozenBytes s r) s)) ∧
    (Reads s r 0x340040 → s.weigh.powered = true → Completes (.wghRecLatch r) s
      (ViewLatched 0x340040 ((weighRecord s).getD (zeros 64)) s)) ∧
    (Reads s r 0x300144 → Completes (.pwrTrimLatch r) s (ViewLatched 0x300144 (trimBytes s) s))) ∧
  (∀ (a : BitVec 7) (s : State),
    (s.weigh.powered = true → Completes (.dynamicAddressAssignment true a) s (fun t => t = { s with dev := { s.dev with i3cWeigh := some a } })) ∧
    (s.dev.powered = true → Completes (.dynamicAddressAssignment false a) s (fun t => t = { s with dev := { s.dev with i3cMgmt := some a } })))
end

