-- ==== Sys2Proof/Laws/State.lean ====
section
/-! SUPPORT. The fields of the state after each update of it: what was written, and that nothing else changed. -/

namespace Sys2Proof.Laws
open Sys2Proof.Machine

variable (s : State)

/-! ## modQ -/

@[simp] theorem modQ_pending (q : Nat) (f : Queue → Queue) : (modQ s q f).pending = s.pending := rfl
@[simp] theorem modQ_stage (q : Nat) (f : Queue → Queue) : (modQ s q f).stage = s.stage := rfl
@[simp] theorem modQ_host (q : Nat) (f : Queue → Queue) : (modQ s q f).host = { s.host with queues := tabMod {} s.host.queues q f } := rfl
@[simp] theorem modQ_comp (q : Nat) (f : Queue → Queue) : (modQ s q f).comp = s.comp := rfl
@[simp] theorem modQ_mem (q : Nat) (f : Queue → Queue) : (modQ s q f).mem = s.mem := rfl
@[simp] theorem modQ_sync (q : Nat) (f : Queue → Queue) : (modQ s q f).sync = s.sync := rfl
@[simp] theorem modQ_kv (q : Nat) (f : Queue → Queue) : (modQ s q f).kv = s.kv := rfl
@[simp] theorem modQ_conv (q : Nat) (f : Queue → Queue) : (modQ s q f).conv = s.conv := rfl
@[simp] theorem modQ_fab (q : Nat) (f : Queue → Queue) : (modQ s q f).fab = s.fab := rfl
@[simp] theorem modQ_power (q : Nat) (f : Queue → Queue) : (modQ s q f).power = s.power := rfl
@[simp] theorem modQ_weigh (q : Nat) (f : Queue → Queue) : (modQ s q f).weigh = s.weigh := rfl
@[simp] theorem modQ_cfg (q : Nat) (f : Queue → Queue) : (modQ s q f).cfg = s.cfg := rfl
@[simp] theorem modQ_sec (q : Nat) (f : Queue → Queue) : (modQ s q f).sec = s.sec := rfl
@[simp] theorem modQ_dev (q : Nat) (f : Queue → Queue) : (modQ s q f).dev = s.dev := rfl
@[simp] theorem modQ_frozen (q : Nat) (f : Queue → Queue) : (modQ s q f).frozen = s.frozen := rfl
@[simp] theorem modQ_out (q : Nat) (f : Queue → Queue) : (modQ s q f).out = s.out := rfl
@[simp] theorem modQ_ident (q : Nat) (f : Queue → Queue) : (modQ s q f).ident = s.ident := rfl
@[simp] theorem modQ_fresh (q : Nat) (f : Queue → Queue) : (modQ s q f).fresh = s.fresh := rfl

/-! ## modEng -/

@[simp] theorem modEng_pending (e : Nat) (f : Engine → Engine) : (modEng s e f).pending = s.pending := rfl
@[simp] theorem modEng_stage (e : Nat) (f : Engine → Engine) : (modEng s e f).stage = s.stage := rfl
@[simp] theorem modEng_host (e : Nat) (f : Engine → Engine) : (modEng s e f).host = s.host := rfl
@[simp] theorem modEng_comp (e : Nat) (f : Engine → Engine) : (modEng s e f).comp = { s.comp with engines := tabMod {} s.comp.engines e f } := rfl
@[simp] theorem modEng_mem (e : Nat) (f : Engine → Engine) : (modEng s e f).mem = s.mem := rfl
@[simp] theorem modEng_sync (e : Nat) (f : Engine → Engine) : (modEng s e f).sync = s.sync := rfl
@[simp] theorem modEng_kv (e : Nat) (f : Engine → Engine) : (modEng s e f).kv = s.kv := rfl
@[simp] theorem modEng_conv (e : Nat) (f : Engine → Engine) : (modEng s e f).conv = s.conv := rfl
@[simp] theorem modEng_fab (e : Nat) (f : Engine → Engine) : (modEng s e f).fab = s.fab := rfl
@[simp] theorem modEng_power (e : Nat) (f : Engine → Engine) : (modEng s e f).power = s.power := rfl
@[simp] theorem modEng_weigh (e : Nat) (f : Engine → Engine) : (modEng s e f).weigh = s.weigh := rfl
@[simp] theorem modEng_cfg (e : Nat) (f : Engine → Engine) : (modEng s e f).cfg = s.cfg := rfl
@[simp] theorem modEng_sec (e : Nat) (f : Engine → Engine) : (modEng s e f).sec = s.sec := rfl
@[simp] theorem modEng_dev (e : Nat) (f : Engine → Engine) : (modEng s e f).dev = s.dev := rfl
@[simp] theorem modEng_frozen (e : Nat) (f : Engine → Engine) : (modEng s e f).frozen = s.frozen := rfl
@[simp] theorem modEng_out (e : Nat) (f : Engine → Engine) : (modEng s e f).out = s.out := rfl
@[simp] theorem modEng_ident (e : Nat) (f : Engine → Engine) : (modEng s e f).ident = s.ident := rfl
@[simp] theorem modEng_fresh (e : Nat) (f : Engine → Engine) : (modEng s e f).fresh = s.fresh := rfl

/-! ## modClu -/

@[simp] theorem modClu_pending (c : Nat) (f : Cluster → Cluster) : (modClu s c f).pending = s.pending := rfl
@[simp] theorem modClu_stage (c : Nat) (f : Cluster → Cluster) : (modClu s c f).stage = s.stage := rfl
@[simp] theorem modClu_host (c : Nat) (f : Cluster → Cluster) : (modClu s c f).host = s.host := rfl
@[simp] theorem modClu_comp (c : Nat) (f : Cluster → Cluster) : (modClu s c f).comp = { s.comp with clusters := tabMod {} s.comp.clusters c f } := rfl
@[simp] theorem modClu_mem (c : Nat) (f : Cluster → Cluster) : (modClu s c f).mem = s.mem := rfl
@[simp] theorem modClu_sync (c : Nat) (f : Cluster → Cluster) : (modClu s c f).sync = s.sync := rfl
@[simp] theorem modClu_kv (c : Nat) (f : Cluster → Cluster) : (modClu s c f).kv = s.kv := rfl
@[simp] theorem modClu_conv (c : Nat) (f : Cluster → Cluster) : (modClu s c f).conv = s.conv := rfl
@[simp] theorem modClu_fab (c : Nat) (f : Cluster → Cluster) : (modClu s c f).fab = s.fab := rfl
@[simp] theorem modClu_power (c : Nat) (f : Cluster → Cluster) : (modClu s c f).power = s.power := rfl
@[simp] theorem modClu_weigh (c : Nat) (f : Cluster → Cluster) : (modClu s c f).weigh = s.weigh := rfl
@[simp] theorem modClu_cfg (c : Nat) (f : Cluster → Cluster) : (modClu s c f).cfg = s.cfg := rfl
@[simp] theorem modClu_sec (c : Nat) (f : Cluster → Cluster) : (modClu s c f).sec = s.sec := rfl
@[simp] theorem modClu_dev (c : Nat) (f : Cluster → Cluster) : (modClu s c f).dev = s.dev := rfl
@[simp] theorem modClu_frozen (c : Nat) (f : Cluster → Cluster) : (modClu s c f).frozen = s.frozen := rfl
@[simp] theorem modClu_out (c : Nat) (f : Cluster → Cluster) : (modClu s c f).out = s.out := rfl
@[simp] theorem modClu_ident (c : Nat) (f : Cluster → Cluster) : (modClu s c f).ident = s.ident := rfl
@[simp] theorem modClu_fresh (c : Nat) (f : Cluster → Cluster) : (modClu s c f).fresh = s.fresh := rfl

/-! ## modRing -/

@[simp] theorem modRing_pending (e n : Nat) (f : Ring → Ring) : (modRing s e n f).pending = s.pending := rfl
@[simp] theorem modRing_stage (e n : Nat) (f : Ring → Ring) : (modRing s e n f).stage = s.stage := rfl
@[simp] theorem modRing_host (e n : Nat) (f : Ring → Ring) : (modRing s e n f).host = s.host := rfl
@[simp] theorem modRing_comp (e n : Nat) (f : Ring → Ring) : (modRing s e n f).comp = { s.comp with rings := tabMod {} s.comp.rings (16 * e + n) f } := rfl
@[simp] theorem modRing_mem (e n : Nat) (f : Ring → Ring) : (modRing s e n f).mem = s.mem := rfl
@[simp] theorem modRing_sync (e n : Nat) (f : Ring → Ring) : (modRing s e n f).sync = s.sync := rfl
@[simp] theorem modRing_kv (e n : Nat) (f : Ring → Ring) : (modRing s e n f).kv = s.kv := rfl
@[simp] theorem modRing_conv (e n : Nat) (f : Ring → Ring) : (modRing s e n f).conv = s.conv := rfl
@[simp] theorem modRing_fab (e n : Nat) (f : Ring → Ring) : (modRing s e n f).fab = s.fab := rfl
@[simp] theorem modRing_power (e n : Nat) (f : Ring → Ring) : (modRing s e n f).power = s.power := rfl
@[simp] theorem modRing_weigh (e n : Nat) (f : Ring → Ring) : (modRing s e n f).weigh = s.weigh := rfl
@[simp] theorem modRing_cfg (e n : Nat) (f : Ring → Ring) : (modRing s e n f).cfg = s.cfg := rfl
@[simp] theorem modRing_sec (e n : Nat) (f : Ring → Ring) : (modRing s e n f).sec = s.sec := rfl
@[simp] theorem modRing_dev (e n : Nat) (f : Ring → Ring) : (modRing s e n f).dev = s.dev := rfl
@[simp] theorem modRing_frozen (e n : Nat) (f : Ring → Ring) : (modRing s e n f).frozen = s.frozen := rfl
@[simp] theorem modRing_out (e n : Nat) (f : Ring → Ring) : (modRing s e n f).out = s.out := rfl
@[simp] theorem modRing_ident (e n : Nat) (f : Ring → Ring) : (modRing s e n f).ident = s.ident := rfl
@[simp] theorem modRing_fresh (e n : Nat) (f : Ring → Ring) : (modRing s e n f).fresh = s.fresh := rfl

/-! ## setChan -/

@[simp] theorem setChan_pending (x : Nat) (c : Option Chan) : (setChan s x c).pending = s.pending := rfl
@[simp] theorem setChan_stage (x : Nat) (c : Option Chan) : (setChan s x c).stage = s.stage := rfl
@[simp] theorem setChan_host (x : Nat) (c : Option Chan) : (setChan s x c).host = s.host := rfl
@[simp] theorem setChan_comp (x : Nat) (c : Option Chan) : (setChan s x c).comp = { s.comp with chans := tabSet s.comp.chans x c } := rfl
@[simp] theorem setChan_mem (x : Nat) (c : Option Chan) : (setChan s x c).mem = s.mem := rfl
@[simp] theorem setChan_sync (x : Nat) (c : Option Chan) : (setChan s x c).sync = s.sync := rfl
@[simp] theorem setChan_kv (x : Nat) (c : Option Chan) : (setChan s x c).kv = s.kv := rfl
@[simp] theorem setChan_conv (x : Nat) (c : Option Chan) : (setChan s x c).conv = s.conv := rfl
@[simp] theorem setChan_fab (x : Nat) (c : Option Chan) : (setChan s x c).fab = s.fab := rfl
@[simp] theorem setChan_power (x : Nat) (c : Option Chan) : (setChan s x c).power = s.power := rfl
@[simp] theorem setChan_weigh (x : Nat) (c : Option Chan) : (setChan s x c).weigh = s.weigh := rfl
@[simp] theorem setChan_cfg (x : Nat) (c : Option Chan) : (setChan s x c).cfg = s.cfg := rfl
@[simp] theorem setChan_sec (x : Nat) (c : Option Chan) : (setChan s x c).sec = s.sec := rfl
@[simp] theorem setChan_dev (x : Nat) (c : Option Chan) : (setChan s x c).dev = s.dev := rfl
@[simp] theorem setChan_frozen (x : Nat) (c : Option Chan) : (setChan s x c).frozen = s.frozen := rfl
@[simp] theorem setChan_out (x : Nat) (c : Option Chan) : (setChan s x c).out = s.out := rfl
@[simp] theorem setChan_ident (x : Nat) (c : Option Chan) : (setChan s x c).ident = s.ident := rfl
@[simp] theorem setChan_fresh (x : Nat) (c : Option Chan) : (setChan s x c).fresh = s.fresh := rfl

/-! ## modDrv -/

@[simp] theorem modDrv_pending (d : Nat) (f : Drover → Drover) : (modDrv s d f).pending = s.pending := rfl
@[simp] theorem modDrv_stage (d : Nat) (f : Drover → Drover) : (modDrv s d f).stage = s.stage := rfl
@[simp] theorem modDrv_host (d : Nat) (f : Drover → Drover) : (modDrv s d f).host = s.host := rfl
@[simp] theorem modDrv_comp (d : Nat) (f : Drover → Drover) : (modDrv s d f).comp = { s.comp with drovers := tabMod {} s.comp.drovers d f } := rfl
@[simp] theorem modDrv_mem (d : Nat) (f : Drover → Drover) : (modDrv s d f).mem = s.mem := rfl
@[simp] theorem modDrv_sync (d : Nat) (f : Drover → Drover) : (modDrv s d f).sync = s.sync := rfl
@[simp] theorem modDrv_kv (d : Nat) (f : Drover → Drover) : (modDrv s d f).kv = s.kv := rfl
@[simp] theorem modDrv_conv (d : Nat) (f : Drover → Drover) : (modDrv s d f).conv = s.conv := rfl
@[simp] theorem modDrv_fab (d : Nat) (f : Drover → Drover) : (modDrv s d f).fab = s.fab := rfl
@[simp] theorem modDrv_power (d : Nat) (f : Drover → Drover) : (modDrv s d f).power = s.power := rfl
@[simp] theorem modDrv_weigh (d : Nat) (f : Drover → Drover) : (modDrv s d f).weigh = s.weigh := rfl
@[simp] theorem modDrv_cfg (d : Nat) (f : Drover → Drover) : (modDrv s d f).cfg = s.cfg := rfl
@[simp] theorem modDrv_sec (d : Nat) (f : Drover → Drover) : (modDrv s d f).sec = s.sec := rfl
@[simp] theorem modDrv_dev (d : Nat) (f : Drover → Drover) : (modDrv s d f).dev = s.dev := rfl
@[simp] theorem modDrv_frozen (d : Nat) (f : Drover → Drover) : (modDrv s d f).frozen = s.frozen := rfl
@[simp] theorem modDrv_out (d : Nat) (f : Drover → Drover) : (modDrv s d f).out = s.out := rfl
@[simp] theorem modDrv_ident (d : Nat) (f : Drover → Drover) : (modDrv s d f).ident = s.ident := rfl
@[simp] theorem modDrv_fresh (d : Nat) (f : Drover → Drover) : (modDrv s d f).fresh = s.fresh := rfl

/-! ## modGrp -/

@[simp] theorem modGrp_pending (g : Nat) (f : Group → Group) : (modGrp s g f).pending = s.pending := rfl
@[simp] theorem modGrp_stage (g : Nat) (f : Group → Group) : (modGrp s g f).stage = s.stage := rfl
@[simp] theorem modGrp_host (g : Nat) (f : Group → Group) : (modGrp s g f).host = s.host := rfl
@[simp] theorem modGrp_comp (g : Nat) (f : Group → Group) : (modGrp s g f).comp = { s.comp with groups := tabMod {} s.comp.groups g f } := rfl
@[simp] theorem modGrp_mem (g : Nat) (f : Group → Group) : (modGrp s g f).mem = s.mem := rfl
@[simp] theorem modGrp_sync (g : Nat) (f : Group → Group) : (modGrp s g f).sync = s.sync := rfl
@[simp] theorem modGrp_kv (g : Nat) (f : Group → Group) : (modGrp s g f).kv = s.kv := rfl
@[simp] theorem modGrp_conv (g : Nat) (f : Group → Group) : (modGrp s g f).conv = s.conv := rfl
@[simp] theorem modGrp_fab (g : Nat) (f : Group → Group) : (modGrp s g f).fab = s.fab := rfl
@[simp] theorem modGrp_power (g : Nat) (f : Group → Group) : (modGrp s g f).power = s.power := rfl
@[simp] theorem modGrp_weigh (g : Nat) (f : Group → Group) : (modGrp s g f).weigh = s.weigh := rfl
@[simp] theorem modGrp_cfg (g : Nat) (f : Group → Group) : (modGrp s g f).cfg = s.cfg := rfl
@[simp] theorem modGrp_sec (g : Nat) (f : Group → Group) : (modGrp s g f).sec = s.sec := rfl
@[simp] theorem modGrp_dev (g : Nat) (f : Group → Group) : (modGrp s g f).dev = s.dev := rfl
@[simp] theorem modGrp_frozen (g : Nat) (f : Group → Group) : (modGrp s g f).frozen = s.frozen := rfl
@[simp] theorem modGrp_out (g : Nat) (f : Group → Group) : (modGrp s g f).out = s.out := rfl
@[simp] theorem modGrp_ident (g : Nat) (f : Group → Group) : (modGrp s g f).ident = s.ident := rfl
@[simp] theorem modGrp_fresh (g : Nat) (f : Group → Group) : (modGrp s g f).fresh = s.fresh := rfl

/-! ## modStream -/

@[simp] theorem modStream_pending (st : Nat) (f : Stream → Stream) : (modStream s st f).pending = s.pending := rfl
@[simp] theorem modStream_stage (st : Nat) (f : Stream → Stream) : (modStream s st f).stage = s.stage := rfl
@[simp] theorem modStream_host (st : Nat) (f : Stream → Stream) : (modStream s st f).host = s.host := rfl
@[simp] theorem modStream_comp (st : Nat) (f : Stream → Stream) : (modStream s st f).comp = s.comp := rfl
@[simp] theorem modStream_mem (st : Nat) (f : Stream → Stream) : (modStream s st f).mem = s.mem := rfl
@[simp] theorem modStream_sync (st : Nat) (f : Stream → Stream) : (modStream s st f).sync = s.sync := rfl
@[simp] theorem modStream_kv (st : Nat) (f : Stream → Stream) : (modStream s st f).kv = { s.kv with streams := tabMod {} s.kv.streams st f } := rfl
@[simp] theorem modStream_conv (st : Nat) (f : Stream → Stream) : (modStream s st f).conv = s.conv := rfl
@[simp] theorem modStream_fab (st : Nat) (f : Stream → Stream) : (modStream s st f).fab = s.fab := rfl
@[simp] theorem modStream_power (st : Nat) (f : Stream → Stream) : (modStream s st f).power = s.power := rfl
@[simp] theorem modStream_weigh (st : Nat) (f : Stream → Stream) : (modStream s st f).weigh = s.weigh := rfl
@[simp] theorem modStream_cfg (st : Nat) (f : Stream → Stream) : (modStream s st f).cfg = s.cfg := rfl
@[simp] theorem modStream_sec (st : Nat) (f : Stream → Stream) : (modStream s st f).sec = s.sec := rfl
@[simp] theorem modStream_dev (st : Nat) (f : Stream → Stream) : (modStream s st f).dev = s.dev := rfl
@[simp] theorem modStream_frozen (st : Nat) (f : Stream → Stream) : (modStream s st f).frozen = s.frozen := rfl
@[simp] theorem modStream_out (st : Nat) (f : Stream → Stream) : (modStream s st f).out = s.out := rfl
@[simp] theorem modStream_ident (st : Nat) (f : Stream → Stream) : (modStream s st f).ident = s.ident := rfl
@[simp] theorem modStream_fresh (st : Nat) (f : Stream → Stream) : (modStream s st f).fresh = s.fresh := rfl

/-! ## modConv -/

@[simp] theorem modConv_pending (c : Nat) (f : Convoy → Convoy) : (modConv s c f).pending = s.pending := rfl
@[simp] theorem modConv_stage (c : Nat) (f : Convoy → Convoy) : (modConv s c f).stage = s.stage := rfl
@[simp] theorem modConv_host (c : Nat) (f : Convoy → Convoy) : (modConv s c f).host = s.host := rfl
@[simp] theorem modConv_comp (c : Nat) (f : Convoy → Convoy) : (modConv s c f).comp = s.comp := rfl
@[simp] theorem modConv_mem (c : Nat) (f : Convoy → Convoy) : (modConv s c f).mem = s.mem := rfl
@[simp] theorem modConv_sync (c : Nat) (f : Convoy → Convoy) : (modConv s c f).sync = s.sync := rfl
@[simp] theorem modConv_kv (c : Nat) (f : Convoy → Convoy) : (modConv s c f).kv = s.kv := rfl
@[simp] theorem modConv_conv (c : Nat) (f : Convoy → Convoy) : (modConv s c f).conv = { s.conv with chans := tabMod {} s.conv.chans c f } := rfl
@[simp] theorem modConv_fab (c : Nat) (f : Convoy → Convoy) : (modConv s c f).fab = s.fab := rfl
@[simp] theorem modConv_power (c : Nat) (f : Convoy → Convoy) : (modConv s c f).power = s.power := rfl
@[simp] theorem modConv_weigh (c : Nat) (f : Convoy → Convoy) : (modConv s c f).weigh = s.weigh := rfl
@[simp] theorem modConv_cfg (c : Nat) (f : Convoy → Convoy) : (modConv s c f).cfg = s.cfg := rfl
@[simp] theorem modConv_sec (c : Nat) (f : Convoy → Convoy) : (modConv s c f).sec = s.sec := rfl
@[simp] theorem modConv_dev (c : Nat) (f : Convoy → Convoy) : (modConv s c f).dev = s.dev := rfl
@[simp] theorem modConv_frozen (c : Nat) (f : Convoy → Convoy) : (modConv s c f).frozen = s.frozen := rfl
@[simp] theorem modConv_out (c : Nat) (f : Convoy → Convoy) : (modConv s c f).out = s.out := rfl
@[simp] theorem modConv_ident (c : Nat) (f : Convoy → Convoy) : (modConv s c f).ident = s.ident := rfl
@[simp] theorem modConv_fresh (c : Nat) (f : Convoy → Convoy) : (modConv s c f).fresh = s.fresh := rfl

/-! ## setBank -/

@[simp] theorem setBank_pending (b : Nat) (x : Bank) : (setBank s b x).pending = s.pending := rfl
@[simp] theorem setBank_stage (b : Nat) (x : Bank) : (setBank s b x).stage = s.stage := rfl
@[simp] theorem setBank_host (b : Nat) (x : Bank) : (setBank s b x).host = s.host := rfl
@[simp] theorem setBank_comp (b : Nat) (x : Bank) : (setBank s b x).comp = s.comp := rfl
@[simp] theorem setBank_mem (b : Nat) (x : Bank) : (setBank s b x).mem = s.mem := rfl
@[simp] theorem setBank_sync (b : Nat) (x : Bank) : (setBank s b x).sync = s.sync := rfl
@[simp] theorem setBank_kv (b : Nat) (x : Bank) : (setBank s b x).kv = s.kv := rfl
@[simp] theorem setBank_conv (b : Nat) (x : Bank) : (setBank s b x).conv = { s.conv with banks := tabSet s.conv.banks b (some x) } := rfl
@[simp] theorem setBank_fab (b : Nat) (x : Bank) : (setBank s b x).fab = s.fab := rfl
@[simp] theorem setBank_power (b : Nat) (x : Bank) : (setBank s b x).power = s.power := rfl
@[simp] theorem setBank_weigh (b : Nat) (x : Bank) : (setBank s b x).weigh = s.weigh := rfl
@[simp] theorem setBank_cfg (b : Nat) (x : Bank) : (setBank s b x).cfg = s.cfg := rfl
@[simp] theorem setBank_sec (b : Nat) (x : Bank) : (setBank s b x).sec = s.sec := rfl
@[simp] theorem setBank_dev (b : Nat) (x : Bank) : (setBank s b x).dev = s.dev := rfl
@[simp] theorem setBank_frozen (b : Nat) (x : Bank) : (setBank s b x).frozen = s.frozen := rfl
@[simp] theorem setBank_out (b : Nat) (x : Bank) : (setBank s b x).out = s.out := rfl
@[simp] theorem setBank_ident (b : Nat) (x : Bank) : (setBank s b x).ident = s.ident := rfl
@[simp] theorem setBank_fresh (b : Nat) (x : Bank) : (setBank s b x).fresh = s.fresh := rfl

/-! ## setGroup -/

@[simp] theorem setGroup_pending (g : Nat) (x : Option GroupEntry) : (setGroup s g x).pending = s.pending := rfl
@[simp] theorem setGroup_stage (g : Nat) (x : Option GroupEntry) : (setGroup s g x).stage = s.stage := rfl
@[simp] theorem setGroup_host (g : Nat) (x : Option GroupEntry) : (setGroup s g x).host = s.host := rfl
@[simp] theorem setGroup_comp (g : Nat) (x : Option GroupEntry) : (setGroup s g x).comp = s.comp := rfl
@[simp] theorem setGroup_mem (g : Nat) (x : Option GroupEntry) : (setGroup s g x).mem = s.mem := rfl
@[simp] theorem setGroup_sync (g : Nat) (x : Option GroupEntry) : (setGroup s g x).sync = s.sync := rfl
@[simp] theorem setGroup_kv (g : Nat) (x : Option GroupEntry) : (setGroup s g x).kv = s.kv := rfl
@[simp] theorem setGroup_conv (g : Nat) (x : Option GroupEntry) : (setGroup s g x).conv = { s.conv with groups := tabSet s.conv.groups g x } := rfl
@[simp] theorem setGroup_fab (g : Nat) (x : Option GroupEntry) : (setGroup s g x).fab = s.fab := rfl
@[simp] theorem setGroup_power (g : Nat) (x : Option GroupEntry) : (setGroup s g x).power = s.power := rfl
@[simp] theorem setGroup_weigh (g : Nat) (x : Option GroupEntry) : (setGroup s g x).weigh = s.weigh := rfl
@[simp] theorem setGroup_cfg (g : Nat) (x : Option GroupEntry) : (setGroup s g x).cfg = s.cfg := rfl
@[simp] theorem setGroup_sec (g : Nat) (x : Option GroupEntry) : (setGroup s g x).sec = s.sec := rfl
@[simp] theorem setGroup_dev (g : Nat) (x : Option GroupEntry) : (setGroup s g x).dev = s.dev := rfl
@[simp] theorem setGroup_frozen (g : Nat) (x : Option GroupEntry) : (setGroup s g x).frozen = s.frozen := rfl
@[simp] theorem setGroup_out (g : Nat) (x : Option GroupEntry) : (setGroup s g x).out = s.out := rfl
@[simp] theorem setGroup_ident (g : Nat) (x : Option GroupEntry) : (setGroup s g x).ident = s.ident := rfl
@[simp] theorem setGroup_fresh (g : Nat) (x : Option GroupEntry) : (setGroup s g x).fresh = s.fresh := rfl

/-! ## modPort -/

@[simp] theorem modPort_pending (p : Nat) (f : Port → Port) : (modPort s p f).pending = s.pending := rfl
@[simp] theorem modPort_stage (p : Nat) (f : Port → Port) : (modPort s p f).stage = s.stage := rfl
@[simp] theorem modPort_host (p : Nat) (f : Port → Port) : (modPort s p f).host = s.host := rfl
@[simp] theorem modPort_comp (p : Nat) (f : Port → Port) : (modPort s p f).comp = s.comp := rfl
@[simp] theorem modPort_mem (p : Nat) (f : Port → Port) : (modPort s p f).mem = s.mem := rfl
@[simp] theorem modPort_sync (p : Nat) (f : Port → Port) : (modPort s p f).sync = s.sync := rfl
@[simp] theorem modPort_kv (p : Nat) (f : Port → Port) : (modPort s p f).kv = s.kv := rfl
@[simp] theorem modPort_conv (p : Nat) (f : Port → Port) : (modPort s p f).conv = s.conv := rfl
@[simp] theorem modPort_fab (p : Nat) (f : Port → Port) : (modPort s p f).fab = { s.fab with ports := tabMod {} s.fab.ports p f } := rfl
@[simp] theorem modPort_power (p : Nat) (f : Port → Port) : (modPort s p f).power = s.power := rfl
@[simp] theorem modPort_weigh (p : Nat) (f : Port → Port) : (modPort s p f).weigh = s.weigh := rfl
@[simp] theorem modPort_cfg (p : Nat) (f : Port → Port) : (modPort s p f).cfg = s.cfg := rfl
@[simp] theorem modPort_sec (p : Nat) (f : Port → Port) : (modPort s p f).sec = s.sec := rfl
@[simp] theorem modPort_dev (p : Nat) (f : Port → Port) : (modPort s p f).dev = s.dev := rfl
@[simp] theorem modPort_frozen (p : Nat) (f : Port → Port) : (modPort s p f).frozen = s.frozen := rfl
@[simp] theorem modPort_out (p : Nat) (f : Port → Port) : (modPort s p f).out = s.out := rfl
@[simp] theorem modPort_ident (p : Nat) (f : Port → Port) : (modPort s p f).ident = s.ident := rfl
@[simp] theorem modPort_fresh (p : Nat) (f : Port → Port) : (modPort s p f).fresh = s.fresh := rfl

/-! ## modStack -/

@[simp] theorem modStack_pending (k : Nat) (f : Stack → Stack) : (modStack s k f).pending = s.pending := rfl
@[simp] theorem modStack_stage (k : Nat) (f : Stack → Stack) : (modStack s k f).stage = s.stage := rfl
@[simp] theorem modStack_host (k : Nat) (f : Stack → Stack) : (modStack s k f).host = s.host := rfl
@[simp] theorem modStack_comp (k : Nat) (f : Stack → Stack) : (modStack s k f).comp = s.comp := rfl
@[simp] theorem modStack_mem (k : Nat) (f : Stack → Stack) : (modStack s k f).mem = { s.mem with stackTab := tabMod {} s.mem.stackTab k f } := rfl
@[simp] theorem modStack_sync (k : Nat) (f : Stack → Stack) : (modStack s k f).sync = s.sync := rfl
@[simp] theorem modStack_kv (k : Nat) (f : Stack → Stack) : (modStack s k f).kv = s.kv := rfl
@[simp] theorem modStack_conv (k : Nat) (f : Stack → Stack) : (modStack s k f).conv = s.conv := rfl
@[simp] theorem modStack_fab (k : Nat) (f : Stack → Stack) : (modStack s k f).fab = s.fab := rfl
@[simp] theorem modStack_power (k : Nat) (f : Stack → Stack) : (modStack s k f).power = s.power := rfl
@[simp] theorem modStack_weigh (k : Nat) (f : Stack → Stack) : (modStack s k f).weigh = s.weigh := rfl
@[simp] theorem modStack_cfg (k : Nat) (f : Stack → Stack) : (modStack s k f).cfg = s.cfg := rfl
@[simp] theorem modStack_sec (k : Nat) (f : Stack → Stack) : (modStack s k f).sec = s.sec := rfl
@[simp] theorem modStack_dev (k : Nat) (f : Stack → Stack) : (modStack s k f).dev = s.dev := rfl
@[simp] theorem modStack_frozen (k : Nat) (f : Stack → Stack) : (modStack s k f).frozen = s.frozen := rfl
@[simp] theorem modStack_out (k : Nat) (f : Stack → Stack) : (modStack s k f).out = s.out := rfl
@[simp] theorem modStack_ident (k : Nat) (f : Stack → Stack) : (modStack s k f).ident = s.ident := rfl
@[simp] theorem modStack_fresh (k : Nat) (f : Stack → Stack) : (modStack s k f).fresh = s.fresh := rfl

/-! ## modEpoch -/

@[simp] theorem modEpoch_pending (f : Epoch → Epoch) : (modEpoch s f).pending = s.pending := rfl
@[simp] theorem modEpoch_stage (f : Epoch → Epoch) : (modEpoch s f).stage = s.stage := rfl
@[simp] theorem modEpoch_host (f : Epoch → Epoch) : (modEpoch s f).host = s.host := rfl
@[simp] theorem modEpoch_comp (f : Epoch → Epoch) : (modEpoch s f).comp = s.comp := rfl
@[simp] theorem modEpoch_mem (f : Epoch → Epoch) : (modEpoch s f).mem = s.mem := rfl
@[simp] theorem modEpoch_sync (f : Epoch → Epoch) : (modEpoch s f).sync = s.sync := rfl
@[simp] theorem modEpoch_kv (f : Epoch → Epoch) : (modEpoch s f).kv = s.kv := rfl
@[simp] theorem modEpoch_conv (f : Epoch → Epoch) : (modEpoch s f).conv = s.conv := rfl
@[simp] theorem modEpoch_fab (f : Epoch → Epoch) : (modEpoch s f).fab = { s.fab with epoch := f s.fab.epoch } := rfl
@[simp] theorem modEpoch_power (f : Epoch → Epoch) : (modEpoch s f).power = s.power := rfl
@[simp] theorem modEpoch_weigh (f : Epoch → Epoch) : (modEpoch s f).weigh = s.weigh := rfl
@[simp] theorem modEpoch_cfg (f : Epoch → Epoch) : (modEpoch s f).cfg = s.cfg := rfl
@[simp] theorem modEpoch_sec (f : Epoch → Epoch) : (modEpoch s f).sec = s.sec := rfl
@[simp] theorem modEpoch_dev (f : Epoch → Epoch) : (modEpoch s f).dev = s.dev := rfl
@[simp] theorem modEpoch_frozen (f : Epoch → Epoch) : (modEpoch s f).frozen = s.frozen := rfl
@[simp] theorem modEpoch_out (f : Epoch → Epoch) : (modEpoch s f).out = s.out := rfl
@[simp] theorem modEpoch_ident (f : Epoch → Epoch) : (modEpoch s f).ident = s.ident := rfl
@[simp] theorem modEpoch_fresh (f : Epoch → Epoch) : (modEpoch s f).fresh = s.fresh := rfl

/-! ## modPower -/

@[simp] theorem modPower_pending (f : Power → Power) : (modPower s f).pending = s.pending := rfl
@[simp] theorem modPower_stage (f : Power → Power) : (modPower s f).stage = s.stage := rfl
@[simp] theorem modPower_host (f : Power → Power) : (modPower s f).host = s.host := rfl
@[simp] theorem modPower_comp (f : Power → Power) : (modPower s f).comp = s.comp := rfl
@[simp] theorem modPower_mem (f : Power → Power) : (modPower s f).mem = s.mem := rfl
@[simp] theorem modPower_sync (f : Power → Power) : (modPower s f).sync = s.sync := rfl
@[simp] theorem modPower_kv (f : Power → Power) : (modPower s f).kv = s.kv := rfl
@[simp] theorem modPower_conv (f : Power → Power) : (modPower s f).conv = s.conv := rfl
@[simp] theorem modPower_fab (f : Power → Power) : (modPower s f).fab = s.fab := rfl
@[simp] theorem modPower_power (f : Power → Power) : (modPower s f).power = f s.power := rfl
@[simp] theorem modPower_weigh (f : Power → Power) : (modPower s f).weigh = s.weigh := rfl
@[simp] theorem modPower_cfg (f : Power → Power) : (modPower s f).cfg = s.cfg := rfl
@[simp] theorem modPower_sec (f : Power → Power) : (modPower s f).sec = s.sec := rfl
@[simp] theorem modPower_dev (f : Power → Power) : (modPower s f).dev = s.dev := rfl
@[simp] theorem modPower_frozen (f : Power → Power) : (modPower s f).frozen = s.frozen := rfl
@[simp] theorem modPower_out (f : Power → Power) : (modPower s f).out = s.out := rfl
@[simp] theorem modPower_ident (f : Power → Power) : (modPower s f).ident = s.ident := rfl
@[simp] theorem modPower_fresh (f : Power → Power) : (modPower s f).fresh = s.fresh := rfl

/-! ## modWeigh -/

@[simp] theorem modWeigh_pending (f : Weigh → Weigh) : (modWeigh s f).pending = s.pending := rfl
@[simp] theorem modWeigh_stage (f : Weigh → Weigh) : (modWeigh s f).stage = s.stage := rfl
@[simp] theorem modWeigh_host (f : Weigh → Weigh) : (modWeigh s f).host = s.host := rfl
@[simp] theorem modWeigh_comp (f : Weigh → Weigh) : (modWeigh s f).comp = s.comp := rfl
@[simp] theorem modWeigh_mem (f : Weigh → Weigh) : (modWeigh s f).mem = s.mem := rfl
@[simp] theorem modWeigh_sync (f : Weigh → Weigh) : (modWeigh s f).sync = s.sync := rfl
@[simp] theorem modWeigh_kv (f : Weigh → Weigh) : (modWeigh s f).kv = s.kv := rfl
@[simp] theorem modWeigh_conv (f : Weigh → Weigh) : (modWeigh s f).conv = s.conv := rfl
@[simp] theorem modWeigh_fab (f : Weigh → Weigh) : (modWeigh s f).fab = s.fab := rfl
@[simp] theorem modWeigh_power (f : Weigh → Weigh) : (modWeigh s f).power = s.power := rfl
@[simp] theorem modWeigh_weigh (f : Weigh → Weigh) : (modWeigh s f).weigh = f s.weigh := rfl
@[simp] theorem modWeigh_cfg (f : Weigh → Weigh) : (modWeigh s f).cfg = s.cfg := rfl
@[simp] theorem modWeigh_sec (f : Weigh → Weigh) : (modWeigh s f).sec = s.sec := rfl
@[simp] theorem modWeigh_dev (f : Weigh → Weigh) : (modWeigh s f).dev = s.dev := rfl
@[simp] theorem modWeigh_frozen (f : Weigh → Weigh) : (modWeigh s f).frozen = s.frozen := rfl
@[simp] theorem modWeigh_out (f : Weigh → Weigh) : (modWeigh s f).out = s.out := rfl
@[simp] theorem modWeigh_ident (f : Weigh → Weigh) : (modWeigh s f).ident = s.ident := rfl
@[simp] theorem modWeigh_fresh (f : Weigh → Weigh) : (modWeigh s f).fresh = s.fresh := rfl

/-! ## modCfg -/

@[simp] theorem modCfg_pending (f : Cfg → Cfg) : (modCfg s f).pending = s.pending := rfl
@[simp] theorem modCfg_stage (f : Cfg → Cfg) : (modCfg s f).stage = s.stage := rfl
@[simp] theorem modCfg_host (f : Cfg → Cfg) : (modCfg s f).host = s.host := rfl
@[simp] theorem modCfg_comp (f : Cfg → Cfg) : (modCfg s f).comp = s.comp := rfl
@[simp] theorem modCfg_mem (f : Cfg → Cfg) : (modCfg s f).mem = s.mem := rfl
@[simp] theorem modCfg_sync (f : Cfg → Cfg) : (modCfg s f).sync = s.sync := rfl
@[simp] theorem modCfg_kv (f : Cfg → Cfg) : (modCfg s f).kv = s.kv := rfl
@[simp] theorem modCfg_conv (f : Cfg → Cfg) : (modCfg s f).conv = s.conv := rfl
@[simp] theorem modCfg_fab (f : Cfg → Cfg) : (modCfg s f).fab = s.fab := rfl
@[simp] theorem modCfg_power (f : Cfg → Cfg) : (modCfg s f).power = s.power := rfl
@[simp] theorem modCfg_weigh (f : Cfg → Cfg) : (modCfg s f).weigh = s.weigh := rfl
@[simp] theorem modCfg_cfg (f : Cfg → Cfg) : (modCfg s f).cfg = f s.cfg := rfl
@[simp] theorem modCfg_sec (f : Cfg → Cfg) : (modCfg s f).sec = s.sec := rfl
@[simp] theorem modCfg_dev (f : Cfg → Cfg) : (modCfg s f).dev = s.dev := rfl
@[simp] theorem modCfg_frozen (f : Cfg → Cfg) : (modCfg s f).frozen = s.frozen := rfl
@[simp] theorem modCfg_out (f : Cfg → Cfg) : (modCfg s f).out = s.out := rfl
@[simp] theorem modCfg_ident (f : Cfg → Cfg) : (modCfg s f).ident = s.ident := rfl
@[simp] theorem modCfg_fresh (f : Cfg → Cfg) : (modCfg s f).fresh = s.fresh := rfl

/-! ## modSec -/

@[simp] theorem modSec_pending (f : Sec → Sec) : (modSec s f).pending = s.pending := rfl
@[simp] theorem modSec_stage (f : Sec → Sec) : (modSec s f).stage = s.stage := rfl
@[simp] theorem modSec_host (f : Sec → Sec) : (modSec s f).host = s.host := rfl
@[simp] theorem modSec_comp (f : Sec → Sec) : (modSec s f).comp = s.comp := rfl
@[simp] theorem modSec_mem (f : Sec → Sec) : (modSec s f).mem = s.mem := rfl
@[simp] theorem modSec_sync (f : Sec → Sec) : (modSec s f).sync = s.sync := rfl
@[simp] theorem modSec_kv (f : Sec → Sec) : (modSec s f).kv = s.kv := rfl
@[simp] theorem modSec_conv (f : Sec → Sec) : (modSec s f).conv = s.conv := rfl
@[simp] theorem modSec_fab (f : Sec → Sec) : (modSec s f).fab = s.fab := rfl
@[simp] theorem modSec_power (f : Sec → Sec) : (modSec s f).power = s.power := rfl
@[simp] theorem modSec_weigh (f : Sec → Sec) : (modSec s f).weigh = s.weigh := rfl
@[simp] theorem modSec_cfg (f : Sec → Sec) : (modSec s f).cfg = s.cfg := rfl
@[simp] theorem modSec_sec (f : Sec → Sec) : (modSec s f).sec = f s.sec := rfl
@[simp] theorem modSec_dev (f : Sec → Sec) : (modSec s f).dev = s.dev := rfl
@[simp] theorem modSec_frozen (f : Sec → Sec) : (modSec s f).frozen = s.frozen := rfl
@[simp] theorem modSec_out (f : Sec → Sec) : (modSec s f).out = s.out := rfl
@[simp] theorem modSec_ident (f : Sec → Sec) : (modSec s f).ident = s.ident := rfl
@[simp] theorem modSec_fresh (f : Sec → Sec) : (modSec s f).fresh = s.fresh := rfl

/-! ## modDev -/

@[simp] theorem modDev_pending (f : Device → Device) : (modDev s f).pending = s.pending := rfl
@[simp] theorem modDev_stage (f : Device → Device) : (modDev s f).stage = s.stage := rfl
@[simp] theorem modDev_host (f : Device → Device) : (modDev s f).host = s.host := rfl
@[simp] theorem modDev_comp (f : Device → Device) : (modDev s f).comp = s.comp := rfl
@[simp] theorem modDev_mem (f : Device → Device) : (modDev s f).mem = s.mem := rfl
@[simp] theorem modDev_sync (f : Device → Device) : (modDev s f).sync = s.sync := rfl
@[simp] theorem modDev_kv (f : Device → Device) : (modDev s f).kv = s.kv := rfl
@[simp] theorem modDev_conv (f : Device → Device) : (modDev s f).conv = s.conv := rfl
@[simp] theorem modDev_fab (f : Device → Device) : (modDev s f).fab = s.fab := rfl
@[simp] theorem modDev_power (f : Device → Device) : (modDev s f).power = s.power := rfl
@[simp] theorem modDev_weigh (f : Device → Device) : (modDev s f).weigh = s.weigh := rfl
@[simp] theorem modDev_cfg (f : Device → Device) : (modDev s f).cfg = s.cfg := rfl
@[simp] theorem modDev_sec (f : Device → Device) : (modDev s f).sec = s.sec := rfl
@[simp] theorem modDev_dev (f : Device → Device) : (modDev s f).dev = f s.dev := rfl
@[simp] theorem modDev_frozen (f : Device → Device) : (modDev s f).frozen = s.frozen := rfl
@[simp] theorem modDev_out (f : Device → Device) : (modDev s f).out = s.out := rfl
@[simp] theorem modDev_ident (f : Device → Device) : (modDev s f).ident = s.ident := rfl
@[simp] theorem modDev_fresh (f : Device → Device) : (modDev s f).fresh = s.fresh := rfl

/-! ## emit -/

@[simp] theorem emit_pending (o : Out) : (emit s o).pending = s.pending := rfl
@[simp] theorem emit_stage (o : Out) : (emit s o).stage = s.stage := rfl
@[simp] theorem emit_host (o : Out) : (emit s o).host = s.host := rfl
@[simp] theorem emit_comp (o : Out) : (emit s o).comp = s.comp := rfl
@[simp] theorem emit_mem (o : Out) : (emit s o).mem = s.mem := rfl
@[simp] theorem emit_sync (o : Out) : (emit s o).sync = s.sync := rfl
@[simp] theorem emit_kv (o : Out) : (emit s o).kv = s.kv := rfl
@[simp] theorem emit_conv (o : Out) : (emit s o).conv = s.conv := rfl
@[simp] theorem emit_fab (o : Out) : (emit s o).fab = s.fab := rfl
@[simp] theorem emit_power (o : Out) : (emit s o).power = s.power := rfl
@[simp] theorem emit_weigh (o : Out) : (emit s o).weigh = s.weigh := rfl
@[simp] theorem emit_cfg (o : Out) : (emit s o).cfg = s.cfg := rfl
@[simp] theorem emit_sec (o : Out) : (emit s o).sec = s.sec := rfl
@[simp] theorem emit_dev (o : Out) : (emit s o).dev = s.dev := rfl
@[simp] theorem emit_frozen (o : Out) : (emit s o).frozen = s.frozen := rfl
@[simp] theorem emit_out (o : Out) : (emit s o).out = s.out ++ [o] := rfl
@[simp] theorem emit_ident (o : Out) : (emit s o).ident = s.ident := rfl
@[simp] theorem emit_fresh (o : Out) : (emit s o).fresh = s.fresh := rfl

/-! ## drawn -/

@[simp] theorem drawn_pending : (drawn s).pending = s.pending := rfl
@[simp] theorem drawn_stage : (drawn s).stage = s.stage := rfl
@[simp] theorem drawn_host : (drawn s).host = s.host := rfl
@[simp] theorem drawn_comp : (drawn s).comp = s.comp := rfl
@[simp] theorem drawn_mem : (drawn s).mem = s.mem := rfl
@[simp] theorem drawn_sync : (drawn s).sync = s.sync := rfl
@[simp] theorem drawn_kv : (drawn s).kv = s.kv := rfl
@[simp] theorem drawn_conv : (drawn s).conv = s.conv := rfl
@[simp] theorem drawn_fab : (drawn s).fab = s.fab := rfl
@[simp] theorem drawn_power : (drawn s).power = s.power := rfl
@[simp] theorem drawn_weigh : (drawn s).weigh = s.weigh := rfl
@[simp] theorem drawn_cfg : (drawn s).cfg = s.cfg := rfl
@[simp] theorem drawn_sec : (drawn s).sec = s.sec := rfl
@[simp] theorem drawn_dev : (drawn s).dev = s.dev := rfl
@[simp] theorem drawn_frozen : (drawn s).frozen = s.frozen := rfl
@[simp] theorem drawn_out : (drawn s).out = s.out := rfl
@[simp] theorem drawn_ident : (drawn s).ident = s.ident := rfl
@[simp] theorem drawn_fresh : (drawn s).fresh = s.fresh + 1 := rfl

/-! ## addCtr -/

@[simp] theorem addCtr_pending (g i c n : Nat) : (addCtr s g i c n).pending = s.pending := rfl
@[simp] theorem addCtr_stage (g i c n : Nat) : (addCtr s g i c n).stage = s.stage := rfl
@[simp] theorem addCtr_host (g i c n : Nat) : (addCtr s g i c n).host = s.host := rfl
@[simp] theorem addCtr_comp (g i c n : Nat) : (addCtr s g i c n).comp = s.comp := rfl
@[simp] theorem addCtr_mem (g i c n : Nat) : (addCtr s g i c n).mem = s.mem := rfl
@[simp] theorem addCtr_sync (g i c n : Nat) : (addCtr s g i c n).sync = s.sync := rfl
@[simp] theorem addCtr_kv (g i c n : Nat) : (addCtr s g i c n).kv = s.kv := rfl
@[simp] theorem addCtr_conv (g i c n : Nat) : (addCtr s g i c n).conv = s.conv := rfl
@[simp] theorem addCtr_fab (g i c n : Nat) : (addCtr s g i c n).fab = { s.fab with counters := tabMod 0 s.fab.counters (ctrKey g i c) (fun x => (x + n) % 2 ^ 64) } := rfl
@[simp] theorem addCtr_power (g i c n : Nat) : (addCtr s g i c n).power = s.power := rfl
@[simp] theorem addCtr_weigh (g i c n : Nat) : (addCtr s g i c n).weigh = s.weigh := rfl
@[simp] theorem addCtr_cfg (g i c n : Nat) : (addCtr s g i c n).cfg = s.cfg := rfl
@[simp] theorem addCtr_sec (g i c n : Nat) : (addCtr s g i c n).sec = s.sec := rfl
@[simp] theorem addCtr_dev (g i c n : Nat) : (addCtr s g i c n).dev = s.dev := rfl
@[simp] theorem addCtr_frozen (g i c n : Nat) : (addCtr s g i c n).frozen = s.frozen := rfl
@[simp] theorem addCtr_out (g i c n : Nat) : (addCtr s g i c n).out = s.out := rfl
@[simp] theorem addCtr_ident (g i c n : Nat) : (addCtr s g i c n).ident = s.ident := rfl
@[simp] theorem addCtr_fresh (g i c n : Nat) : (addCtr s g i c n).fresh = s.fresh := rfl

/-! ## setReg -/

@[simp] theorem setReg_pending (o : Nat) (w : Word) : (setReg s o w).pending = s.pending := rfl
@[simp] theorem setReg_stage (o : Nat) (w : Word) : (setReg s o w).stage = s.stage := rfl
@[simp] theorem setReg_host (o : Nat) (w : Word) : (setReg s o w).host = { s.host with regs := tabSet s.host.regs o (if w = regReset o then none else some w) } := rfl
@[simp] theorem setReg_comp (o : Nat) (w : Word) : (setReg s o w).comp = s.comp := rfl
@[simp] theorem setReg_mem (o : Nat) (w : Word) : (setReg s o w).mem = s.mem := rfl
@[simp] theorem setReg_sync (o : Nat) (w : Word) : (setReg s o w).sync = s.sync := rfl
@[simp] theorem setReg_kv (o : Nat) (w : Word) : (setReg s o w).kv = s.kv := rfl
@[simp] theorem setReg_conv (o : Nat) (w : Word) : (setReg s o w).conv = s.conv := rfl
@[simp] theorem setReg_fab (o : Nat) (w : Word) : (setReg s o w).fab = s.fab := rfl
@[simp] theorem setReg_power (o : Nat) (w : Word) : (setReg s o w).power = s.power := rfl
@[simp] theorem setReg_weigh (o : Nat) (w : Word) : (setReg s o w).weigh = s.weigh := rfl
@[simp] theorem setReg_cfg (o : Nat) (w : Word) : (setReg s o w).cfg = s.cfg := rfl
@[simp] theorem setReg_sec (o : Nat) (w : Word) : (setReg s o w).sec = s.sec := rfl
@[simp] theorem setReg_dev (o : Nat) (w : Word) : (setReg s o w).dev = s.dev := rfl
@[simp] theorem setReg_frozen (o : Nat) (w : Word) : (setReg s o w).frozen = s.frozen := rfl
@[simp] theorem setReg_out (o : Nat) (w : Word) : (setReg s o w).out = s.out := rfl
@[simp] theorem setReg_ident (o : Nat) (w : Word) : (setReg s o w).ident = s.ident := rfl
@[simp] theorem setReg_fresh (o : Nat) (w : Word) : (setReg s o w).fresh = s.fresh := rfl

/-! ## setTally -/

@[simp] theorem setTally_pending (ctx vid : Nat) (t : Option Tally) : (setTally s ctx vid t).pending = s.pending := rfl
@[simp] theorem setTally_stage (ctx vid : Nat) (t : Option Tally) : (setTally s ctx vid t).stage = s.stage := rfl
@[simp] theorem setTally_host (ctx vid : Nat) (t : Option Tally) : (setTally s ctx vid t).host = s.host := rfl
@[simp] theorem setTally_comp (ctx vid : Nat) (t : Option Tally) : (setTally s ctx vid t).comp = s.comp := rfl
@[simp] theorem setTally_mem (ctx vid : Nat) (t : Option Tally) : (setTally s ctx vid t).mem = s.mem := rfl
@[simp] theorem setTally_sync (ctx vid : Nat) (t : Option Tally) : (setTally s ctx vid t).sync = { s.sync with tallies := tabSet s.sync.tallies (tallyKey ctx vid) t } := rfl
@[simp] theorem setTally_kv (ctx vid : Nat) (t : Option Tally) : (setTally s ctx vid t).kv = s.kv := rfl
@[simp] theorem setTally_conv (ctx vid : Nat) (t : Option Tally) : (setTally s ctx vid t).conv = s.conv := rfl
@[simp] theorem setTally_fab (ctx vid : Nat) (t : Option Tally) : (setTally s ctx vid t).fab = s.fab := rfl
@[simp] theorem setTally_power (ctx vid : Nat) (t : Option Tally) : (setTally s ctx vid t).power = s.power := rfl
@[simp] theorem setTally_weigh (ctx vid : Nat) (t : Option Tally) : (setTally s ctx vid t).weigh = s.weigh := rfl
@[simp] theorem setTally_cfg (ctx vid : Nat) (t : Option Tally) : (setTally s ctx vid t).cfg = s.cfg := rfl
@[simp] theorem setTally_sec (ctx vid : Nat) (t : Option Tally) : (setTally s ctx vid t).sec = s.sec := rfl
@[simp] theorem setTally_dev (ctx vid : Nat) (t : Option Tally) : (setTally s ctx vid t).dev = s.dev := rfl
@[simp] theorem setTally_frozen (ctx vid : Nat) (t : Option Tally) : (setTally s ctx vid t).frozen = s.frozen := rfl
@[simp] theorem setTally_out (ctx vid : Nat) (t : Option Tally) : (setTally s ctx vid t).out = s.out := rfl
@[simp] theorem setTally_ident (ctx vid : Nat) (t : Option Tally) : (setTally s ctx vid t).ident = s.ident := rfl
@[simp] theorem setTally_fresh (ctx vid : Nat) (t : Option Tally) : (setTally s ctx vid t).fresh = s.fresh := rfl

end Sys2Proof.Laws
end

