-- ==== Sys2Proof/Laws/Tab.lean ====
section
/-! SUPPORT. What the sparse tables do: a read after a write, and that every operation keeps the canonical form. -/

namespace Sys2Proof.Laws
open Sys2Proof.Machine

/-! ## Reading after writing -/

/-- A table above a key holds the default at that key and below. -/
theorem tabGet_of_above {α : Type} [DecidableEq α] {d : α} {t : Tab α} {j k : Nat} (h : tabAbove d (some j) t = true)
    (hk : k ≤ j) : tabGet d t k = d := by
  cases t with
  | nil => rfl
  | cons x t =>
    obtain ⟨i, v⟩ := x
    simp only [tabAbove, Bool.and_eq_true, decide_eq_true_eq] at h
    have h1 : k ≠ i := by omega
    have h2 : k < i := by omega
    simp [tabGet, h1, h2]

/-- A weaker bound still holds. -/
theorem tabAbove_mono {α : Type} [DecidableEq α] {d : α} {t : Tab α} {j : Nat} (h : tabAbove d (some j) t = true)
    (b : Option Nat) (hb : ∀ i, b = some i → i ≤ j) : tabAbove d b t = true := by
  cases t with
  | nil => rfl
  | cons x t =>
    obtain ⟨i, v⟩ := x
    simp only [tabAbove, Bool.and_eq_true, decide_eq_true_eq] at h ⊢
    refine ⟨⟨?_, h.1.2⟩, h.2⟩
    cases b with
    | none => rfl
    | some c => have := hb c rfl; simp; omega

/-- The value just written is read back. -/
theorem tabGet_tabPut_same {α : Type} [DecidableEq α] {d : α} {b : Option Nat} {t : Tab α} (k : Nat) (v : α)
    (h : tabAbove d b t = true) : tabGet d (tabPut d t k v) k = v := by
  induction t generalizing b with
  | nil => by_cases hv : v = d <;> simp [tabPut, tabGet, hv]
  | cons x t ih =>
    obtain ⟨i, w⟩ := x
    simp only [tabAbove, Bool.and_eq_true, decide_eq_true_eq] at h
    by_cases hk : k = i
    · by_cases hv : v = d
      · simp [tabPut, hk, hv, tabGet_of_above h.2 (Nat.le_refl i)]
      · simp [tabPut, tabGet, hk, hv]
    · by_cases hl : k < i
      · by_cases hv : v = d <;> simp [tabPut, tabGet, hk, hl, hv]
      · simp [tabPut, tabGet, hk, hl, ih h.2]

/-- Every other entry reads as before. -/
theorem tabGet_tabPut_ne {α : Type} [DecidableEq α] {d : α} {b : Option Nat} {t : Tab α} {k j : Nat} (v : α)
    (h : tabAbove d b t = true) (hj : j ≠ k) : tabGet d (tabPut d t k v) j = tabGet d t j := by
  induction t generalizing b with
  | nil =>
    by_cases hv : v = d
    · simp [tabPut, tabGet, hv]
    · by_cases hl : j < k <;> simp [tabPut, tabGet, hv, hj]
  | cons x t ih =>
    obtain ⟨i, w⟩ := x
    simp only [tabAbove, Bool.and_eq_true, decide_eq_true_eq] at h
    by_cases hk : k = i
    · subst hk
      by_cases hv : v = d
      · by_cases hl : j < k
        · simp [tabPut, tabGet, hv, hj, hl, tabGet_of_above h.2 (Nat.le_of_lt hl)]
        · simp [tabPut, tabGet, hv, hj, hl]
      · simp [tabPut, tabGet, hv, hj]
    · by_cases hl : k < i
      · by_cases hv : v = d
        · simp [tabPut, hk, hl, hv]
        · by_cases hjk : j < k
          · have h1 : j ≠ i := by omega
            have h2 : j < i := by omega
            simp [tabPut, tabGet, hk, hl, hv, hj, hjk, h1, h2]
          · simp [tabPut, tabGet, hk, hl, hv, hj, hjk]
      · by_cases hji : j = i
        · simp [tabPut, tabGet, hk, hl, hji]
        · simp [tabPut, tabGet, hk, hl, hji, ih h.2]

/-! ## The canonical form -/

/-- A write above the bound keeps the table above it. -/
theorem tabAbove_tabPut {α : Type} [DecidableEq α] {d : α} {b : Option Nat} {t : Tab α} {k : Nat} (v : α)
    (h : tabAbove d b t = true) (hb : ∀ i, b = some i → i < k) : tabAbove d b (tabPut d t k v) = true := by
  induction t generalizing b with
  | nil =>
    by_cases hv : v = d
    · simp [tabPut, tabAbove, hv]
    · cases b with
      | none => simp [tabPut, tabAbove, hv]
      | some c => simp [tabPut, tabAbove, hv, hb c rfl]
  | cons x t ih =>
    obtain ⟨i, w⟩ := x
    simp only [tabAbove, Bool.and_eq_true, decide_eq_true_eq] at h
    by_cases hk : k = i
    · subst hk
      by_cases hv : v = d
      · have := tabAbove_mono h.2 b (fun c hc => Nat.le_of_lt (hb c hc))
        simpa [tabPut, hv] using this
      · simp [tabPut, tabAbove, hv, h.1.1, h.2]
    · by_cases hl : k < i
      · by_cases hv : v = d
        · simp [tabPut, tabAbove, hk, hl, hv, h.1.1, h.1.2, h.2]
        · cases b with
          | none => simp [tabPut, tabAbove, hk, hl, hv, h.1.2, h.2]
          | some c => simp [tabPut, tabAbove, hk, hl, hv, h.1.2, h.2, hb c rfl]
      · have hi : i < k := by omega
        have := ih h.2 (fun c hc => by simp only [Option.some.injEq] at hc; omega)
        simp [tabPut, tabAbove, hk, hl, h.1.1, h.1.2, this]

theorem tabWf_tabPut {α : Type} [DecidableEq α] {d : α} {t : Tab α} (k : Nat) (v : α) (h : tabWf d t = true) :
    tabWf d (tabPut d t k v) = true := tabAbove_tabPut v h (fun _ hc => by cases hc)

theorem tabWf_tabMod {α : Type} [DecidableEq α] {d : α} {t : Tab α} (k : Nat) (f : α → α) (h : tabWf d t = true) :
    tabWf d (tabMod d t k f) = true := tabWf_tabPut k _ h

theorem tabWf_nil {α : Type} [DecidableEq α] {d : α} : tabWf d ([] : Tab α) = true := rfl

/-- Leaving entries out keeps the form. -/
theorem tabAbove_filter {α : Type} [DecidableEq α] {d : α} {b : Option Nat} {t : Tab α} (p : Nat × α → Bool)
    (h : tabAbove d b t = true) : tabAbove d b (t.filter p) = true := by
  induction t generalizing b with
  | nil => rfl
  | cons x t ih =>
    obtain ⟨i, w⟩ := x
    simp only [tabAbove, Bool.and_eq_true, decide_eq_true_eq] at h
    by_cases hp : p (i, w) = true
    · simp [hp, tabAbove, h.1.1, h.1.2, ih h.2]
    · simp only [List.filter_cons, hp]
      refine ih (tabAbove_mono h.2 b (fun c hc => ?_))
      subst hc
      simpa using Nat.le_of_lt (by simpa using h.1.1)

theorem tabWf_filter {α : Type} [DecidableEq α] {d : α} {t : Tab α} (p : Nat × α → Bool) (h : tabWf d t = true) :
    tabWf d (t.filter p) = true := tabAbove_filter p h

theorem tabWf_tabDrop {α : Type} [DecidableEq α] {d : α} {t : Tab α} (p : Nat → Bool) (h : tabWf d t = true) :
    tabWf d (tabDrop p t) = true := tabAbove_filter _ h

/-- Changing values and leaving out those that become the default keeps the form. -/
theorem tabAbove_tabMap {α : Type} [DecidableEq α] {d : α} {b : Option Nat} {t : Tab α} (f : Nat → α → α)
    (h : tabAbove d b t = true) : tabAbove d b (tabMap d f t) = true := by
  induction t generalizing b with
  | nil => rfl
  | cons x t ih =>
    obtain ⟨i, w⟩ := x
    simp only [tabAbove, Bool.and_eq_true, decide_eq_true_eq] at h
    by_cases hp : f i w = d
    · have := ih (tabAbove_mono h.2 b (fun c hc => by subst hc; simpa using Nat.le_of_lt (by simpa using h.1.1)))
      simpa [tabMap, hp] using this
    · have := ih h.2
      simp only [tabMap, ne_eq, decide_not] at this
      simp [tabMap, hp, tabAbove, h.1.1, this]

theorem tabWf_tabMap {α : Type} [DecidableEq α] {d : α} {t : Tab α} (f : Nat → α → α) (h : tabWf d t = true) :
    tabWf d (tabMap d f t) = true := tabAbove_tabMap f h

/-! ## Tables whose unlisted entries are absent -/

theorem keysAbove_mono {α : Type} {t : Tab α} {j : Nat} (h : keysAbove (some j) t = true) (b : Option Nat)
    (hb : ∀ i, b = some i → i ≤ j) : keysAbove b t = true := by
  cases t with
  | nil => rfl
  | cons x t =>
    obtain ⟨i, v⟩ := x
    simp only [keysAbove, Bool.and_eq_true, decide_eq_true_eq] at h ⊢
    refine ⟨?_, h.2⟩
    cases b with
    | none => rfl
    | some c => have := hb c rfl; simp; omega

theorem keysAbove_tabSet {α : Type} {b : Option Nat} {t : Tab α} {k : Nat} (v : Option α) (h : keysAbove b t = true)
    (hb : ∀ i, b = some i → i < k) : keysAbove b (tabSet t k v) = true := by
  induction t generalizing b with
  | nil =>
    cases v with
    | none => rfl
    | some y =>
      cases b with
      | none => simp [tabSet, keysAbove]
      | some c => simp [tabSet, keysAbove, hb c rfl]
  | cons x t ih =>
    obtain ⟨i, w⟩ := x
    simp only [keysAbove, Bool.and_eq_true] at h
    by_cases hk : k = i
    · subst hk
      cases v with
      | none =>
        have := keysAbove_mono h.2 b (fun c hc => Nat.le_of_lt (hb c hc))
        simpa [tabSet] using this
      | some y => simp [tabSet, keysAbove, h.1, h.2]
    · by_cases hl : k < i
      · cases v with
        | none => simp [tabSet, keysAbove, hk, hl, h.1, h.2]
        | some y =>
          cases b with
          | none => simp [tabSet, keysAbove, hk, hl, h.2]
          | some c => simp [tabSet, keysAbove, hk, hl, h.2, hb c rfl]
      · have hi : i < k := by omega
        have := ih h.2 (fun c hc => by simp only [Option.some.injEq] at hc; omega)
        simp [tabSet, keysAbove, hk, hl, h.1, this]

theorem tabRising_tabSet {α : Type} {t : Tab α} (k : Nat) (v : Option α) (h : tabRising t = true) :
    tabRising (tabSet t k v) = true := keysAbove_tabSet v h (fun _ hc => by cases hc)

theorem keysAbove_filter {α : Type} {b : Option Nat} {t : Tab α} (p : Nat × α → Bool) (h : keysAbove b t = true) :
    keysAbove b (t.filter p) = true := by
  induction t generalizing b with
  | nil => rfl
  | cons x t ih =>
    obtain ⟨i, w⟩ := x
    simp only [keysAbove, Bool.and_eq_true] at h
    by_cases hp : p (i, w) = true
    · simp [hp, keysAbove, h.1, ih h.2]
    · simp only [List.filter_cons, hp]
      refine ih (keysAbove_mono h.2 b (fun c hc => ?_))
      subst hc
      simpa using Nat.le_of_lt (by simpa using h.1)

theorem tabRising_filter {α : Type} {t : Tab α} (p : Nat × α → Bool) (h : tabRising t = true) :
    tabRising (t.filter p) = true := keysAbove_filter p h

theorem tabRising_tabDrop {α : Type} {t : Tab α} (p : Nat → Bool) (h : tabRising t = true) :
    tabRising (tabDrop p t) = true := keysAbove_filter _ h

/-- Changing values only keeps the form. -/
theorem keysAbove_map {α : Type} {b : Option Nat} {t : Tab α} (f : Nat × α → α) (h : keysAbove b t = true) :
    keysAbove b (t.map (fun x => (x.1, f x))) = true := by
  induction t generalizing b with
  | nil => rfl
  | cons x t ih =>
    obtain ⟨i, w⟩ := x
    simp only [keysAbove, Bool.and_eq_true] at h
    simp [keysAbove, h.1, ih h.2]

theorem tabRising_map {α : Type} {t : Tab α} (f : Nat × α → α) (h : tabRising t = true) :
    tabRising (t.map (fun x => (x.1, f x))) = true := keysAbove_map f h

/-- A key below every key of a table is not found. -/
theorem tabFind_of_above {α : Type} {t : Tab α} {j k : Nat} (h : keysAbove (some j) t = true) (hk : k ≤ j) :
    tabFind t k = none := by
  induction t generalizing j with
  | nil => rfl
  | cons x t ih =>
    obtain ⟨i, v⟩ := x
    simp only [keysAbove, Bool.and_eq_true, decide_eq_true_eq] at h
    have h1 : i ≠ k := by omega
    have h2 := ih h.2 (by omega : k ≤ i)
    simp only [tabFind] at h2
    simpa [tabFind, h1] using h2

/-- The entry just written, or removed, is found so. -/
theorem tabFind_tabSet_same {α : Type} {b : Option Nat} {t : Tab α} (k : Nat) (v : Option α) (h : keysAbove b t = true) :
    tabFind (tabSet t k v) k = v := by
  induction t generalizing b with
  | nil => cases v <;> simp [tabSet, tabFind]
  | cons x t ih =>
    obtain ⟨i, w⟩ := x
    simp only [keysAbove, Bool.and_eq_true] at h
    by_cases hk : k = i
    · subst hk
      cases v with
      | none => simpa [tabSet] using tabFind_of_above h.2 (Nat.le_refl k)
      | some y => simp [tabSet, tabFind]
    · by_cases hl : k < i
      · cases v with
        | none =>
          have h2 := tabFind_of_above h.2 (Nat.le_of_lt hl)
          have h3 : ¬ i = k := fun e => hk e.symm
          simp only [tabFind] at h2
          simpa [tabSet, tabFind, hk, hl, h3] using h2
        | some y => simp [tabSet, tabFind, hk, hl]
      · have h3 : ¬ i = k := fun e => hk e.symm
        have h2 := ih h.2
        simp only [tabFind] at h2
        simpa [tabSet, tabFind, hk, hl, h3] using h2

/-- Every other entry is found as before. -/
theorem tabFind_tabSet_ne {α : Type} {t : Tab α} {k j : Nat} (v : Option α) (hj : j ≠ k) :
    tabFind (tabSet t k v) j = tabFind t j := by
  induction t with
  | nil =>
    cases v with
    | none => rfl
    | some y => simp [tabSet, tabFind, Ne.symm hj]
  | cons x t ih =>
    obtain ⟨i, w⟩ := x
    by_cases hk : k = i
    · subst hk
      cases v <;> simp [tabSet, tabFind, Ne.symm hj]
    · by_cases hl : k < i
      · cases v <;> simp [tabSet, tabFind, hk, hl, Ne.symm hj]
      · simp only [tabFind] at ih
        by_cases hi : i = j
        · subst hi
          simp [tabSet, tabFind, hk, hl]
        · simp [tabSet, tabFind, hk, hl, hi, ih]

end Sys2Proof.Laws
end

