-- ==== Sys2Proof/Laws/Drover.lean ====
section
/-! SUPPORT. What the operations that drover instructions share do: register reads after writes, and the one answer of each
kind of instruction. -/

namespace Sys2Proof.Laws
open Sys2Proof.Machine Sys2Proof.Safety

/-! ## Parts of the canonical form -/

/-- The seven parts of the canonical form. -/
theorem wf_parts {s : State} (h : s.wf = true) : s.mem.wf = true ∧ s.host.wf = true ∧ s.comp.wf = true ∧
    s.sync.wf = true ∧ s.kv.wf = true ∧ s.conv.wf = true ∧ s.fab.wf = true := by
  simp only [State.wf, Bool.and_eq_true] at h
  exact ⟨h.1.1.1.1.1.1, h.1.1.1.1.1.2, h.1.1.1.1.2, h.1.1.1.2, h.1.1.2, h.1.2, h.2⟩

theorem wf_drovers {s : State} (h : s.wf = true) : tabWf {} s.comp.drovers = true := by
  have h := (wf_parts h).2.2.1
  simp only [Compute.wf, Bool.and_eq_true] at h
  exact h.1.1.1.1.1.2

theorem wf_drover_all {s : State} (h : s.wf = true) : s.comp.drovers.all (fun v => v.2.wf) = true := by
  have h := (wf_parts h).2.2.1
  simp only [Compute.wf, Bool.and_eq_true] at h
  exact h.1.1.1.1.2

theorem wf_counters {s : State} (h : s.wf = true) : tabWf 0 s.fab.counters = true := by
  have h := (wf_parts h).2.2.2.2.2.2
  simp only [Fabric.wf, Bool.and_eq_true] at h
  exact h.1.2

theorem drover_wf_of_all {t : Tab Drover} (h : t.all (fun v => v.2.wf) = true) (d : Nat) :
    (tabGet ({} : Drover) t d).wf = true := by
  induction t with
  | nil => rfl
  | cons x t ih =>
    obtain ⟨j, v⟩ := x
    simp only [List.all_cons, Bool.and_eq_true] at h
    simp only [tabGet]
    split
    · exact h.1
    · split
      · rfl
      · exact ih h.2

/-- The registers of every drover are in canonical form. -/
theorem getDrv_wf {s : State} (h : s.wf = true) (d : Nat) : (getDrv s d).wf = true :=
  drover_wf_of_all (wf_drover_all h) d

/-! ## Reading a drover after a change -/

theorem getDrv_modDrv_same {s : State} (d : Nat) (f : Drover → Drover) (h : tabWf {} s.comp.drovers = true) :
    getDrv (modDrv s d f) d = f (getDrv s d) := tabGet_tabPut_same d _ h

theorem getDrv_modDrv_ne {s : State} {d e : Nat} (f : Drover → Drover) (h : tabWf {} s.comp.drovers = true) (he : e ≠ d) :
    getDrv (modDrv s d f) e = getDrv s e := tabGet_tabPut_ne _ h he

@[simp] theorem getDrv_addCtr (s : State) (g i c n d : Nat) : getDrv (addCtr s g i c n) d = getDrv s d := rfl
@[simp] theorem getX_addCtr (s : State) (g i c n d r : Nat) : getX (addCtr s g i c n) d r = getX s d r := rfl
@[simp] theorem getV_addCtr (s : State) (g i c n d r : Nat) : getV (addCtr s g i c n) d r = getV s d r := rfl

/-- Where the instruction is the drover's next one, its effect comes about after its count. -/
theorem onDrover_next {s : State} {d : DroverId} {i : Instr} (f : State → State) (h : drvNext s d i = true) :
    onDrover s d i f = .next (f (addCtr s 2 (engOf d) 9 1)) := by
  simp [onDrover, h]

/-- One change of the drover's record, after the count. -/
theorem onlyDrover_modDrv {s : State} (d : DroverId) (f : Drover → Drover) (h : s.wf = true) :
    OnlyDrover d s (modDrv (addCtr s 2 (engOf d) 9 1) d f) := by
  refine ⟨rfl, fun e he => ?_, ?_, fun k hk => ?_⟩
  · exact getDrv_modDrv_ne f (wf_drovers (s := s) h) he
  · exact tabGet_tabPut_same _ _ (wf_counters h)
  · exact tabGet_tabPut_ne _ (wf_counters h) hk

/-- A further change of the same drover's record. -/
theorem onlyDrover_again {s t : State} (d : DroverId) (f : Drover → Drover) (ht : OnlyDrover d s t)
    (hw : tabWf {} t.comp.drovers = true) : OnlyDrover d s (modDrv t d f) := by
  obtain ⟨h1, h2, h3, h4⟩ := ht
  refine ⟨?_, fun e he => ?_, h3, h4⟩
  · rw [h1]; rfl
  · rw [getDrv_modDrv_ne f hw he, h2 e he]

theorem modDrv_drovers_wf {s : State} (d : Nat) (f : Drover → Drover) (h : tabWf {} s.comp.drovers = true) :
    tabWf {} (modDrv s d f).comp.drovers = true := tabWf_tabPut _ _ h

/-! ## Register reads after one write -/

theorem getX_setX {s : State} (d r i : Nat) (w : Word) (hw : tabWf {} s.comp.drovers = true)
    (hd : (getDrv s d).wf = true) (hi : i < 32) (hr : r < 32) :
    getX (setX s d r w) d i = if i = r ∧ i ≠ 0 then w else getX s d i := by
  have hx : tabWf 0 (getDrv s d).x = true := by
    simp only [Drover.wf, Bool.and_eq_true] at hd; exact hd.1
  have hi' : i % 32 = i := Nat.mod_eq_of_lt hi
  have hr' : r % 32 = r := Nat.mod_eq_of_lt hr
  unfold setX
  by_cases h0 : r = 0
  · subst h0
    by_cases hi0 : i = 0 <;> simp [hi0]
  · simp only [hr', h0, if_false]
    unfold getX
    rw [getDrv_modDrv_same d _ hw]
    simp only [hi']
    by_cases hi0 : i = 0
    · simp [hi0]
    · by_cases hir : i = r
      · subst hir; simp [h0]; exact tabGet_tabPut_same i w hx
      · simp [hi0, hir]; exact tabGet_tabPut_ne w hx hir

theorem getV_setV {s : State} (d r i : Nat) (w : BitVec 256) (hw : tabWf {} s.comp.drovers = true)
    (hd : (getDrv s d).wf = true) (hi : i < 16) (hr : r < 16) :
    getV (setV s d r w) d i = if i = r then w else getV s d i := by
  have hx : tabWf 0 (getDrv s d).v = true := by
    simp only [Drover.wf, Bool.and_eq_true] at hd; exact hd.2
  have hi' : i % 16 = i := Nat.mod_eq_of_lt hi
  have hr' : r % 16 = r := Nat.mod_eq_of_lt hr
  unfold setV getV
  rw [getDrv_modDrv_same d _ hw]
  simp only [hi', hr']
  by_cases hir : i = r
  · subst hir; simp; exact tabGet_tabPut_same i w hx
  · simp [hir]; exact tabGet_tabPut_ne w hx hir

/-- A change of the record that leaves a register file alone leaves its reads alone. -/
theorem getX_modDrv {s : State} (d i : Nat) (f : Drover → Drover) (hw : tabWf {} s.comp.drovers = true)
    (hf : (f (getDrv s d)).x = (getDrv s d).x) : getX (modDrv s d f) d i = getX s d i := by
  unfold getX; rw [getDrv_modDrv_same d _ hw, hf]

theorem getV_modDrv {s : State} (d i : Nat) (f : Drover → Drover) (hw : tabWf {} s.comp.drovers = true)
    (hf : (f (getDrv s d)).v = (getDrv s d).v) : getV (modDrv s d f) d i = getV s d i := by
  unfold getV; rw [getDrv_modDrv_same d _ hw, hf]

/-- setX as one change of the record. -/
theorem setX_eq (s : State) (d r : Nat) (w : Word) (hw : tabWf {} s.comp.drovers = true) :
    getDrv (setX s d r w) d =
      (if r % 32 = 0 then getDrv s d else { getDrv s d with x := tabPut 0 (getDrv s d).x (r % 32) w }) := by
  unfold setX
  split
  · rfl
  · exact getDrv_modDrv_same d _ hw

theorem setX_drovers_wf {s : State} (d r : Nat) (w : Word) (h : tabWf {} s.comp.drovers = true) :
    tabWf {} (setX s d r w).comp.drovers = true := by
  unfold setX; split
  · exact h
  · exact modDrv_drovers_wf d _ h

theorem onlyDrover_count {s : State} (d : DroverId) (h : s.wf = true) : OnlyDrover d s (addCtr s 2 (engOf d) 9 1) :=
  ⟨rfl, fun _ _ => rfl, tabGet_tabPut_same _ _ (wf_counters h), fun _ hk => tabGet_tabPut_ne _ (wf_counters h) hk⟩

theorem onlyDrover_setX {s t : State} (d : DroverId) (r : Nat) (w : Word) (ht : OnlyDrover d s t)
    (hw : tabWf {} t.comp.drovers = true) : OnlyDrover d s (setX t d r w) := by
  unfold setX; split
  · exact ht
  · exact onlyDrover_again d _ ht hw

/-- rd := w, the flags, and the next instruction. -/
theorem writesX_of {s : State} (d : DroverId) (rd : BitVec 5) (w : Word) (f : FFlags) (h : s.wf = true) :
    WritesX d s rd w (flAfter s d f) (writeXF (addCtr s 2 (engOf d) 9 1) d rd (w.toNat, f)) := by
  have hw := wf_drovers h
  have hd := getDrv_wf h d
  let s1 := addCtr s 2 (engOf d) 9 1
  have hw1 : tabWf {} s1.comp.drovers = true := hw
  have hd1 : (getDrv s1 d).wf = true := hd
  have hr : rd.toNat < 32 := rd.isLt
  let s2 := setX s1 d rd.toNat w
  have hw2 : tabWf {} s2.comp.drovers = true := setX_drovers_wf d _ _ hw1
  let s3 := orFflags s2 d f
  have hw3 : tabWf {} s3.comp.drovers = true := modDrv_drovers_wf d _ hw2
  have e : writeXF s1 d rd (w.toNat, f) = pcNext s3 d := by simp [writeXF, s3, s2]
  rw [e]
  have g3 : getDrv s3 d = { getDrv s2 d with fflags := (getDrv s2 d).fflags ||| BitVec.ofNat 5 f.bits } :=
    getDrv_modDrv_same (d : Nat) _ hw2
  have g4 : getDrv (pcNext s3 d) d = { getDrv s3 d with pc := (getDrv s3 d).pc + 4 } :=
    getDrv_modDrv_same (d : Nat) _ hw3
  have g2 := setX_eq s1 d rd.toNat w hw1
  refine ⟨onlyDrover_again d _ (onlyDrover_again d _ (onlyDrover_setX d _ _ (onlyDrover_count d h) hw1) hw2) hw3, ?_⟩
  refine ⟨fun i hi => ?_, fun i _ => ?_, ?_, ?_, ?_, ?_, ?_⟩
  · have a1 : getX (pcNext s3 d) d i = getX s3 d i := getX_modDrv _ _ _ hw3 rfl
    have a2 : getX s3 d i = getX s2 d i := getX_modDrv _ _ _ hw2 rfl
    rw [a1, a2, getX_setX d.val rd.toNat i w hw1 hd1 hi hr]; rfl
  · have a1 : getV (pcNext s3 d) d i = getV s3 d i := getV_modDrv _ _ _ hw3 rfl
    have a2 : getV s3 d i = getV s2 d i := getV_modDrv _ _ _ hw2 rfl
    rw [a1, a2]
    unfold getV; rw [g2]; split <;> rfl
  all_goals
    rw [g4]; simp only [g3]; rw [g2]; split <;> rfl

/-- rd := w and the next instruction. -/
theorem writesX_plain {s : State} (d : DroverId) (rd : BitVec 5) (w : Word) (h : s.wf = true) :
    WritesX d s rd w (getDrv s d).fflags (writeX (addCtr s 2 (engOf d) 9 1) d rd w) := by
  have hw := wf_drovers h
  have hd := getDrv_wf h d
  let s1 := addCtr s 2 (engOf d) 9 1
  have hw1 : tabWf {} s1.comp.drovers = true := hw
  have hd1 : (getDrv s1 d).wf = true := hd
  let s2 := setX s1 d rd.toNat w
  have hw2 : tabWf {} s2.comp.drovers = true := setX_drovers_wf d _ _ hw1
  have g4 : getDrv (pcNext s2 d) d = { getDrv s2 d with pc := (getDrv s2 d).pc + 4 } :=
    getDrv_modDrv_same (d : Nat) _ hw2
  have g2 := setX_eq s1 d rd.toNat w hw1
  show WritesX d s rd w _ (pcNext s2 d)
  refine ⟨onlyDrover_again d _ (onlyDrover_setX d _ _ (onlyDrover_count d h) hw1) hw2,
    fun i hi => ?_, fun i _ => ?_, ?_, ?_, ?_, ?_, ?_⟩
  · have a1 : getX (pcNext s2 d) d i = getX s2 d i := getX_modDrv _ _ _ hw2 rfl
    exact a1.trans (getX_setX d.val rd.toNat i w hw1 hd1 hi rd.isLt)
  · have a1 : getV (pcNext s2 d) d i = getV s2 d i := getV_modDrv _ _ _ hw2 rfl
    refine a1.trans ?_
    unfold getV; rw [g2]; split <;> rfl
  all_goals
    rw [g4]; simp only; rw [g2]; split <;> rfl

/-- vd := x, the flags, and the next instruction. -/
theorem writesV_of {s : State} (d : DroverId) (vd : BitVec 4) (x : BitVec 256) (f : FFlags) (h : s.wf = true) :
    WritesV d s vd x (flAfter s d f) (writeVF (addCtr s 2 (engOf d) 9 1) d vd x f) := by
  have hw := wf_drovers h
  have hd := getDrv_wf h d
  let s1 := addCtr s 2 (engOf d) 9 1
  have hw1 : tabWf {} s1.comp.drovers = true := hw
  have hd1 : (getDrv s1 d).wf = true := hd
  let s2 := setV s1 d vd.toNat x
  have hw2 : tabWf {} s2.comp.drovers = true := modDrv_drovers_wf d _ hw1
  let s3 := orFflags s2 d f
  have hw3 : tabWf {} s3.comp.drovers = true := modDrv_drovers_wf d _ hw2
  have g2 : getDrv s2 d = { getDrv s1 d with v := tabPut 0 (getDrv s1 d).v (vd.toNat % 16) x } :=
    getDrv_modDrv_same (d : Nat) _ hw1
  have g3 : getDrv s3 d = { getDrv s2 d with fflags := (getDrv s2 d).fflags ||| BitVec.ofNat 5 f.bits } :=
    getDrv_modDrv_same (d : Nat) _ hw2
  have g4 : getDrv (pcNext s3 d) d = { getDrv s3 d with pc := (getDrv s3 d).pc + 4 } :=
    getDrv_modDrv_same (d : Nat) _ hw3
  show WritesV d s vd x _ (pcNext s3 d)
  refine ⟨onlyDrover_again d _ (onlyDrover_again d _ (onlyDrover_again d _ (onlyDrover_count d h) hw1) hw2) hw3,
    fun i _ => ?_, fun i hi => ?_, ?_, ?_, ?_, ?_, ?_⟩
  · have a1 : getX (pcNext s3 d) d i = getX s3 d i := getX_modDrv _ _ _ hw3 rfl
    have a2 : getX s3 d i = getX s2 d i := getX_modDrv _ _ _ hw2 rfl
    have a3 : getX s2 d i = getX s1 d i := getX_modDrv _ _ _ hw1 rfl
    exact a1.trans (a2.trans a3)
  · have a1 : getV (pcNext s3 d) d i = getV s3 d i := getV_modDrv _ _ _ hw3 rfl
    have a2 : getV s3 d i = getV s2 d i := getV_modDrv _ _ _ hw2 rfl
    exact a1.trans (a2.trans (getV_setV d.val vd.toNat i x hw1 hd1 hi vd.isLt))
  all_goals
    rw [g4]; simp only [g3, g2]; rfl

/-- vd := x and the next instruction. -/
theorem writesV_plain {s : State} (d : DroverId) (vd : BitVec 4) (x : BitVec 256) (h : s.wf = true) :
    WritesV d s vd x (getDrv s d).fflags (writeV (addCtr s 2 (engOf d) 9 1) d vd x) := by
  have hw := wf_drovers h
  have hd := getDrv_wf h d
  let s1 := addCtr s 2 (engOf d) 9 1
  have hw1 : tabWf {} s1.comp.drovers = true := hw
  have hd1 : (getDrv s1 d).wf = true := hd
  let s2 := setV s1 d vd.toNat x
  have hw2 : tabWf {} s2.comp.drovers = true := modDrv_drovers_wf d _ hw1
  have g2 : getDrv s2 d = { getDrv s1 d with v := tabPut 0 (getDrv s1 d).v (vd.toNat % 16) x } :=
    getDrv_modDrv_same (d : Nat) _ hw1
  have g4 : getDrv (pcNext s2 d) d = { getDrv s2 d with pc := (getDrv s2 d).pc + 4 } :=
    getDrv_modDrv_same (d : Nat) _ hw2
  show WritesV d s vd x _ (pcNext s2 d)
  refine ⟨onlyDrover_again d _ (onlyDrover_again d _ (onlyDrover_count d h) hw1) hw2,
    fun i _ => ?_, fun i hi => ?_, ?_, ?_, ?_, ?_, ?_⟩
  · have a1 : getX (pcNext s2 d) d i = getX s2 d i := getX_modDrv _ _ _ hw2 rfl
    have a3 : getX s2 d i = getX s1 d i := getX_modDrv _ _ _ hw1 rfl
    exact a1.trans a3
  · have a1 : getV (pcNext s2 d) d i = getV s2 d i := getV_modDrv _ _ _ hw2 rfl
    exact a1.trans (getV_setV d.val vd.toNat i x hw1 hd1 hi vd.isLt)
  all_goals
    rw [g4]; simp only [g2]; rfl

end Sys2Proof.Laws
end

