-- ==== Sys2Proof/Laws/Memory.lean ====
section
/-! SUPPORT. Local memory: every write keeps the canonical form, a byte written reads back, and every other byte is as before. -/

namespace Sys2Proof.Laws
open Sys2Proof Sys2Proof.Machine

/-- The state after reset has its memories and tables in canonical form. -/
theorem reset_wf : State.reset.wf = true := by decide +kernel

/-! ## The stores -/

theorem tabWf_putCells (bs : List Byte) : ∀ (m : List Host.Cell) (a : Nat), tabWf 0 m = true → tabWf 0 (putCells m a bs) = true := by
  induction bs with
  | nil => exact fun _ _ h => h
  | cons b t ih => exact fun m a h => ih _ _ (tabWf_tabPut a b h)

theorem tabRising_putOutside (bs : List Byte) : ∀ (m : Tab Byte) (a : Nat), tabRising m = true → tabRising (putOutside m a bs) = true := by
  induction bs with
  | nil => exact fun _ _ h => h
  | cons b t ih => exact fun m a h => ih _ _ (tabRising_tabSet a (some b) h)

theorem tabWf_putSound (e : Tab (BitVec 72)) (bs : List Byte) :
    ∀ (m : List Host.Cell) (a : Nat), tabWf 0 m = true → tabWf 0 (putSound e m a bs) = true := by
  induction bs with
  | nil => exact fun _ _ h => h
  | cons b t ih =>
    intro m a h
    simp only [putSound]
    split
    · exact ih _ _ h
    · exact ih _ _ (tabWf_tabPut a b h)

/-- A byte of a range that no error pattern touches is the one written; every other byte is as before. -/
theorem tabGet_putSound (e : Tab (BitVec 72)) (bs : List Byte) : ∀ (m : List Host.Cell) (a k : Nat), tabWf 0 m = true →
    tabGet 0 (putSound e m a bs) k =
      if a ≤ k ∧ k < a + bs.length ∧ (tabFind e (k / 8)).isSome = false then (bs[k - a]?).getD 0 else tabGet 0 m k := by
  induction bs with
  | nil =>
    intro m a k _
    rw [if_neg (by simp only [List.length_nil]; omega)]
    rfl
  | cons b t ih =>
    intro m a k h
    have h2 : tabWf 0 (if (tabFind e (a / 8)).isSome then m else tabPut 0 m a b) = true := by
      split
      · exact h
      · exact tabWf_tabPut a b h
    simp only [putSound]
    rw [ih _ _ _ h2]
    by_cases hk : k = a
    · subst hk
      rw [if_neg (by omega)]
      cases he : (tabFind e (k / 8)).isSome
      · rw [if_neg (by simp), tabGet_tabPut_same k b h, if_pos (by simp)]; simp
      · rw [if_pos rfl, if_neg (by simp)]
    · have hget : tabGet 0 (if (tabFind e (a / 8)).isSome then m else tabPut 0 m a b) k = tabGet 0 m k := by
        split
        · rfl
        · exact tabGet_tabPut_ne b h hk
      rw [hget]
      by_cases hr : a + 1 ≤ k ∧ k < a + 1 + t.length ∧ (tabFind e (k / 8)).isSome = false
      · rw [if_pos hr, if_pos ⟨by omega, by simp only [List.length_cons]; omega, hr.2.2⟩]
        rw [show k - a = (k - (a + 1)) + 1 by omega, List.getElem?_cons_succ]
      · rw [if_neg hr, if_neg]
        rintro ⟨h3, h4, h5⟩
        exact hr ⟨by omega, by simp only [List.length_cons] at h4; omega, h5⟩

/-! ## Writes -/

theorem memory_wf_cells {m : Memory} (h : m.wf = true) {c : List Host.Cell} (hc : tabWf 0 c = true) {e : Tab (BitVec 72)}
    (he : tabRising e = true) : ({ m with cells := c, errors := e } : Memory).wf = true := by
  simp only [Memory.wf, Bool.and_eq_true] at h ⊢
  exact ⟨⟨⟨hc, h.1.1.2⟩, he⟩, h.2⟩

theorem memory_wf_parts {m : Memory} (h : m.wf = true) :
    tabWf 0 m.cells = true ∧ tabRising m.outside = true ∧ tabRising m.errors = true ∧ tabWf {} m.stackTab = true := by
  simp only [Memory.wf, Bool.and_eq_true] at h
  exact ⟨h.1.1.1, h.1.1.2, h.1.2, h.2⟩

theorem noteCorrected_wf {s : State} (a : Nat) (h : s.mem.wf = true) : (noteCorrected s a).mem.wf = true := by
  have p := memory_wf_parts h
  unfold noteCorrected
  split
  · simp only [Memory.wf, Bool.and_eq_true, modStack, addCtr]
    exact ⟨⟨⟨p.1, p.2.1⟩, p.2.2.1⟩, tabWf_tabMod _ _ p.2.2.2⟩
  · exact h
  · exact h
  · exact h

theorem writeBack_wf {s : State} (w : Nat) (h : s.mem.wf = true) : (writeBack s w).mem.wf = true := by
  have p := memory_wf_parts h
  unfold writeBack
  split
  · exact noteCorrected_wf _ (memory_wf_cells h (tabWf_putCells _ _ _ p.1) (tabRising_tabSet _ _ p.2.2.1))
  · exact noteCorrected_wf _ (memory_wf_cells h (tabWf_putCells _ _ _ p.1) (tabRising_tabSet _ _ p.2.2.1))
  · exact h

theorem writeBacks_wf (l : List Nat) : ∀ s : State, s.mem.wf = true → (l.foldl writeBack s).mem.wf = true := by
  induction l with
  | nil => exact fun _ h => h
  | cons w t ih => exact fun s h => ih _ (writeBack_wf w h)

/-- Correcting what a read touches keeps the form. -/
theorem correctRange_wf {s : State} (a n : Nat) (h : s.mem.wf = true) : (correctRange s a n).mem.wf = true := writeBacks_wf _ s h

/-- A write to local memory keeps the form. -/
theorem memWrite_wf {s : State} (a : Nat) (bs : List Byte) (h : s.mem.wf = true) : (memWrite s a bs).mem.wf = true := by
  have h1 := correctRange_wf a bs.length h
  have p := memory_wf_parts h1
  exact memory_wf_cells h1 (tabWf_putSound _ _ _ _ p.1) (tabRising_tabDrop _ p.2.2.1)

/-- So does a write at a global address, to a host and to another device too. -/
theorem gWrite_wf {s : State} (a : Nat) (bs : List Byte) (h : s.mem.wf = true) : (gWrite s a bs).mem.wf = true := by
  have p := memory_wf_parts h
  have out : ({ s.mem with outside := putOutside s.mem.outside a bs } : Memory).wf = true := by
    simp only [Memory.wf, Bool.and_eq_true]
    exact ⟨⟨⟨p.1, tabRising_putOutside _ _ _ p.2.1⟩, p.2.2.1⟩, p.2.2.2⟩
  unfold gWrite
  split
  · exact out
  · exact out
  · exact memWrite_wf a bs h

/-- Where no word bears an error pattern, a write stores its bytes and changes no other byte of local memory. -/
theorem memByte_memWrite {s : State} (a : Nat) (bs : List Byte) (k : Nat) (h : s.mem.wf = true) (he : s.mem.errors = []) :
    memByte (memWrite s a bs) k = if a ≤ k ∧ k < a + bs.length then (bs[k - a]?).getD 0 else memByte s k := by
  have hw : errWords s a bs.length = [] := by unfold errWords; rw [he]; split <;> rfl
  have hc : correctRange s a bs.length = s := by unfold correctRange; rw [hw]; rfl
  unfold memWrite memByte
  simp only [hc, he]
  rw [tabGet_putSound _ _ _ _ _ (memory_wf_parts h).1]
  have hn : (tabFind (clearErrors [] a bs.length) (k / 8)).isSome = false := rfl
  by_cases hk : a ≤ k ∧ k < a + bs.length
  · rw [if_pos ⟨hk.1, hk.2, hn⟩, if_pos hk]
  · rw [if_neg (fun x => hk ⟨x.1, x.2.1⟩), if_neg hk]

end Sys2Proof.Laws
end

