-- ==== Sys2Proof/Laws/Shared.lean ====
section
/-! SUPPORT. What the shared operations do, each said once: a record changed reads back and no other differs; a register word
written reads back; freezing and releasing a master; and all that a write, or an event, can change. -/

namespace Sys2Proof.Laws
open Sys2Proof Sys2Proof.Machine

/-! ## Records -/

theorem tabGet_tabMod_same {α : Type} [DecidableEq α] {d : α} {t : Tab α} (k : Nat) (f : α → α) (h : tabWf d t = true) :
    tabGet d (tabMod d t k f) k = f (tabGet d t k) := tabGet_tabPut_same k _ h
theorem tabGet_tabMod_ne {α : Type} [DecidableEq α] {d : α} {t : Tab α} {k j : Nat} (f : α → α) (h : tabWf d t = true) (hj : j ≠ k) :
    tabGet d (tabMod d t k f) j = tabGet d t j := tabGet_tabPut_ne _ h hj

theorem getQ_modQ_same {s : State} (k : Nat) (f : _ → _) (h : tabWf {} s.host.queues = true) :
    getQ (modQ s k f) k = f (getQ s k) := tabGet_tabMod_same k f h
theorem getQ_modQ_ne {s : State} {k j : Nat} (f : _ → _) (h : tabWf {} s.host.queues = true) (hj : j ≠ k) :
    getQ (modQ s k f) j = getQ s j := tabGet_tabMod_ne f h hj
theorem getEng_modEng_same {s : State} (k : Nat) (f : _ → _) (h : tabWf {} s.comp.engines = true) :
    getEng (modEng s k f) k = f (getEng s k) := tabGet_tabMod_same k f h
theorem getEng_modEng_ne {s : State} {k j : Nat} (f : _ → _) (h : tabWf {} s.comp.engines = true) (hj : j ≠ k) :
    getEng (modEng s k f) j = getEng s j := tabGet_tabMod_ne f h hj
theorem getClu_modClu_same {s : State} (k : Nat) (f : _ → _) (h : tabWf {} s.comp.clusters = true) :
    getClu (modClu s k f) k = f (getClu s k) := tabGet_tabMod_same k f h
theorem getClu_modClu_ne {s : State} {k j : Nat} (f : _ → _) (h : tabWf {} s.comp.clusters = true) (hj : j ≠ k) :
    getClu (modClu s k f) j = getClu s j := tabGet_tabMod_ne f h hj
theorem getGrp_modGrp_same {s : State} (k : Nat) (f : _ → _) (h : tabWf {} s.comp.groups = true) :
    getGrp (modGrp s k f) k = f (getGrp s k) := tabGet_tabMod_same k f h
theorem getGrp_modGrp_ne {s : State} {k j : Nat} (f : _ → _) (h : tabWf {} s.comp.groups = true) (hj : j ≠ k) :
    getGrp (modGrp s k f) j = getGrp s j := tabGet_tabMod_ne f h hj
theorem getStream_modStream_same {s : State} (k : Nat) (f : _ → _) (h : tabWf {} s.kv.streams = true) :
    getStream (modStream s k f) k = f (getStream s k) := tabGet_tabMod_same k f h
theorem getStream_modStream_ne {s : State} {k j : Nat} (f : _ → _) (h : tabWf {} s.kv.streams = true) (hj : j ≠ k) :
    getStream (modStream s k f) j = getStream s j := tabGet_tabMod_ne f h hj
theorem getConv_modConv_same {s : State} (k : Nat) (f : _ → _) (h : tabWf {} s.conv.chans = true) :
    getConv (modConv s k f) k = f (getConv s k) := tabGet_tabMod_same k f h
theorem getConv_modConv_ne {s : State} {k j : Nat} (f : _ → _) (h : tabWf {} s.conv.chans = true) (hj : j ≠ k) :
    getConv (modConv s k f) j = getConv s j := tabGet_tabMod_ne f h hj
theorem getPort_modPort_same {s : State} (k : Nat) (f : _ → _) (h : tabWf {} s.fab.ports = true) :
    getPort (modPort s k f) k = f (getPort s k) := tabGet_tabMod_same k f h
theorem getPort_modPort_ne {s : State} {k j : Nat} (f : _ → _) (h : tabWf {} s.fab.ports = true) (hj : j ≠ k) :
    getPort (modPort s k f) j = getPort s j := tabGet_tabMod_ne f h hj
theorem getStack_modStack_same {s : State} (k : Nat) (f : _ → _) (h : tabWf {} s.mem.stackTab = true) :
    getStack (modStack s k f) k = f (getStack s k) := tabGet_tabMod_same k f h
theorem getStack_modStack_ne {s : State} {k j : Nat} (f : _ → _) (h : tabWf {} s.mem.stackTab = true) (hj : j ≠ k) :
    getStack (modStack s k f) j = getStack s j := tabGet_tabMod_ne f h hj

/-! ## Register words -/

theorem regWord_setReg_same {s : State} (o : Nat) (w : Word) (h : tabRising s.host.regs = true) : regWord (setReg s o w) o = w := by
  unfold regWord setReg
  rw [tabFind_tabSet_same o _ h]
  split
  · rename_i hw; exact hw.symm
  · rfl
theorem regWord_setReg_ne {s : State} {o p : Nat} (w : Word) (hp : p ≠ o) : regWord (setReg s o w) p = regWord s p := by
  unfold regWord setReg
  rw [tabFind_tabSet_ne _ hp]
theorem setReg_regs_rising {s : State} (o : Nat) (w : Word) (h : tabRising s.host.regs = true) :
    tabRising (setReg s o w).host.regs = true := tabRising_tabSet o _ h

/-! ## Freezes (R474) -/

/-- A master that is frozen is so afterwards, and so is every master that was; freezing changes the list and its overflow only. -/
theorem isFrozen_freeze (s : State) (kind idx part code : Nat) (hk : kind < 16) (hi : idx < 2 ^ 32) :
    isFrozen (freeze s kind idx part code) kind idx = true := by
  unfold freeze
  split
  · assumption
  · have : isFrozen { s with frozen := s.frozen ++ [⟨BitVec.ofNat 4 kind, BitVec.ofNat 32 idx, BitVec.ofNat 8 part, BitVec.ofNat 16 code, s.stage,
        !decide (256 ≤ (s.frozen.filter (·.listed)).length), []⟩] } kind idx = true := by
      unfold isFrozen
      simp only [List.any_append, List.any_cons, List.any_nil, Bool.or_false, Bool.or_eq_true, BitVec.toNat_ofNat]
      exact .inr (by rw [Nat.mod_eq_of_lt (by omega), Nat.mod_eq_of_lt hi]; simp)
    dsimp only
    split <;> exact this
theorem freeze_frame (s : State) (kind idx part code : Nat) :
    ∃ l o, freeze s kind idx part code = { s with frozen := l, dev := { s.dev with frozenOverflow := o } } ∧
      ∀ x, x ∈ s.frozen → x ∈ l := by
  unfold freeze
  split
  · exact ⟨s.frozen, s.dev.frozenOverflow, rfl, fun _ h => h⟩
  · dsimp only
    split
    · exact ⟨_, true, rfl, fun _ h => List.mem_append_left _ h⟩
    · exact ⟨_, s.dev.frozenOverflow, rfl, fun _ h => List.mem_append_left _ h⟩
theorem isFrozen_unfreeze (s : State) (kind idx : Nat) : isFrozen (unfreeze s kind idx) kind idx = false := by
  unfold isFrozen unfreeze
  rw [List.any_eq_false]
  intro x hx
  have h := (List.mem_filter.mp hx).2
  rw [Bool.not_eq_true'] at h
  rw [h]
  exact Bool.false_ne_true
theorem isFrozen_unfreeze_ne (s : State) {kind idx k i : Nat} (h : ¬ (k = kind ∧ i = idx)) :
    isFrozen (unfreeze s kind idx) k i = isFrozen s k i := by
  unfold isFrozen unfreeze
  rw [List.any_filter]
  congr 1
  funext x
  by_cases hx : x.kind.toNat = k ∧ x.index.toNat = i
  · obtain ⟨rfl, rfl⟩ := hx
    have hf : (decide (x.kind.toNat = kind) && decide (x.index.toNat = idx)) = false := by
      cases hb : (decide (x.kind.toNat = kind) && decide (x.index.toNat = idx)) with
      | false => rfl
      | true => rw [Bool.and_eq_true, decide_eq_true_eq, decide_eq_true_eq] at hb; exact absurd hb h
    rw [hf]
    rfl
  · have hf : (decide (x.kind.toNat = k) && decide (x.index.toNat = i)) = false := by
      cases hb : (decide (x.kind.toNat = k) && decide (x.index.toNat = i)) with
      | false => rfl
      | true => rw [Bool.and_eq_true, decide_eq_true_eq, decide_eq_true_eq] at hb; exact absurd hb hx
    rw [hf, Bool.and_false]

/-! ## What a write and an event can change -/

theorem noteCorrected_frame (s : State) (a : Nat) : ∃ m f, noteCorrected s a = { s with mem := m, fab := f } := by
  unfold noteCorrected
  split <;> exact ⟨_, _, rfl⟩
theorem writeBack_frame (s : State) (w : Nat) : ∃ m f, writeBack s w = { s with mem := m, fab := f } := by
  unfold writeBack
  split
  · obtain ⟨m, f, h⟩ := noteCorrected_frame { s with mem := { s.mem with cells := putCells s.mem.cells (8 * w) (leBytes 8 _), errors := tabSet s.mem.errors w none } } (8 * w)
    exact ⟨m, f, h⟩
  · obtain ⟨m, f, h⟩ := noteCorrected_frame { s with mem := { s.mem with cells := putCells s.mem.cells (8 * w) (leBytes 8 _), errors := tabSet s.mem.errors w none } } (8 * w)
    exact ⟨m, f, h⟩
  · exact ⟨s.mem, s.fab, rfl⟩
theorem writeBacks_frame (l : List Nat) : ∀ s : State, ∃ m f, l.foldl writeBack s = { s with mem := m, fab := f } := by
  induction l with
  | nil => exact fun s => ⟨s.mem, s.fab, rfl⟩
  | cons w t ih =>
    intro s
    obtain ⟨m, f, h⟩ := writeBack_frame s w
    obtain ⟨m2, f2, h2⟩ := ih (writeBack s w)
    exact ⟨m2, f2, by rw [List.foldl_cons, h2, h]⟩
/-- A write to local memory changes memory, and counts the words it corrected. -/
theorem memWrite_frame (s : State) (a : Nat) (bs : List Byte) : ∃ m f, memWrite s a bs = { s with mem := m, fab := f } := by
  obtain ⟨m, f, h⟩ := writeBacks_frame (errWords s a bs.length) s
  unfold memWrite correctRange
  rw [h]
  exact ⟨_, _, rfl⟩
/-- A write at a global address changes memory and the fabric side, and sends a message where it leaves the block. -/
theorem gWrite_frame (s : State) (a : Nat) (bs : List Byte) : ∃ m f o, gWrite s a bs = { s with mem := m, fab := f, out := s.out ++ o } := by
  unfold gWrite
  split
  · exact ⟨_, _, [_], rfl⟩
  · exact ⟨_, _, [_], rfl⟩
  · obtain ⟨m, f, h⟩ := memWrite_frame s a bs
    exact ⟨m, f, [], by rw [h, List.append_nil]⟩
/-- A record to an event queue changes the queue, memory and the fabric side, and sends messages (R389, R394). -/
theorem postEvent_frame (s : State) (rec : List Byte) (fn : Nat) :
    ∃ m f o e, postEvent s rec fn = { s with mem := m, fab := f, out := s.out ++ o, host := { s.host with evqs := e } } := by
  unfold postEvent
  dsimp only
  split
  · exact ⟨s.mem, s.fab, [], _, by rw [List.append_nil]⟩
  · obtain ⟨m, f, o, h⟩ := gWrite_frame s (regAddr s (evqOff fn) 12 + 32 * ((tabGet ({} : Evq) s.host.evqs fn).tail.toNat %
      2 ^ (regField s (evqOff fn + 8) 31 28 + 4))) rec
    rw [h]
    dsimp only
    generalize hu : ({ s with mem := m, fab := f, out := s.out ++ o, host := { s.host with evqs := tabMod {} s.host.evqs fn _ } } : State) = u
    generalize regAddr s (evqOff fn + 0x14) 6 = a2
    generalize leBytes 8 _ = b2
    obtain ⟨m2, f2, o2, h2⟩ := gWrite_frame u a2 b2
    rw [h2, ← hu]
    exact ⟨m2, f2, o ++ (o2 ++ [.msix fn 0]), _, by simp only [fireMsix, emit, List.append_assoc]; rfl⟩
/-- An event changes event queues, memory and the fabric side, and sends messages: nothing else. -/
theorem raiseEvent_frame (s : State) (code sev ctx src : Nat) (detail : List Byte) :
    ∃ m f o e, raiseEvent s code sev ctx src detail = { s with mem := m, fab := f, out := s.out ++ o, host := { s.host with evqs := e } } := by
  unfold raiseEvent
  dsimp only
  generalize eventTargets s ctx src = l
  generalize eventBytes code sev ctx src s.stage detail = rec
  induction l generalizing s with
  | nil => exact ⟨s.mem, s.fab, [], s.host.evqs, by rw [List.append_nil]; rfl⟩
  | cons fn t ih =>
    obtain ⟨m, f, o, e, h⟩ := postEvent_frame s rec fn
    obtain ⟨m2, f2, o2, e2, h2⟩ := ih (postEvent s rec fn)
    exact ⟨m2, f2, o ++ o2, e2, by rw [List.foldl_cons, h2, h, List.append_assoc]⟩

end Sys2Proof.Laws
end

