-- ==== Sys2Proof/Laws/Tiles.lean ====
section
/-! SUPPORT. Writing local memory changes nothing of the compute side; filling rings and draining a tile change no engine. So the
tile that a block forms next leaves every engine as it was, whatever state it is applied to. -/

namespace Sys2Proof.Laws
open Sys2Proof.Machine

theorem noteCorrected_comp (s : State) (a : Nat) : (noteCorrected s a).comp = s.comp := by
  unfold noteCorrected; split <;> rfl

theorem writeBack_comp (s : State) (w : Nat) : (writeBack s w).comp = s.comp := by
  unfold writeBack; split <;> first | rfl | exact noteCorrected_comp _ _

theorem correctRange_comp (s : State) (a n : Nat) : (correctRange s a n).comp = s.comp := by
  unfold correctRange
  generalize errWords s a n = l
  induction l generalizing s with
  | nil => rfl
  | cons w t ih => rw [List.foldl_cons, ih, writeBack_comp]

theorem memWrite_comp (s : State) (a : Nat) (bs : List Byte) : (memWrite s a bs).comp = s.comp := correctRange_comp s a bs.length

/-- A change of state that leaves the engines as they were. -/
def KeepsEngines (f : State → State) : Prop := ∀ u, (f u).comp.engines = u.comp.engines

theorem memWrite_engines (a : Nat) (bs : List Byte) : KeepsEngines (fun u => memWrite u a bs) := fun u => by rw [memWrite_comp]

theorem passSlots_engines (e n k : Nat) : KeepsEngines (fun u => passSlots u e n k) := fun _ => rfl

theorem fillSlots_engines (e n : Nat) (l : List (List Byte)) : KeepsEngines (fun u => fillSlots u e n l) := by
  induction l with
  | nil => exact fun _ => rfl
  | cons b t ih =>
    intro u
    exact (ih _).trans (memWrite_engines _ _ u)

theorem putAcc_engines (e : Nat) (int : Bool) (c : List (List FpVal)) : KeepsEngines (fun u => putAcc u e int c) := fun _ => rfl

theorem fillInner_engines (p : Plan) (g : BlockGeo) (d S n : Nat) (first : Bool) (a b : OperandTile) (e : Nat) :
    KeepsEngines (fillInner p g d S n first a b e) := by
  intro u
  unfold fillInner
  refine (fillSlots_engines _ _ _ _).trans ?_
  split
  · exact memWrite_engines _ _ _
  · rfl

theorem fillGroup_engines (p : Plan) (g : BlockGeo) (d S : Nat) (a : OperandTile) (l : List OperandTile) (e : Nat) :
    KeepsEngines (fillGroup p g d S a l e) := by
  intro u
  unfold fillGroup
  exact (fillSlots_engines _ _ _ _).trans (fillSlots_engines _ _ _ _)

/-- A tile whose fills and drain leave the engines as they were. -/
def TileKeeps (d : TileDone) : Prop := KeepsEngines d.fill ∧ KeepsEngines d.drain

theorem planTile_keeps {s : State} {ctx e no n : Nat} {p : Plan} {l : List Nat} {tb : List (Nat × Nat)} {lat : Bool} {d : TileDone}
    (h : planTile s ctx p l tb lat e no n = .ok d) : TileKeeps d := by
  unfold planTile at h
  dsimp only at h
  iterate 4 (split at h; · cases h)
  cases h
  refine ⟨fun u => ?_, putAcc_engines _ _ _⟩
  dsimp only
  repeat' split
  all_goals first | rfl | exact fillInner_engines _ _ _ _ _ _ _ _ _ _ | exact fillGroup_engines _ _ _ _ _ _ _ _

theorem convTile_keeps {s : State} {ctx e no n : Nat} {c : ConvPlan} {l : List Nat} {d : TileDone}
    (h : convTile s ctx c l e no n = .ok d) : TileKeeps d := by
  unfold convTile at h
  dsimp only at h
  iterate 3 (split at h; · cases h)
  cases h
  refine ⟨fun u => ?_, putAcc_engines _ _ _⟩
  dsimp only
  repeat' split
  all_goals rfl

theorem attnTile_keeps {s : State} {ctx qpos e k qt t g0 stepNo : Nat} {a : Attn} {b : AttnBlock} {d img : List Byte}
    {rows : List AttnRow} {x : TileDone × List AttnRow} (h : attnTile s ctx a qpos b d img e k qt t g0 stepNo rows = .ok x) :
    TileKeeps x.1 := by
  unfold attnTile at h
  dsimp only at h
  split at h
  · split at h
    · cases h
    · cases h
      constructor
      · intro u
        dsimp only
        have hq : ∀ v : State, (if t ≠ 0 then v else memWrite v (spadAddr e (a.panel + (g0 / a.qt % 2 * a.qt + (qt - g0)) * a.qTile))
            (panelLines a.qf (fmtBits a.qf) 0 a.dqk 32 a.sqk 7 false [‹List (List Nat)›] [[]]).flatten).comp.engines = v.comp.engines := by
          intro v
          split
          · rfl
          · exact memWrite_engines _ _ _
        split
        · exact hq u
        · exact (fillSlots_engines _ _ _ _).trans (hq u)
      · intro u
        dsimp only
        split
        · exact putAcc_engines _ _ _ _
        · exact (memWrite_engines _ _ _).trans (putAcc_engines _ _ _ _)
  · cases h
    exact ⟨fun _ => rfl, putAcc_engines _ _ _⟩

theorem groupTile_keeps {s : State} {ctx nq g0 sl n : Nat} {a : Attn} {blk : AttnBlock} {b b1 : BlockRun} {d t : TileDone} {en : Bool}
    (hd : TileKeeps d) (h : groupTile s ctx a nq blk g0 b d sl = .formed t b1 en n) : TileKeeps t := by
  unfold groupTile at h
  split at h
  · cases h
  · cases h; exact hd

/-- The next tile of a block leaves every engine as it was, when its fills and its drain are applied to any state. -/
theorem nextTile_keeps {s : State} {e n : Nat} {b b1 : BlockRun} {d : TileDone} {en : Bool} (h : nextTile s e b = .formed d b1 en n) :
    TileKeeps d := by
  unfold nextTile at h
  split at h
  · cases h
  · split at h
    · unfold attendTile at h
      dsimp only at h
      split at h
      · exact groupTile_keeps ⟨fun _ => rfl, fun _ => rfl⟩ h
      · split at h
        · cases h
        · split at h
          · cases h
          · cases h
          · split at h
            · cases h
            · rename_i ht
              split at h
              · cases h; exact attnTile_keeps ht
              · split at h
                · cases h; exact attnTile_keeps ht
                · exact groupTile_keeps (attnTile_keeps ht) h
    · unfold plainTile at h
      dsimp only at h
      split at h
      · split at h
        · cases h
        · rename_i ht; cases h; exact convTile_keeps ht
      · split at h
        · cases h
        · rename_i ht; cases h; exact planTile_keeps ht

end Sys2Proof.Laws
end

