-- ==== Sys2Proof/Tests/Slice0.lean ====
section
/-! SUPPORT. Tests: well-formedness refuses each ill-formed term, words of drover instructions written out from the spec's
formats decode to their instructions, and states that meet the hypotheses of the statements, clause by clause. A test of a
witness names the statement it serves. -/

set_option Elab.async false

namespace Sys2Proof.Tests
open Sys2Proof Sys2Proof.Machine Sys2Proof.Safety

/-! ## Small states -/

/-- A test on the result of a run. -/
def after (c : Instr) (s : State) (f : State → Bool) : Bool :=
  match exec c s with
  | .next t => f t
  | _ => false

/-- Drover 0 at a word, with registers. -/
def atWord (w : Word) (x : List (Nat × Word)) (v : List (Nat × BitVec 256)) (fl : BitVec 5) : State :=
  { State.reset with comp := {
      drovers := [(0, { x := x, v := v, st := .running, fflags := fl })]
      groups := [(0, { queue := some 0, codeBytes := 64, count := 64, tag := 7 })]
      istore := ((upFrom 0 4).zip (leBytes 4 w.toNat)).filter (fun p => p.2 ≠ 0) } }

/-- Drover 0 with instruction i next: a state in canonical form. -/
def atInstr (i : Instr) (x : List (Nat × Word)) (v : List (Nat × BitVec 256)) : State :=
  match drvEncode i with
  | some w => atWord w x v 0
  | none => State.reset

/-- The premises that the drover statements share. -/
def goesOn (i : Instr) (s : State) : Bool := s.wf && drvNext s 0 i

/-- Registers x1 and x2. -/
def xs (a b : Word) : List (Nat × Word) := [(1, a), (2, b)].filter (fun p => p.2 ≠ 0)

/-- The bytes that are not zero, by address. -/
def cellsOf (a : Nat) (bs : List Byte) : List (Nat × Byte) := ((upFrom a bs.length).zip bs).filter (fun p => p.2 ≠ 0)

/-- A packet of `len` slots: header, then fields as (offset, bytes, value). -/
def pkt (op len seq : Nat) (fs : List (Nat × Nat × Nat)) : List Byte :=
  fs.foldl (fun b f => putAt b f.1 (leBytes f.2.1 f.2.2))
    (putAt (zeros (64 * len)) 0 (leBytes 1 op ++ [0] ++ leBytes 2 len ++ leBytes 4 7 ++ leBytes 8 seq))

/-! ## Well-formedness -/

/-- Each check of `Instr.wf` refuses a term that breaks only it. -/
theorem test_ill_formed_scalar : (
    [Instr.clz 0 ⟨1, 2, 3⟩, .popc 0 ⟨1, 2, 3⟩, .fsqrt 0 ⟨1, 2, 3⟩, .fcvtws 0 ⟨1, 2, 3⟩, .fcvtsw 0 ⟨1, 2, 3⟩, .jalr 0 ⟨1, 2, 3⟩,
     .csrr 0 ⟨1, 0, 10⟩, .csrw 0 ⟨0, 1, 6⟩, .mlaunch 0 ⟨1, 2, 1⟩, .mpoll 0 ⟨1, 2, 1⟩, .brk 0 ⟨1, 0, 0⟩, .brk 0 ⟨0, 1, 0⟩,
     .brk 0 ⟨0, 0, 1⟩, .halt 0 ⟨1, 0, 0⟩, .halt 0 ⟨0, 1, 0⟩, .halt 0 ⟨0, 0, 1⟩, .lui 0 ⟨1, 1, 5⟩, .tsig 0 ⟨0, 1, 2, 5⟩,
     .twait 0 ⟨0, 1, 2, 5⟩, .tbar 0 ⟨0, 1, 2, 5⟩, .tread 0 ⟨1, 1, 0, 5⟩, .tread 0 ⟨1, 1, 2, 0⟩, .droverFence 0 ⟨0, 0, 0, 5⟩,
     .droverFence 0 ⟨1, 0, 0, 0⟩, .droverFence 0 ⟨0, 1, 0, 0⟩, .droverFence 0 ⟨0, 0, 1, 0⟩, .vld 0 ⟨1, 2, 1, 0⟩,
     .vst 0 ⟨1, 2, 1, 0⟩, .packetFetch 0 (zeros 63), .packetFetch 0 []]).all (fun i => !i.wf) = true := by decide

theorem test_ill_formed_vector : (
    [Instr.vaddFp 0 ⟨1, 2, 3, 0, 3⟩, .vaddFp 0 ⟨1, 2, 3, 1, 0⟩, .vsubFp 0 ⟨1, 2, 3, 0, 3⟩, .vsubFp 0 ⟨1, 2, 3, 1, 0⟩,
     .vmulFp 0 ⟨1, 2, 3, 0, 3⟩, .vmulFp 0 ⟨1, 2, 3, 1, 0⟩, .vfma 0 ⟨1, 2, 3, 0, 3⟩, .vminFp 0 ⟨1, 2, 3, 0, 3⟩,
     .vminFp 0 ⟨1, 2, 3, 1, 0⟩, .vmaxFp 0 ⟨1, 2, 3, 0, 3⟩, .vmaxFp 0 ⟨1, 2, 3, 1, 0⟩, .vabs 0 ⟨1, 2, 0, 0, 3⟩,
     .vabs 0 ⟨1, 2, 1, 0, 0⟩, .vabs 0 ⟨1, 2, 0, 1, 0⟩, .vneg 0 ⟨1, 2, 0, 0, 3⟩, .vneg 0 ⟨1, 2, 1, 0, 0⟩,
     .vneg 0 ⟨1, 2, 0, 1, 0⟩, .vcmpeqFp 0 ⟨1, 2, 3, 0, 3⟩, .vcmpltFp 0 ⟨1, 2, 3, 0, 3⟩, .vcmple 0 ⟨1, 2, 3, 0, 3⟩,
     .vexp2 0 ⟨1, 2, 0, 0, 3⟩, .vexp2 0 ⟨1, 2, 1, 0, 0⟩, .vexp2 0 ⟨1, 2, 0, 1, 0⟩, .vlog2 0 ⟨1, 2, 0, 0, 3⟩,
     .vlog2 0 ⟨1, 2, 1, 0, 0⟩, .vlog2 0 ⟨1, 2, 0, 1, 0⟩, .vrcp 0 ⟨1, 2, 0, 0, 3⟩, .vrcp 0 ⟨1, 2, 1, 0, 0⟩,
     .vrcp 0 ⟨1, 2, 0, 1, 0⟩, .vrsqrt 0 ⟨1, 2, 0, 0, 3⟩, .vrsqrt 0 ⟨1, 2, 1, 0, 0⟩, .vrsqrt 0 ⟨1, 2, 0, 1, 0⟩,
     .vaddInt 0 ⟨1, 2, 3, 0, 2⟩, .vsubInt 0 ⟨1, 2, 3, 0, 2⟩, .vmulInt 0 ⟨1, 2, 3, 0, 2⟩, .vaddsat 0 ⟨1, 2, 3, 0, 2⟩,
     .vminInt 0 ⟨1, 2, 3, 0, 2⟩, .vmaxInt 0 ⟨1, 2, 3, 0, 2⟩, .vcmpeqInt 0 ⟨1, 2, 3, 0, 2⟩, .vcmpltInt 0 ⟨1, 2, 3, 0, 2⟩,
     .vand 0 ⟨1, 2, 3, 0, 2⟩, .vor 0 ⟨1, 2, 3, 0, 2⟩, .vxor 0 ⟨1, 2, 3, 0, 2⟩, .vsel 0 ⟨1, 2, 3, 0, 2⟩, .vsll 0 ⟨1, 2, 3, 0, 2⟩,
     .vsrl 0 ⟨1, 2, 3, 0, 2⟩, .vsra 0 ⟨1, 2, 3, 0, 2⟩, .vrsum 0 ⟨1, 2, 0, 0, 3⟩, .vrmax 0 ⟨1, 2, 0, 0, 3⟩, .vrmin 0 ⟨1, 2, 0, 0, 3⟩,
     .vrmaxi 0 ⟨1, 2, 0, 0, 1⟩, .vradd 0 ⟨1, 2, 0, 0, 1⟩, .vsort 0 ⟨2, 2, 3, 0, 1⟩, .vsort 0 ⟨1, 2, 3, 0, 0⟩,
     .vcvt 0 ⟨1, 2, 0, 0, 1⟩, .vpack 0 ⟨1, 2, 3, 0, 0⟩, .vpack 0 ⟨1, 4, 3, 0, 1⟩, .vunpk 0 ⟨1, 2, 3, 0, 0⟩,
     .vunpk 0 ⟨4, 2, 3, 0, 1⟩]).all (fun i => !i.wf) = true := by decide

/-- VPERM and VROT take no type code 3 under either reading of their types (log 17). -/
theorem test_ill_formed_permute : (Instr.vperm 0 ⟨1, 2, 3, 0, 3⟩).wf = false ∧ (Instr.vrot 0 ⟨1, 2, 3, 0, 3⟩).wf = false := by
  constructor <;> (simp only [Instr.wf]; cases Config.permIntTypes <;> decide)

/-! ## Words of drover instructions, from the formats of R154 and the codes of R156 -/

/-- Format R: opcode, rd, rs1, rs2, func. ADD x3, x1, x2; DIV x3, x1, x2; FMUL x3, x1, x2. -/
theorem test_words_r :
    drvDecode 0 (0x00#6 ++ 3#5 ++ 1#5 ++ 2#5 ++ 0x000#11) = some (.addR 0 ⟨3, 1, 2⟩) ∧
    drvDecode 0 (0x00#6 ++ 3#5 ++ 1#5 ++ 2#5 ++ 0x018#11) = some (.divR 0 ⟨3, 1, 2⟩) ∧
    drvDecode 0 (0x08#6 ++ 3#5 ++ 1#5 ++ 2#5 ++ 0x002#11) = some (.fmul 0 ⟨3, 1, 2⟩) ∧
    drvDecode 0 0#32 = some (.addR 0 ⟨0, 0, 0⟩) := by decide +kernel

/-- Formats I, B, J and the shift-immediate form: LH x3, −4(x1); SRAI x3, x1, 31; BLT x1, x2, −2; JAL −1; LUI x3, 0x8000. -/
theorem test_words_i :
    drvDecode 5 (0x11#6 ++ 3#5 ++ 1#5 ++ 0xFFFC#16) = some (.lh 5 ⟨3, 1, 0xFFFC⟩) ∧
    drvDecode 5 (0x06#6 ++ 3#5 ++ 1#5 ++ 2#2 ++ 0#9 ++ 31#5) = some (.srai 5 ⟨3, 1, 31⟩) ∧
    drvDecode 5 (0x06#6 ++ 3#5 ++ 1#5 ++ 3#2 ++ 0#9 ++ 31#5) = none ∧
    drvDecode 5 (0x1A#6 ++ 1#5 ++ 2#5 ++ 0xFFFE#16) = some (.blt 5 ⟨1, 2, 0xFFFE⟩) ∧
    drvDecode 5 (0x1E#6 ++ 0x3FFFFFF#26) = some (.jal 5 0x3FFFFFF) ∧
    drvDecode 5 (0x07#6 ++ 3#5 ++ 0#5 ++ 0x8000#16) = some (.lui 5 ⟨3, 0, 0x8000⟩) ∧
    drvDecode 5 (0x07#6 ++ 3#5 ++ 1#5 ++ 0x8000#16) = none := by decide +kernel

/-- The system opcode: TSIG x1, x2 at scope 3; HALT; BRK; MPOLL x3, x1; CSRW FFLAGS, x1; a scope code that is not listed. -/
theorem test_words_system :
    drvDecode 0 (0x1F#6 ++ 0#5 ++ 1#5 ++ 2#5 ++ 3#3 ++ 0x10#8) = some (.tsig 0 ⟨0, 1, 2, 3⟩) ∧
    drvDecode 0 (0x1F#6 ++ 0#5 ++ 0#5 ++ 0#5 ++ 0x03F#11) = some (.halt 0 ⟨0, 0, 0⟩) ∧
    drvDecode 0 (0x1F#6 ++ 0#5 ++ 0#5 ++ 0#5 ++ 0x03E#11) = some (.brk 0 ⟨0, 0, 0⟩) ∧
    drvDecode 0 (0x1F#6 ++ 3#5 ++ 1#5 ++ 0#5 ++ 0x031#11) = some (.mpoll 0 ⟨3, 1, 0⟩) ∧
    drvDecode 0 (0x1F#6 ++ 0#5 ++ 1#5 ++ 7#5 ++ 0x002#11) = some (.csrw 0 ⟨0, 1, 7⟩) ∧
    drvDecode 0 (0x1F#6 ++ 0#5 ++ 1#5 ++ 2#5 ++ 5#3 ++ 0x10#8) = none := by decide +kernel

/-- Formats V, X, C, P and VM: VFMA.BF16 v1, v2, v3, v4; VSUB.INT16 v1, v2, v3; VINS.INT16 v1[9], x5; VCVT FP32 to E4M3, part 3;
VUNPK v4, v2, x3; VSCAT v1, 32(x2), v3. -/
theorem test_words_v :
    drvDecode 0 (0x20#6 ++ 1#4 ++ 2#4 ++ 3#4 ++ 4#4 ++ 1#2 ++ 0x03#8) = some (.vfma 0 ⟨1, 2, 3, 4, 1⟩) ∧
    drvDecode 0 (0x21#6 ++ 1#4 ++ 2#4 ++ 3#4 ++ 0#4 ++ 1#2 ++ 0x01#8) = some (.vsubInt 0 ⟨1, 2, 3, 0, 1⟩) ∧
    drvDecode 0 (0x22#6 ++ 1#4 ++ 0#4 ++ 5#5 ++ 9#5 ++ 1#2 ++ 0x01#6) = some (.vins 0 ⟨1, 0, 5, 9, 1⟩) ∧
    drvDecode 0 (0x23#6 ++ 2#4 ++ 4#4 ++ 6#4 ++ 0#4 ++ 0#2 ++ 0x12#8) = some (.vsort 0 ⟨2, 4, 6, 0, 0⟩) ∧
    drvDecode 0 (0x25#6 ++ 1#4 ++ 2#4 ++ 0#4 ++ 3#4 ++ 3#2 ++ 0#8) = some (.vcvt 0 ⟨1, 2, 0, 3, 3⟩) ∧
    drvDecode 0 (0x27#6 ++ 4#4 ++ 2#4 ++ 3#5 ++ 0#4 ++ 0#1 ++ 0#8) = some (.vunpk 0 ⟨4, 2, 3, 0, 0⟩) ∧
    drvDecode 0 (0x28#6 ++ 1#4 ++ 2#5 ++ 3#4 ++ 3#3 ++ 1#10) = some (.vscat 0 ⟨1, 2, 3, 1⟩) := by decide +kernel

/-! ## Drovers: witnesses -/

/-- The witness of the statements over rows of format R: each has its word next, in a canonical state, and writes x3. -/
theorem test_witness_integer_rows : aluRows.all (fun row =>
    let i := row.1 0 ⟨3, 1, 2⟩
    let s := atInstr i (xs 0x80000000 0xFFFFFFFF) []
    goesOn (if i.wf then i else row.1 0 ⟨3, 1, 0⟩) (if i.wf then s else atInstr (row.1 0 ⟨3, 1, 0⟩) (xs 9 0) [])) = true := by
  decide +kernel

theorem test_divide : after (.divR 0 ⟨3, 1, 2⟩) (atInstr (.divR 0 ⟨3, 1, 2⟩) (xs 0x80000000 0xFFFFFFFF) [])
      (fun t => getX t 0 3 = 0x80000000 && (getDrv t 0).pc = 4) = true ∧
    after (.remR 0 ⟨3, 1, 2⟩) (atInstr (.remR 0 ⟨3, 1, 2⟩) (xs 0xFFFFFFF9 0) []) (fun t => getX t 0 3 = 0xFFFFFFF9) = true ∧
    after (.divu 0 ⟨3, 1, 2⟩) (atInstr (.divu 0 ⟨3, 1, 2⟩) (xs 7 0) []) (fun t => getX t 0 3 = 0xFFFFFFFF) = true ∧
    after (.addR 0 ⟨0, 1, 2⟩) (atInstr (.addR 0 ⟨0, 1, 2⟩) (xs 7 5) []) (fun t => getX t 0 0 = 0) = true := by
  decide +kernel

theorem test_witness_scalar_rows :
    immRows.all (fun row => let i := row.1 0 ⟨3, if (row.1 0 ⟨3, 1, 0xFFFF⟩).wf then 1 else 0, 0xFFFF⟩
      goesOn i (atInstr i (xs 1 2) [])) = true ∧
    shiftRows.all (fun row => goesOn (row.1 0 ⟨3, 1, 31⟩) (atInstr (row.1 0 ⟨3, 1, 31⟩) (xs 1 2) [])) = true ∧
    fpRows.all (fun row => let i := row.1 0 ⟨3, 1, if (row.1 0 ⟨3, 1, 2⟩).wf then 2 else 0⟩
      goesOn i (atInstr i (xs 0x3F800000 0x40000000) [])) = true ∧
    goesOn (.fma 0 ⟨3, 1, 2⟩) (atInstr (.fma 0 ⟨3, 1, 2⟩) (xs 1 2) []) = true ∧
    branchRows.all (fun row => goesOn (row.1 0 ⟨1, 2, 0xFFFF⟩) (atInstr (row.1 0 ⟨1, 2, 0xFFFF⟩) (xs 1 2) [])) = true ∧
    goesOn (.jal 0 2) (atInstr (.jal 0 2) [] []) = true ∧
    goesOn (.jalr 0 ⟨1, 1, 0⟩) (atInstr (.jalr 0 ⟨1, 1, 0⟩) (xs 7 0) []) = true := by decide +kernel

theorem test_branches :
    after (.blt 0 ⟨1, 2, 4⟩) (atInstr (.blt 0 ⟨1, 2, 4⟩) (xs 0xFFFFFFFF 1) []) (fun t => (getDrv t 0).pc = 16) = true ∧
    after (.bltu 0 ⟨1, 2, 4⟩) (atInstr (.bltu 0 ⟨1, 2, 4⟩) (xs 0xFFFFFFFF 1) []) (fun t => (getDrv t 0).pc = 4) = true ∧
    after (.jalr 0 ⟨1, 1, 0⟩) (atInstr (.jalr 0 ⟨1, 1, 0⟩) (xs 0x4B 0) []) (fun t => (getDrv t 0).pc = 0x48 && getX t 0 1 = 4) = true ∧
    after (.jal 0 0x3FFFFFF) (atInstr (.jal 0 0x3FFFFFF) [] []) (fun t => (getDrv t 0).pc = 0xFFFFFFFC && getX t 0 31 = 4) = true := by
  decide +kernel

theorem test_fp32 :
    after (.fadd 0 ⟨3, 1, 2⟩) (atInstr (.fadd 0 ⟨3, 1, 2⟩) (xs 0x3F800000 0x40000000) []) (fun t => getX t 0 3 = 0x40400000) = true ∧
    after (.feq 0 ⟨3, 1, 2⟩) (atInstr (.feq 0 ⟨3, 1, 2⟩) (xs 0x7FC00000 0x7FC00000) []) (fun t => getX t 0 3 = 0) = true ∧
    after (.fcvtsw 0 ⟨3, 1, 0⟩) (atInstr (.fcvtsw 0 ⟨3, 1, 0⟩) (xs 0xFFFFFFFF 0) []) (fun t => getX t 0 3 = 0xBF800000) = true ∧
    after (.fcvtws 0 ⟨3, 1, 0⟩) (atInstr (.fcvtws 0 ⟨3, 1, 0⟩) (xs 0x40200000 0) []) (fun t => getX t 0 3 = 2) = true := by
  decide +kernel

/-- Addresses of the regions of the drover window at their last place, and just past each (R145). -/
def okAddrs (n : Nat) : List Nat := [0x800 - n, 0x10080000 - n, 0x20800000 - n]
def badAddrs : List Nat := [0x800, 0xFFFFFE0, 0x10080000, 0x20800000, 0x30008000]

/-- A read is readable, or a store writable, as the statements ask. -/
def readableB (s : State) (d addr n : Nat) : Bool :=
  decide (addr % n = 0) && (match winPlace d addr with | .loc _ | .istore _ => true | .mem ga => (badBurst s ga n).isNone | .outside => false)
def writableB (d addr n : Nat) : Bool :=
  decide (addr % n = 0) && (match winPlace d addr with | .loc _ | .mem _ => true | _ => false)
theorem readable_of {s : State} {d addr n : Nat} (h : readableB s d addr n = true) : Readable s d addr n := by
  unfold readableB at h; unfold Readable
  revert h; cases winPlace d addr <;> simp
theorem writable_of {d addr n : Nat} (h : writableB d addr n = true) : Writable d addr n := by
  unfold writableB at h; unfold Writable
  revert h; cases winPlace d addr <;> simp

theorem test_witness_loads : loadRows.all (fun row => ((0x30008000 - row.2.1) :: okAddrs row.2.1).all (fun a =>
    let i := row.1 0 ⟨3, 1, 0⟩
    let s := atInstr i (xs (BitVec.ofNat 32 a) 0) []
    goesOn i s && decide ((getX s 0 1 + (0 : BitVec 16).signExtend 32).toNat = a) && readableB s 0 a row.2.1)) = true := by
  decide +kernel

theorem test_witness_stores : storeRows.all (fun row => (okAddrs row.2).all (fun a =>
    let i := row.1 0 ⟨2, 1, 0⟩
    goesOn i (atInstr i (xs (BitVec.ofNat 32 a) 0xABCD) []) && writableB 0 a row.2)) = true := by decide +kernel

theorem test_store : after (.sh 0 ⟨2, 1, 0xFFFE⟩) (atInstr (.sh 0 ⟨2, 1, 0xFFFE⟩) (xs 0x102 0xABCD) [])
      (fun t => lstoreBytes t 0 0xFF 4 = [0, 0xCD, 0xAB, 0]) = true ∧
    after (.sw 0 ⟨2, 1, 0⟩) (atInstr (.sw 0 ⟨2, 1, 0⟩) (xs 0x2007FFFC 0xABCD) [])
      (fun t => memBytes t (seraiAddr 0 0x7FFFC) 4 = [0xCD, 0xAB, 0, 0] && t.frozen.isEmpty) = true ∧
    after (.lb 0 ⟨3, 1, 0⟩) (atInstr (.lb 0 ⟨3, 1, 0⟩) (xs 0x30000002 0) []) (fun t => getX t 0 3 = 0x61) = true := by
  decide +kernel

/-- Faults: misaligned, outside, and a store to the instruction store; a break; an illegal word; a fetch past the image. -/
theorem test_witness_faults :
    (loadRows.all (fun row => (if row.2.1 = 1 then badAddrs else 1 :: badAddrs).all (fun a =>
      let i := row.1 0 ⟨3, 1, 0⟩
      goesOn i (atInstr i (xs (BitVec.ofNat 32 a) 0) []) && (decide (a % row.2.1 ≠ 0) || decide (winPlace 0 a = .outside))))) = true ∧
    (storeRows.all (fun row => (0x30000000 :: badAddrs).all (fun a =>
      let i := row.1 0 ⟨2, 1, 0⟩
      goesOn i (atInstr i (xs (BitVec.ofNat 32 a) 0) []) && !writableB 0 a row.2))) = true ∧
    goesOn (.vst 0 ⟨1, 1, 0, 0⟩) (atInstr (.vst 0 ⟨1, 1, 0, 0⟩) (xs 0x10 0) []) = true ∧ writableB 0 0x10 32 = false ∧
    goesOn (.brk 0 ⟨0, 0, 0⟩) (atInstr (.brk 0 ⟨0, 0, 0⟩) [] []) = true ∧
    (let s := atWord (0x3F#6 ++ 0#26) [] [] 0; s.wf && drvReady s 0 && fetchIn s 0 && decide (drvDecode 0 (wordAtPc s 0) = none)) = true ∧
    (let s := { State.reset with comp := { drovers := [(0, { st := .running, pc := 64 })], groups := [(0, { codeBytes := 64 })] } }
     s.wf && drvReady s 0 && decide ((getGrp s 0).codeBytes ≤ (getDrv s 0).pc.toNat)) = true := by decide +kernel

theorem test_fault_freezes :
    after (.lw 0 ⟨3, 1, 0⟩) (atInstr (.lw 0 ⟨3, 1, 0⟩) (xs 2 0) []) (fun t => isFrozen t 2 0 && (getDrv t 0).pc = 0) = true ∧
    after (.brk 0 ⟨0, 0, 0⟩) (atInstr (.brk 0 ⟨0, 0, 0⟩) [] []) (fun t => isFrozen t 2 0) = true := by decide +kernel

theorem test_witness_control :
    (csrRows State.reset 0).all (fun row => goesOn (.csrr 0 ⟨3, 0, row.1⟩) (atInstr (.csrr 0 ⟨3, 0, row.1⟩) [] [])) = true ∧
    goesOn (.csrr 0 ⟨3, 0, 5⟩) (atInstr (.csrr 0 ⟨3, 0, 5⟩) [] []) = true ∧
    goesOn (.csrw 0 ⟨0, 1, 7⟩) (atInstr (.csrw 0 ⟨0, 1, 7⟩) (xs 0x1F 0) []) = true ∧
    goesOn (.droverFence 0 ⟨0, 0, 0, 4⟩) (atInstr (.droverFence 0 ⟨0, 0, 0, 4⟩) [] []) = true ∧
    goesOn (.halt 0 ⟨0, 0, 0⟩) (atInstr (.halt 0 ⟨0, 0, 0⟩) [] []) = true ∧
    goesOn (.mpoll 0 ⟨3, 1, 0⟩) (atInstr (.mpoll 0 ⟨3, 1, 0⟩) (xs 3 0) []) = true ∧
    (getEng (atInstr (.mpoll 0 ⟨3, 1, 0⟩) (xs 3 0) []) 0).slots[3]? = some ({} : LaunchSlot) := by decide +kernel

/-- A state with tally 5 of context 0 mapped. -/
def withTally (s : State) (y : Tally) : State := { s with sync := { s.sync with tallies := [(tallyKey 0 5, y)] } }
def tally0 : Tally := ⟨3, 100, 0, 0, 0, false, false, false, false, 0, 0, 0, 0, 0, 0⟩

theorem test_witness_drover_tallies :
    ([Instr.tsig 0 ⟨0, 1, 2, 2⟩, .twait 0 ⟨0, 1, 2, 2⟩, .tbar 0 ⟨0, 1, 2, 2⟩, .tread 0 ⟨3, 1, 0, 2⟩].all (fun i =>
      [1, 255].all (fun n =>
        let s := withTally (atInstr i (xs 5 n) []) tally0
        goesOn i s && (getTally s 0 5).isSome && (opDone s (.drover 0) (getDrv s 0).ord).isNone))) = true ∧
    ([(0x10000, 1), (5, 256), (5, 0)].all (fun p => goesOn (.tsig 0 ⟨0, 1, 2, 2⟩) (atInstr (.tsig 0 ⟨0, 1, 2, 2⟩) (xs p.1 p.2) []))) = true ∧
    ([Instr.twait 0 ⟨0, 1, 2, 2⟩, .tbar 0 ⟨0, 1, 2, 2⟩, .tread 0 ⟨3, 1, 0, 2⟩].all
      (fun i => goesOn i (atInstr i (xs 0x10000 1) []))) = true := by decide +kernel

theorem test_tsig : after (.tsig 0 ⟨0, 1, 2, 2⟩) (withTally (atInstr (.tsig 0 ⟨0, 1, 2, 2⟩) (xs 5 9) []) tally0)
    (fun t => (t.sync.flight.map (fun o => (o.code, o.vid, o.scope, o.amount)) = [(8, 5, 2, 9)]) && (getDrv t 0).st = .waiting) = true := by
  decide +kernel

theorem test_witness_mlaunch :
    let p := pkt 8 4 0 []
    let s0 := atInstr (.mlaunch 0 ⟨3, 1, 0⟩) (xs 0x700 0) []
    let s := { s0 with comp := { s0.comp with lstore := cellsOf 0x700 p } }
    let full := modEng s 0 (fun g => { g with slots := List.replicate 4 { state := 1 } })
    (goesOn (.mlaunch 0 ⟨3, 1, 0⟩) s && decide (fieldAt (lstoreBytes s 0 0x700 4) 2 2 = 4) && (imageCheck s 0 p).isNone &&
      decide (lstoreBytes s 0 0x700 256 = p) && decide ((getEng s 0).slots[3]? = some ({} : LaunchSlot))) = true ∧
    (goesOn (.mlaunch 0 ⟨3, 1, 0⟩) full && (imageCheck full 0 p).isNone && (getEng full 0).slots.all (fun x => x.state ≠ 0)) = true := by
  decide +kernel

theorem test_witness_vector_rows :
    vfp2Rows.all (fun row => let i := row.1 0 ⟨1, 2, 3, 0, 2⟩
      goesOn i (atInstr i [] [(2, 0x3C00), (3, 0x3C00)])) = true ∧
    vfp1Rows.all (fun row => let i := row.1 0 ⟨1, 2, 0, 0, 1⟩
      goesOn i (atInstr i [] [(2, 0x3F80)])) = true ∧
    goesOn (.vfma 0 ⟨1, 2, 3, 4, 2⟩) (atInstr (.vfma 0 ⟨1, 2, 3, 4, 2⟩) [] []) = true ∧
    vintRows.all (fun row => let i := row.1 0 ⟨1, 2, 3, 0, 1⟩
      goesOn i (atInstr i [] [(2, 0x80), (3, 0xFF)])) = true ∧
    goesOn (.vsel 0 ⟨1, 2, 3, 4, 0⟩) (atInstr (.vsel 0 ⟨1, 2, 3, 4, 0⟩) [] []) = true ∧
    goesOn (.vradd 0 ⟨1, 2, 0, 0, 0⟩) (atInstr (.vradd 0 ⟨1, 2, 0, 0, 0⟩) [] []) = true ∧
    reduceRows.all (fun row => let i := row.1 0 ⟨1, 2, 0, 0, 2⟩
      goesOn i (atInstr i [] [])) = true ∧
    goesOn (.vrmaxi 0 ⟨1, 2, 0, 0, 0⟩) (atInstr (.vrmaxi 0 ⟨1, 2, 0, 0, 0⟩) [] []) = true ∧
    goesOn (.vsort 0 ⟨2, 3, 4, 0, 0⟩) (atInstr (.vsort 0 ⟨2, 3, 4, 0, 0⟩) [] []) = true := by decide +kernel

/-- VPERM and VROT are listed with type code 0 under either reading (log 17). -/
theorem test_witness_permutes :
    goesOn (.vperm 0 ⟨1, 2, 3, 0, 0⟩) (atWord (0x23#6 ++ 1#4 ++ 2#4 ++ 3#4 ++ 0#4 ++ 0#2 ++ 0x10#8) [] [] 0) = true ∧
    goesOn (.vrot 0 ⟨1, 2, 0, 9, 0⟩) (atWord (0x23#6 ++ 1#4 ++ 2#4 ++ 0#4 ++ 9#4 ++ 0#2 ++ 0x11#8) [] [] 0) = true := by
  have h1 : drvDecode 0 (0x23#6 ++ 1#4 ++ 2#4 ++ 3#4 ++ 0#4 ++ 0#2 ++ 0x10#8) = legal (.vperm 0 ⟨1, 2, 3, 0, 0⟩) := rfl
  have h2 : drvDecode 0 (0x23#6 ++ 1#4 ++ 2#4 ++ 0#4 ++ 9#4 ++ 0#2 ++ 0x11#8) = legal (.vrot 0 ⟨1, 2, 0, 9, 0⟩) := rfl
  have go : ∀ (s : State) (w : Word) (i : Instr), s.wf = true → drvReady s 0 = true → fetchIn s 0 = true → wordAtPc s 0 = w →
      drvDecode 0 w = legal i → i.wf = true → goesOn i s = true := by
    intro s w i hw hr hf hp hd hi
    have e : drvDecode 0 (wordAtPc s 0) = some i := by rw [hp, hd, legal, if_pos hi]
    unfold goesOn drvNext
    rw [hw]
    show (true && (drvReady s 0 && fetchIn s 0 && decide (drvDecode 0 (wordAtPc s 0) = some i))) = true
    rw [hr, hf, e]; simp
  exact ⟨go _ _ _ (by decide +kernel) (by decide +kernel) (by decide +kernel) (by decide +kernel) h1 (by simp [Instr.wf]),
    go _ _ _ (by decide +kernel) (by decide +kernel) (by decide +kernel) (by decide +kernel) h2 (by simp [Instr.wf])⟩

theorem test_witness_lanes :
    [Instr.vsplat 0 ⟨1, 0, 5, 0, 2⟩, .vmov 0 ⟨1, 2, 0, 0, 0⟩, .vins 0 ⟨1, 0, 5, 15, 1⟩, .vins 0 ⟨1, 0, 5, 16, 1⟩,
     .vext 0 ⟨0, 2, 5, 31, 2⟩, .vext 0 ⟨0, 2, 5, 8, 0⟩].all (fun i => goesOn i (atInstr i [] [(2, 0x80 * 2 ^ 248)])) = true := by
  decide +kernel

theorem test_witness_conversions :
    ([(0, 0, 0), (3, 0, 3), (0, 3, 3), (10, 8, 3), (1, 2, 0), (4, 2, 1)].all (fun c =>
      let i := Instr.vcvt 0 ⟨1, 2, BitVec.ofNat 4 c.1, BitVec.ofNat 4 c.2.1, BitVec.ofNat 2 c.2.2⟩
      decide (cvtBits c.1 ≠ 0) && decide (cvtBits c.2.1 ≠ 0) && goesOn i (atInstr i [] [(2, 0x3F800000)]))) = true ∧
    ([(5, 0), (0, 15)].all (fun c =>
      let i := Instr.vcvt 0 ⟨1, 2, BitVec.ofNat 4 c.1, BitVec.ofNat 4 c.2, 0⟩
      (decide (cvtBits c.1 = 0) || decide (cvtBits c.2 = 0)) && goesOn i (atInstr i [] []))) = true ∧
    ((upFrom 0 16).all (fun k =>
      goesOn (.vpack 0 ⟨1, 4, 3, BitVec.ofNat 4 k, 0⟩) (atInstr (.vpack 0 ⟨1, 4, 3, BitVec.ofNat 4 k, 0⟩) [] []) &&
      goesOn (.vunpk 0 ⟨4, 1, 3, BitVec.ofNat 4 k, 0⟩) (atInstr (.vunpk 0 ⟨4, 1, 3, BitVec.ofNat 4 k, 0⟩) [] []))) = true := by
  decide +kernel

/-- A vector register whose eight lanes of 32 bits are 0 to 7. -/
def ramp : BitVec 256 := ofLanes 32 (upFrom 0 8)

theorem test_witness_vector_memory :
    ([0x7E0, 0x1007FFE0, 0x207FFFE0, 0x30007FE0].all (fun a =>
      goesOn (.vld 0 ⟨1, 1, 0, 0⟩) (atInstr (.vld 0 ⟨1, 1, 0, 0⟩) (xs (BitVec.ofNat 32 a) 0) []) &&
      readableB (atInstr (.vld 0 ⟨1, 1, 0, 0⟩) (xs (BitVec.ofNat 32 a) 0) []) 0 a 32 &&
      goesOn (.vgath 0 ⟨1, 1, 2, 0⟩) (atInstr (.vgath 0 ⟨1, 1, 2, 0⟩) (xs (BitVec.ofNat 32 a) 0) [(2, ramp)]) &&
      (upFrom 0 8).all (fun i => readableB State.reset 0 (a + 4 * i) 4))) = true ∧
    ([0x7E0, 0x1007FFE0, 0x207FFFE0].all (fun a =>
      goesOn (.vst 0 ⟨1, 1, 0, 0⟩) (atInstr (.vst 0 ⟨1, 1, 0, 0⟩) (xs (BitVec.ofNat 32 a) 0) []) && writableB 0 a 32 &&
      goesOn (.vscat 0 ⟨1, 1, 2, 0⟩) (atInstr (.vscat 0 ⟨1, 1, 2, 0⟩) (xs (BitVec.ofNat 32 a) 0) [(2, ramp)]) &&
      (upFrom 0 8).all (fun i => writableB 0 (a + 4 * i) 4))) = true ∧
    goesOn (.vgath 0 ⟨1, 1, 2, 0⟩) (atInstr (.vgath 0 ⟨1, 1, 2, 0⟩) (xs 0x7E4 0) [(2, ramp)]) = true ∧ winPlace 0 0x800 = .outside ∧
    goesOn (.vscat 0 ⟨1, 1, 2, 0⟩) (atInstr (.vscat 0 ⟨1, 1, 2, 0⟩) (xs 0x7E4 0) [(2, ramp)]) = true ∧ writableB 0 0x800 4 = false ∧
    (upFrom 0 8).map (fun i => lane 32 ramp.toNat i) = upFrom 0 8 := by decide +kernel

theorem test_vcvt_part : after (.vcvt 0 ⟨1, 2, 0, 3, 3⟩) (atInstr (.vcvt 0 ⟨1, 2, 0, 3, 3⟩) [] [(1, 5), (2, 0x3F800000)])
    (fun t => getV t 0 1 = BitVec.ofNat 256 (5 + 0x38 * 2 ^ 192)) = true := by decide +kernel

/-- A scatter stores lane i at its own address. -/
theorem test_scatter : after (.vscat 0 ⟨1, 1, 2, 0⟩) (atInstr (.vscat 0 ⟨1, 1, 2, 0⟩) (xs 0x100 0) [(1, ofLanes 32 (upFrom 1 8)), (2, ramp)])
    (fun t => lstoreBytes t 0 0x11C 4 = [8, 0, 0, 0]) = true := by decide +kernel

/-! ## Uncorrectable words -/

/-- Scratchpad word 0 of engine 0 with two flipped bits. -/
def badWord (s : State) : State := { s with mem := { s.mem with errors := [(spadAddr 0 0 / 8, 3)] } }

theorem test_witness_uncorrectable :
    (let s := badWord State.reset
     s.wf && wordBad s (spadAddr 0 0 / 8) && decide (placeOf s (spadAddr 0 0) = .scratch 0 0)) = true ∧
    (storeRows.all (fun row => let i := row.1 0 ⟨2, 1, 0⟩
      let s := badWord (atInstr i (xs 0x10000000 1) [])
      goesOn i s && decide (winPlace 0 0x10000000 = .mem (spadAddr 0 0)) && wordBad s (spadAddr 0 0 / 8))) = true ∧
    goesOn (.vst 0 ⟨1, 1, 0, 0⟩) (badWord (atInstr (.vst 0 ⟨1, 1, 0, 0⟩) (xs 0x10000000 1) [])) = true := by decide +kernel

theorem test_whole_word : after (.vst 0 ⟨1, 1, 0, 0⟩) (badWord (atInstr (.vst 0 ⟨1, 1, 0, 0⟩) (xs 0x10000000 1) []))
      (fun t => t.mem.errors.isEmpty) = true ∧
    after (.sw 0 ⟨2, 1, 0⟩) (badWord (atInstr (.sw 0 ⟨2, 1, 0⟩) (xs 0x10000000 1) []))
      (fun t => wordBad t (spadAddr 0 0 / 8) && t.out.isEmpty) = true := by decide +kernel

/-! ## A configured device -/

/-- One partition that holds everything: its pool is entries 0 to 4095, its streams 0 to 15, every channel and context. -/
def part0 : Partition where
  part := 0
  clusters := upFrom 0 80
  stackIds := upFrom 0 12
  ports := upFrom 0 16
  functions := upFrom 0 2
  ownerFn := 0
  droverRsv := 4
  accShare := 32
  lockEn := true
  lockGroup := 1
  powerShare := 1000
  tallyShare := 64
  poolFirst := 0
  poolCount := 4096
  frameBase := 0x1000000
  frames := 4
  frameUnits := 1024
  seqShare := 4
  streamFirst := 0
  streamCount := 16
  channels := upFrom 0 32
  contexts := upFrom 0 64

/-- An image with that partition. -/
def image0 : Image where
  serial := 1
  personality := 1
  pcieUse := 5
  rolrePorts := 0xFFFF
  fidPin := 0
  pulseEn := true
  cfgFn := 0
  capW := 3200
  dieLimitW := 1650
  clusterMap := []
  parts := [part0]
  queues := []
  contexts := []
  groups := []
  keys := []

/-- Context 0 maps virtual 0 to 2 MiB onto local 0x200000: its root, two tables and a leaf. -/
def tables : List (Nat × Byte) :=
  cellsOf 0x100000 (leBytes 8 0x110001) ++ cellsOf 0x110000 (leBytes 8 0x120001) ++ cellsOf 0x120000 (leBytes 8 0x20000F)

/-- The device with that image and that mapping. -/
def on : State := { State.reset with
  cfg := { State.reset.cfg with image := some image0, nullConfig := false }
  host := { State.reset.host with regs := [(0x700000, 0x100001)] }
  mem := { State.reset.mem with cells := tables } }

/-- A journal entry that has not issued. -/
def entry (p : List Byte) : JEntry := ⟨p, 0, .accepted, false, [], [], [], none⟩

/-- Packet p is the next one of queue 0. -/
def queued (s : State) (p : List Byte) : State :=
  { s with host := { s.host with queues := [(0, { journal := [entry p] })] } }

/-- Packet p of queue 0 is in execution with that work. -/
def running (s : State) (p : List Byte) (w : Work) (coll : Option Nat) (collDone : Bool) : State :=
  let r := { newRun s w with coll := coll, collDone := collDone }
  { s with host := { s.host with queues := [(0, { journal := [{ entry p with life := .issued }], run := some r })] } }

/-- What is read of memory of context 0 at a virtual address of its first 2 MiB. -/
def holding (s : State) (va : Nat) (bs : List Byte) : State := { s with mem := { s.mem with cells := s.mem.cells ++ cellsOf (0x200000 + va) bs } }

/-- The premises that the packet statements share. -/
def nextIs (s : State) (p : List Byte) : Bool := s.wf && decide (nextPacket s 0 = some p)

/-- A ring of four slots of 8 KiB in the scratchpad of each engine of cluster 0. -/
def rings0 (s : State) : State := { s with comp := { s.comp with
  rings := (upFrom 0 16).map (fun e => (16 * e, ({ mem := 1, slotBytes := 8192, slots := 4, states := [0, 0, 0, 0] } : Ring))) } }

theorem test_mapping : (match xRead on 0 0x1FFFFE 2 with | .ok l => l = [0, 0] | _ => false) = true ∧ on.wf = true ∧
    (match xRead on 0 0x200000 1 with | .error (.xlt 2 1 _ _) => true | _ => false) = true := by decide +kernel

/-- A TRANSFER of no elements, and of two bytes from 0x1000 to 0x3000 by cluster 0. -/
def xfer (more : List (Nat × Nat × Nat)) : List Byte := pkt 8 4 0 more
def xfer1 : List (Nat × Nat × Nat) := [(16, 8, 0x1000), (24, 8, 0x3000), (32, 4, 2), (36, 4, 1), (40, 4, 1), (44, 4, 1), (48, 4, 1), (52, 8, 1), (92, 8, 1)]
/-- The device takes a message of that source. -/
def hears (s : State) (src : Nat) : Bool := s.wf && s.dev.ready && s.dev.powered && !devFrozen s && !s.dev.failed && !isFrozen s 7 src

/-! ## Packets at issue: witnesses -/

/-- MATMUL and MATMUL_BATCHED of 32 × 32 × 32 FP8 elements, MATVEC of 4 × 256 × 32, CONV of 8 × 8 × 32 pixels, ATTEND of two
queries over one page of 16 elements, on cluster 0. -/
def matmul (op : Nat) (more : List (Nat × Nat × Nat)) : List Byte :=
  pkt op 4 1 ([(64, 4, 128), (72, 4, 32), (76, 4, 32), (80, 4, 32), (84, 4, 32), (88, 4, 32), (92, 4, 32), (96, 2, 32), (98, 2, 32),
    (100, 4, 0x30000000), (104, 4, 0x30000000), (112, 4, 0x200080), (116, 4, 0x8000), (120, 4, 0x40000)] ++ more)
def batched : List (Nat × Nat × Nat) := [(176, 4, 2), (180, 4, 2), (200, 8, 4096)]
def matvec (more : List (Nat × Nat × Nat)) : List Byte :=
  pkt 4 3 1 ([(64, 4, 1024), (72, 4, 4), (76, 4, 256), (80, 4, 32), (84, 4, 256), (88, 4, 32), (92, 2, 256), (96, 4, 0x30000000),
    (100, 4, 0x30000000), (108, 4, 0x200080), (112, 4, 0x8000), (116, 4, 0x40000)] ++ more)
def conv (more : List (Nat × Nat × Nat)) : List Byte :=
  pkt 5 4 1 ([(56, 4, 256), (60, 4, 32), (64, 4, 1024), (68, 4, 128), (80, 4, 8), (84, 4, 8), (88, 4, 32), (92, 4, 32), (96, 4, 8),
    (100, 4, 8), (104, 2, 8), (106, 2, 8), (108, 2, 32), (110, 2, 32), (112, 4, 0x11111100), (116, 2, 8), (118, 2, 8), (120, 2, 32),
    (124, 4, 0x30000000), (128, 4, 0x30000000), (136, 4, 0x200080), (140, 4, 0x8000), (144, 4, 0x40000)] ++ more)
def attend (more : List (Nat × Nat × Nat)) : List Byte :=
  pkt 3 4 1 ([(16, 8, 0x4000), (24, 8, 0x3000), (32, 8, 0x6000), (48, 8, 0x1000), (56, 8, 0x7000), (64, 8, 0x8000), (88, 8, 0x55),
    (128, 4, 32), (136, 4, 0), (140, 4, 2), (144, 4, 1), (148, 4, 2), (152, 4, 1), (156, 4, 0x808), (160, 4, 0x33300000),
    (172, 4, 0x20040000), (176, 2, 32), (180, 4, 0x8000), (184, 4, 0x40000)] ++ more)
/-- Its descriptor: the page is entry 0; two positions are appended. -/
def desc0 : List Byte := leBytes 8 0 ++ leBytes 4 0 ++ leBytes 2 2 ++ [0, 2] ++ zeros 16
/-- Queue 0 in batched mode. -/
def batchOn (s : State) : State := { s with host := { s.host with regs := [(0x100018, 0x00402100), (0x700000, 0x100001)] } }
/-- Sequence 0x55 of one page, which is FILLING in frame 0 with no position written, or as given. -/
def page0 : WayEntry := { slot := 0, layer := 0, head := 0, page := 0, gen := 1, kfmt := 3, fill := 0, state := 1, ships := 0, loc := 0 }
def seq0 : Sequence := ⟨0x55, 0, 0, 1, 1, 4, 0, 0, []⟩
def paged (s : State) (l : List (Nat × WayEntry)) : State :=
  { s with kv := { s.kv with sequences := [(0, seq0)], waybill := l.map (fun x => (x.1, wayWord x.2)) } }
/-- A group of three members of context 0 on channel 1. -/
def group1 : GroupEntry := ⟨[0x10, 0x11, 0x12], 0, 0, false, 0, 20, 0, 0, 5, [], []⟩
def grouped (s : State) : State := { s with conv := { s.conv with groups := [(1, group1)] } }
/-- A collective block at an offset. -/
def collAt (off opred ctype count : Nat) : List (Nat × Nat × Nat) := [(off, 1, 1), (off + 1, 1, opred), (off + 2, 1, ctype), (off + 8, 8, 0x9000), (off + 16, 4, count)]

def planGoes (s : State) (p : List Byte) : Bool :=
  nextIs s p && (planStatic s p (qCtx s 0) (qLatency s 0) (qBatched s 0) none).isNone &&
  (match planBounds s 0 (qCtx s 0) (planOf p) with | .ok _ _ => true | _ => false)
def convGoes (s : State) (p : List Byte) : Bool :=
  nextIs s p && (convStatic s p (qCtx s 0) none).isNone &&
  (match convBounds s 0 (qCtx s 0) (convOf p) with | .ok _ _ => true | _ => false)
def attnGoes (s : State) (p : List Byte) : Bool :=
  nextIs s p && (attnStatic s p (qCtx s 0)).isNone &&
  (match attnBounds s 0 (qCtx s 0) (attnOf p) with | .ok _ _ => true | _ => false)
/-- The collective block of a packet passes its checks, with its channel idle. -/
def collGoes (s : State) (p : List Byte) (shape : Nat) (region : Option Region) : Bool :=
  let b := collOf p (collOffset (pkOp p))
  !b.zero && !handing s 21 && (getGroup s b.group).isSome && (getConv s (b.group % 32)).ops.isEmpty &&
  (match readBound s 0 (qCtx s 0) shape b.count with | .ok n => (collCheck s (qCtx s 0) p n region).isNone | _ => false)
def attendState (p : List Byte) : State := queued (holding (paged (rings0 on) [(0, page0)]) 0x1000 desc0) p

theorem test_witness_compute_packets :
    planGoes (queued (rings0 on) (matmul 1 [])) (matmul 1 []) = true ∧
    planGoes (queued (batchOn (rings0 on)) (matmul 2 batched)) (matmul 2 batched) = true ∧
    planGoes (queued (rings0 on) (matvec [])) (matvec []) = true ∧
    convGoes (queued (rings0 on) (conv [])) (conv []) = true ∧
    attnGoes (attendState (attend [])) (attend []) = true ∧
    [collOf (matmul 1 []) 232, collOf (matmul 2 batched) 232, collOf (matvec []) 168, collOf (conv []) 232, collOf (attend []) 232].all (·.zero) = true := by
  decide +kernel

theorem test_witness_fused :
    (let p := matmul 1 (collAt 232 0x11 0 1024)
     let s := grouped (queued (rings0 on) p)
     planGoes s p && collGoes s p 0 (some (planRegion (planOf p) [32, 32, 32, 1] []))) = true ∧
    (let p := matmul 2 (batched ++ collAt 232 0x11 0 2048)
     let s := grouped (queued (batchOn (rings0 on)) p)
     planGoes s p && collGoes s p 0 (some (planRegion (planOf p) [32, 32, 32, 2] []))) = true ∧
    (let p := matvec (collAt 168 0x11 0 1024)
     let s := grouped (queued (rings0 on) p)
     planGoes s p && collGoes s p 0 (some (planRegion (planOf p) [4, 256, 32, 1] []))) = true ∧
    (let p := conv (collAt 232 0x11 0 2048)
     let s := grouped (queued (rings0 on) p)
     convGoes s p && collGoes s p 0 (some (convRegion (convOf p) [8, 8, 32, 32, 8, 8]))) = true ∧
    (let p := attend (collAt 232 0x03 0 256)
     let s := grouped (attendState p)
     attnGoes s p && collGoes s p 0 (some (attnRegion (attnOf p) 2))) = true := by decide +kernel

/-- A failed check: a reserved flag of the header is set. -/
def flagged (op len : Nat) (more : List (Nat × Nat × Nat)) : List Byte := pkt op len 1 ([(1, 1, 2)] ++ more)
def qs (p : List Byte) : State := queued on p

theorem test_witness_failed_checks :
    ([(1, 4), (2, 4), (4, 3)].all (fun o => nextIs (qs (flagged o.1 o.2 [])) (flagged o.1 o.2 []) &&
      (planStatic (qs (flagged o.1 o.2 [])) (flagged o.1 o.2 []) 0 false false none).isSome)) = true ∧
    (let p := flagged 5 4 []; nextIs (qs p) p && (convStatic (qs p) p 0 none).isSome) = true ∧
    (let p := flagged 3 4 []; nextIs (qs p) p && (attnStatic (qs p) p 0).isSome) = true ∧
    (let p := flagged 8 4 []; nextIs (qs p) p && (xferCheck (qs p) p 0 none).isSome) = true ∧
    (let p := flagged 9 1 []; nextIs (qs p) p && (ringCfgCheck (qs p) 0 p).isSome) = true ∧
    (let p := flagged 0x20 1 []; nextIs (qs p) p && (launchCheck (qs p) 0 p).isSome) = true ∧
    (let p := flagged 0x13 1 []; nextIs (qs p) p && (dumpCheck (qs p) 0 p).isSome) = true ∧
    (let p := flagged 0x38 1 []; nextIs (qs p) p && (snapCheck (qs p) 0 p).isSome) = true ∧
    (let p := flagged 0x39 1 []; nextIs (qs p) p && (freezeCheck (qs p) 0 p).isSome) = true ∧
    (collRows.all (fun row => let p := flagged 0x18 2 [(105, 1, row.2)]
      nextIs (qs p) p && decide ((collOf p 104).cop = row.2) && (collHead p).isSome)) = true ∧
    (let p := pkt 0x77 1 1 []; nextIs (qs p) p && (opLength (pkOp p)).isNone) = true := by decide +kernel

/-- COLLECTIVE packets of each operation over group 1: peer 1 and 2, a counts list at 0x1000, pages from a list at 0x2000. -/
def collP (cop : Nat) (more : List (Nat × Nat × Nat)) : List Byte :=
  pkt 0x18 2 1 ([(16, 8, 0x4000), (104, 1, 1), (105, 1, cop + (if cop ≤ 2 then 0x10 else 0)), (112, 8, 0x9000), (120, 4, 30),
    (124, 2, if 6 ≤ cop ∧ cop ≤ 9 then 1 else 0), (126, 2, if cop = 9 then 2 else 0)] ++
    (if cop = 5 then [(24, 8, 0x1000)] else []) ++ more)
def collBegins (p : List Byte) (cop : Nat) : Bool :=
  let s := grouped (qs p)
  nextIs s p && decide (pkOp p = 0x18) && decide ((collOf p 104).cop = cop) && (collHead p).isNone && collGoes s p 0 none
theorem test_witness_collectives :
    collRows.all (fun row => collBegins (collP row.2 []) row.2) = true ∧
    (match xRead (grouped (qs (collP 5 []))) 0 0x1000 12 with | .ok _ => true | _ => false) = true ∧
    (let p := collP 7 [(42, 1, 1), (120, 4, 1)]
     let s := grouped (queued (paged on [(0, page0)]) p)
     collBegins p 7 && (collPacketOf p).kind = 1 && (match xRead s 0 0x4000 4 with
       | .ok d => (pageFail s 0 ((words32 d).map (·.toNat))).isNone | _ => false)) = true := by decide +kernel

/-- SIGNAL, WAIT and BARRIER packets on tally 5, which is mapped. -/
def tsPkt (op mode amount : Nat) (more : List (Nat × Nat × Nat)) : List Byte :=
  pkt op 1 1 ([(16, 2, 5), (18, 1, mode), (20, 4, amount)] ++ more)
def freshP (p : List Byte) (op : Nat) : Bool :=
  let s := withTally (qs p) tally0
  nextIs s p && decide (pkOp p = op) && (headerCheck p).isNone && decide (fieldAt p 19 1 < 8) && (getTally s (qCtx s 0) 5).isSome &&
  decide (fieldAt p 27 37 = 0)
theorem test_witness_tally_packets :
    freshP (tsPkt 0x10 0 1 []) 0x10 = true ∧ freshP (tsPkt 0x10 1 0xFFFFFFFF []) 0x10 = true ∧
    (let p := tsPkt 0x10 0 1 [(24, 2, 0x8011), (26, 1, 1)]
     freshP p 0x10 && bitOf (fieldAt p 24 2) 15 && !bitOf (fieldAt p 24 2) 14) = true ∧
    freshP (tsPkt 0x11 0 0 []) 0x11 = true ∧ freshP (tsPkt 0x11 1 4 []) 0x11 = true ∧ freshP (tsPkt 0x12 0 4 []) 0x12 = true := by
  decide +kernel

/-- RING_CONFIG of a ring of engine 0: four slots of 4 KiB in the scratchpad. -/
def ringP (n : Nat) (more : List (Nat × Nat × Nat)) : List Byte :=
  pkt 0x09 1 1 ([(16, 4, 0x40000), (20, 2, 1), (22, 1, n), (23, 1, 1), (28, 4, 0x1000), (32, 1, 4)] ++ more)
theorem test_witness_waiting_packets :
    (let p := pkt 0x3E 1 1 [(16, 1, 4)]; nextIs (qs p) p && (headerCheck p).isNone && decide (fieldAt p 17 47 = 0)) = true ∧
    (let p := pkt 0x20 1 1 [(16, 8, 0x4000), (32, 4, 4), (40, 4, 0x40000), (44, 2, 1), (46, 1, 1)]
     nextIs (qs p) p && (launchCheck (qs p) 0 p).isNone) = true ∧
    (let p := pkt 0x13 1 1 [(16, 8, 0x4000), (24, 4, 0x1000)]; nextIs (qs p) p && (dumpCheck (qs p) 0 p).isNone) = true ∧
    (let p := ringP 0 []; nextIs (qs p) p && (ringCfgCheck (qs p) 0 p).isNone && !bitOf (fieldAt p 33 1) 0) = true ∧
    (let p := ringP 0 [(33, 1, 1), (34, 2, 5), (36, 2, 5)]
     let s := withTally (qs p) tally0
     nextIs s p && (ringCfgCheck s 0 p).isNone && bitOf (fieldAt p 33 1) 0 && decide (getTally s 0 5 = some tally0)) = true := by decide +kernel

theorem test_witness_packets_that_complete :
    (let p := pkt 0x3F 4 1 []; nextIs (qs p) p && (headerCheck p).isNone) = true ∧
    ([(0, 0), (1, 0), (2, 9), (3, 9)].all (fun f =>
      let p := pkt 0x30 1 1 [(17, 1, 6), (18, 1, f.1), (20, 4, 100), (24, 8, f.2)]
      nextIs (qs p) p && (headerCheck p).isNone && decide (fieldAt p 17 1 ≤ 6) && decide (fieldAt p 32 32 = 0))) = true ∧
    (let p := pkt 0x39 1 1 [(16, 8, 4)]
     let armed := fun (n : Stage) => { qs p with dev := { (qs p).dev with fstate := 1, fstage := n } }
     [qs p, armed 5, armed 4].all (fun s => nextIs s p && (freezeCheck s 0 p).isNone)) = true ∧
    (let p := pkt 0x39 1 1 []; nextIs (qs p) p && (freezeCheck (qs p) 0 p).isNone) = true ∧
    (let p := pkt 0x38 1 1 []; nextIs (qs p) p && (snapCheck (qs p) 0 p).isNone && decide (latchFrom (qs p) = 0)) = true ∧
    (let p := pkt 0x38 1 1 [(16, 8, 9)]
     let full := { qs p with fab := { (qs p).fab with snaps := List.replicate 16 ⟨3, 1⟩ } }
     nextIs (qs p) p && (snapCheck (qs p) 0 p).isNone && nextIs full p && (snapCheck full 0 p).isNone) = true := by decide +kernel

theorem test_freeze_at : (let p := pkt 0x39 1 1 [(16, 8, 4)]
    after (.freezeAt 0) (qs p) (fun t => t.dev.fstate = 1 && t.dev.fstage = 4 && (getQ t 0).journal.isEmpty)) = true := by decide +kernel

/-- A fetch of one slot of queue 0, whose tail is 1. -/
def fetching (acc : BitVec 64) : State := { on with host := { on.host with
  regs := [(0x100024, 0x80000000), (0x100040, 1), (0x700000, 0x100001)], queues := [(0, { accSeq := acc })].filter (fun _ => acc ≠ 0) } }
theorem test_witness_fetch : ([0, 1].all (fun a => let s := fetching a
      s.wf && mayFetch s 0 && decide (slotsReady s 0 = 1) && decide (fetchSlots s 0 (pkt 0x3F 1 1 []) = 1))) = true ∧
    after (.packetFetch 0 (pkt 0x3F 1 1 [])) (fetching 0) (fun t => (getQ t 0).journal.length = 1 && (getQ t 0).consumed = 1) = true ∧
    after (.packetFetch 0 (pkt 0x3F 1 1 [])) (fetching 1) (fun t => (getQ t 0).journal.isEmpty && (getQ t 0).dups = 1) = true := by
  decide +kernel

theorem test_witness_completion :
    ([0, 16].all (fun n => let p := pkt 0x3E 1 1 []
      let s0 := running on p .finished none true
      let s := modQ s0 0 (fun u => { u with run := u.run.map (fun r => { r with status := n }) })
      s.wf && devRuns s && decide (curPacket s 0 = some p) && acked s 0 && (match sealAll s 0 7 [] with | .done _ => true | _ => false))) = true := by
  decide +kernel

/-! ## Blocks, tiles, launches: witnesses -/

/-- Only queue 0 is listed: the others are empty. -/
theorem getQ_other {s : State} {u : Queue} (h : s.host.queues = [(0, u)]) {k : Nat} (hk : k ≠ 0) : getQ s k = {} := by
  unfold getQ
  rw [h]
  simp [tabGet, hk]
/-- A MATMUL of depth 0 and one element, whose one block is not yet placed, or runs on engine 0. -/
def tiny : List Byte := pkt 1 4 1 [(32, 8, 0x9000), (64, 4, 128), (72, 4, 1), (76, 4, 1), (84, 4, 1), (88, 4, 1), (92, 4, 1), (96, 2, 32), (98, 2, 32),
    (100, 4, 0x30000000), (104, 4, 0x30000000), (112, 4, 0x200080), (116, 4, 0x8000), (120, 4, 0x40000)]
def tinyRun (s : State) (todo : List Nat) (n : Nat) : State :=
  modQ (running s tiny (.blocks todo n) none true) 0 (fun u => { u with run := u.run.map (fun r => { r with bounds := [1, 1, 0, 1] }) })
def tinyBlock : BlockRun := ⟨.queue 0, 0, 0, 0, 0, [], false⟩
def tinyOn (s : State) : State := modEng (tinyRun s [] 1) 0 (fun g => { g with block := some tinyBlock, array := 2, form := 1 })
/-- Every engine of cluster 0 but engine 0 is retired. -/
def alone (s : State) : State := (upFrom 1 15).foldl (fun s e => modEng s e (fun g => { g with retired := true })) s

/-- The last premise of BlocksArePlaced holds by getQ_other: every other queue has nothing in execution. -/
theorem test_witness_placement :
    (let s := tinyRun on [0] 0
     s.wf && devRuns s && !handing s 23 && (match (getQ s 0).run with
       | some r => decide (nextPlacement s 0 r 0 = [(0, 0)]) | none => false) && decide (s.host.queues.length = 1)) = true ∧
    (let s := modEng on 0 (fun g => { g with array := 3 })
     let u := modEng on 1279 (fun g => { g with array := 1 })
     s.wf && devRuns s && decide ((getEng s 0).array = 3) && u.wf && decide ((getEng u 1279).array = 1) &&
       (getEng u 1279).block.isNone) = true := by decide +kernel

theorem test_block_placed : after (.blockPlace 0) (tinyRun on [0] 0) (fun t => (getEng t 0).block.isSome) = true := by decide +kernel

/-- What the tile statement asks of engine 0; `alone`, no other engine serves. -/
def tileGoes (s : State) (serves : Bool) : Bool :=
  s.wf && devRuns s && decide ((getEng s 0).block = some tinyBlock) && !heldBack s 0 (srcOf 1 0) 7 &&
  decide (otherServes s 0 = serves) && (!serves || engFree s 1) && decide (curPacket s 0 = some tiny) &&
  decide ((getEng s 0).mismatches = 0) &&
  (match nextTile s 0 tinyBlock with
    | .formed d b1 ended _ => ended && decide (b1.owner = .queue 0) && !writesFail s tinyBlock d && decide (d.fails = 0) &&
       (match xWriteAll (d.fill s) 0 d.writes with | .ok _ => true | _ => false) &&
       (match xWriteAll (d.fill (mismatchRecord (countMismatch s 0) 0 tinyBlock d 0 5 0xFFFFFFFF)) 0 d.writes with
        | .ok _ => true | _ => false)
    | _ => false)
theorem test_witness_tiles : tileGoes (tinyOn on) true = true ∧ tileGoes (alone (tinyOn on)) false = true := by decide +kernel

/-- An ATTEND of queue 0 in execution with append unit 0, whose descriptor is d. -/
def appending (s : State) (d : List Byte) : State :=
  modQ (running s (attend []) (.attend [0] [] 0) none true) 0 (fun u => { u with run := u.run.map (fun r => { r with bounds := [0, 2, 1], descs := [d] }) })
def descA : List Byte := putAt desc0 15 [6]
def appendGoes (s : State) (d : List Byte) : Bool :=
  s.wf && devRuns s && !heldBack s 0 (srcOf 3 0) 7 && decide (descIdx s (attnOf (attend [])) 0 d = some 0) &&
  decide (appendRange 0 2 d = (0, 2)) && (poolOf s 0).isSome && (seqOf s 0x55).isSome
theorem test_witness_append :
    ([(2, page0), (0, { page0 with state := 2 })].all (fun x => appendGoes (appending (paged on [(0, x.2)]) desc0) desc0)) = true ∧
    (let s := appending (paged on [(0, page0)]) desc0
     appendGoes s desc0 && decide (dAlloc desc0 = false ∧ (getWay s 0).state = 1 ∧ (getWay s 0).fill < 2) &&
     (match newRows s 0 (attnOf (attend [])) [] 0 0 0 2 with | .ok _ => true | _ => false) &&
     (match ropeTable s 0 (attnOf (attend [])) with | .ok l => l.isEmpty | _ => false)) = true ∧
    (let s := appending (paged on []) descA
     appendGoes s descA && dAlloc descA && decide ((getWay s 0).state = 0 ∧ framesFree s part0 ≠ 0 ∧ s.kv.stalls = [])) = true ∧
    (let s := appending (paged { on with cfg := { on.cfg with image := some { image0 with parts := [{ part0 with frames := 0 }] } } } []) descA
     appendGoes s descA && dAlloc descA && decide ((getWay s 0).state = 0 ∧ framesFree s { part0 with frames := 0 } = 0 ∧ s.kv.stalls = [])) = true := by
  decide +kernel
theorem test_append : after (.appendUnit 0) (appending (paged on [(0, page0)]) desc0) (fun t => (getWay t 0).fill = 2) = true := by decide +kernel

/-- A DROVER_LAUNCH on group 0 of cluster 0, and a group that has halted. -/
def launch0 : List Byte := pkt 0x20 1 1 [(16, 8, 0x4000), (32, 4, 4), (40, 4, 0x40000), (44, 2, 1), (46, 1, 1)]
theorem test_witness_launch :
    (let s := running on launch0 (.launch false false) none true
     s.wf && devRuns s && decide (curPacket s 0 = some launch0) && !isFrozen s 1 (qCtx s 0) && decide (launchList launch0 = [0]) &&
     decide ((getGrp s 0).queue = none) && !behindLaunch s 0 [0] &&
     (match xRead s 0 0x4000 4 with | .ok _ => true | _ => false) && (match xRead s 0 0 0 with | .ok _ => true | _ => false)) = true ∧
    ([false, true].all (fun cut => let s := { running on launch0 (.launch true false) none true with comp := { groups := [(0, { queue := some 0, discarded := cut })], drovers := (upFrom 0 16).map (fun d => (d, { st := .halted })) } }
     s.wf && devRuns s && launchOver s 0 && acked s 0 && decide (curPacket s 0 = some launch0))) = true ∧
    after (.droverLaunchStart 0) (running on launch0 (.launch false false) none true)
      (fun t => (getDrv t 15).st = .running && (getX t 15 1).toNat = 15) = true := by decide +kernel

/-- Engine 0 with one launched macro, waiting or in execution, whose group was launched by queue 0. -/
def slotted (s : State) (x : LaunchSlot) : State :=
  modEng (modGrp s 0 (fun g => { g with queue := some 0, count := 64 })) 0 (fun g => { g with slots := [x, {}, {}, {}] })
/-- The other three slots are FREE: they are neither in execution nor waiting. -/
def slotGoes (s : State) : Bool :=
  s.wf && devRuns s && engRuns s 0 && decide ((getEng s 0).quarantined = false ∧ (getEng s 0).block = none ∧ (getEng s 0).slots.drop 1 = [{}, {}, {}] ∧
    ownerQueue s (.slot 0 0) = 0 ∧ ownerCtx s (.slot 0 0) = 0) && !heldBack s 0 (srcOf 1 0) 7
def launched (p : List Byte) (off : Nat) : List Byte := putAt (putAt p 8 (zeros 8)) off (zeros 4)
theorem test_witness_slots :
    (let p := launched (matmul 1 []) 120
     let s := slotted (rings0 on) { state := 2, image := p, run := some (newRun on (.blocks [0] 0)) }
     slotGoes s) = true ∧
    ([launched (matmul 1 []) 120, launched (matvec []) 116, launched (matmul 2 batched) 120].all (fun p =>
     let s := slotted (batchOn (rings0 on)) { state := 1, image := p }
     slotGoes s && decide (pkOp p ∈ [1, 2, 4]) && (planStatic s p 0 (qLatency s 0) (qBatched s 0) (some [0])).isNone &&
     (match planBounds s 0 0 (planOf p) with | .ok l tb => decide (planBlocks (planOf p) l tb ≠ 0) | _ => false))) = true ∧
    (let p := launched (conv []) 144
     let s := slotted (rings0 on) { state := 1, image := p }
     slotGoes s && decide (pkOp p = 5) && (convStatic s p 0 (some [0])).isNone &&
     (match convBounds s 0 0 (convOf p) with | .ok l _ => decide (convBlocks (convOf p) l ≠ 0) | _ => false)) = true := by decide +kernel
theorem test_witness_slots_transfer : ([([], true), (xfer1, false)].all (fun x =>
    let p := xfer x.1
    let s := slotted on { state := 1, image := p }
    slotGoes s && decide (pkOp p = 8) && (xferCheck s p 0 (some 0)).isNone && decide ((xferOf p (some 0)).empty = x.2))) = true := by decide +kernel

/-! ## Pages, transfers, rings: witnesses -/

/-- KV_SEAL of an operation over the only page of sequence 0x55. -/
def sealP (op : Nat) (more : List (Nat × Nat × Nat)) : List Byte :=
  pkt 0x2A 1 1 ([(16, 6, 0x55), (22, 1, op)] ++ (if op = 4 then [] else [(26, 2, 1), (30, 2, 1), (36, 4, 1)]) ++ more)
def sealGoes (op : Nat) (p : List Byte) (e : WayEntry) : Bool :=
  let s := paged (queued on p) [(0, e)]
  nextIs s p && decide (pkOp p = 0x2A ∧ fieldAt p 22 1 = op) && (sealForm p).isNone && decide (seqOn s 0 0x55 = some (0, seq0)) &&
  (decide (op = 4) || (selCheck (selOf p) seq0).isNone) && decide (op = 4 ∨ selPages s 0 (selOf p) = [0]) &&
  decide ((seqPages s 0).map (·.1) = [0]) && decide (s.mem.errors = []) && (poolOf s 0).isSome && decide ((getWay s 0).ships = 0) &&
  !hasReader s 0 (some 0)
theorem test_witness_seal :
    sealGoes 0 (sealP 0 []) page0 = true ∧ sealGoes 1 (sealP 1 []) { page0 with state := 2 } = true ∧
    sealGoes 2 (sealP 2 [(44, 2, 2)]) { page0 with state := 2 } = true ∧ sealGoes 4 (sealP 4 []) { page0 with state := 2 } = true ∧
    (let p := sealP 3 [(40, 4, 7)]
     let s := queued on p
     nextIs s p && (sealForm p).isNone && openPlace s part0 p && decide (freeSlot s part0 = some 0) && decide (partOfCtx s 0 = some part0)) = true := by
  decide +kernel

/-- KV_SHIP of that page to stream 0, and KV_IMPORT of its record. -/
def shipP (w : Nat) : List Byte := pkt 0x28 2 1 [(16, 6, 0x55), (22, 2, w), (26, 2, 1), (30, 2, 1), (36, 4, 1), (40, 2, 9)]
def importP (n : Nat) : List Byte := pkt 0x29 1 1 [(16, 8, 0x1000), (24, 4, n), (28, 4, 0x4000), (32, 6, 0x55)]
def record0 : List Byte := leBytes 16 (0x55 + 2 ^ 96 + 11 * 2 ^ 112) ++ leBytes 4 0x11CE1505
theorem test_witness_ship : ([0x8000, 0xC000, 0xA000, 0xE000].all (fun w =>
      let p := shipP w
      let s := paged (queued on p) [(0, { page0 with state := 2 })]
      nextIs s p && (shipCheck s 0 p false).isNone && decide (seqOn s 0 0x55 = some (0, seq0)) &&
      (getQ s 0).journal.all (fun e => !e.shipped))) = true ∧
    (let p := shipP 0x4000
     let s := paged (queued on p) [(0, { page0 with state := 2 })]
     let s1 := modStream s 0 (fun x => { x with state := 1, destFid := 9, handle := 0x55, dockCtx := 0 })
     nextIs s1 p && (shipCheck s1 0 p false).isNone) = true ∧
    ([0, 1].all (fun n => let p := importP n
      let s := paged (holding (queued on p) 0x1000 record0) []
      nextIs s p && (headerCheck p).isNone && (rsvCheck p [rsvAll 38 2 15, sigRsv 40, sigRsv 44, rsvAll 48 16 15]).isNone &&
      (sigCheck p 40).isNone && (sigCheck p 44).isNone && decide (seqOn s 0 0x55 = some (0, seq0)))) = true := by decide +kernel
/-- CRC-32C of 36 times 128 zero bytes, 128 at a time: the register after each. -/
def crcs : List Word :=
  [0xf7d89b24, 0x478d4e6f, 0x4509d0c9, 0xcf03123f, 0x1fd80331, 0xc5c4c2f9, 0xd77c4c0, 0x11512183, 0xa8448891,
   0x72802fed, 0x6b47581e, 0xa6fd2d2, 0xfbd7265a, 0x5bcb999c, 0x50e61ffc, 0x5b767cb0, 0x22b79a12, 0x13ca39cb,
   0xe41fc7cf, 0x4df00a81, 0x278b2fa4, 0x24571252, 0xd84843ae, 0xdf52be5c, 0xf18f24b4, 0xa82160e, 0x17ab347e,
   0xf76f41ea, 0x81bd34d5, 0x142ac051, 0x54af813b, 0x6706be76, 0xa8ebbc63, 0xa091a354, 0x4376f347, 0xee31eafa]
def stepsOk : Word → List Word → Bool
  | _, [] => true
  | c, d :: l => decide ((zeros 128).foldl crcByte c = d) && stepsOk d l
theorem crc_steps : ∀ (l : List Word) (c : Word), stepsOk c l = true → (zeros (128 * l.length)).foldl crcByte c = l.getLast?.getD c
  | [], _, _ => rfl
  | d :: l, c, h => by
    simp only [stepsOk, Bool.and_eq_true, decide_eq_true_eq] at h
    have e : zeros (128 * (d :: l).length) = zeros 128 ++ zeros (128 * l.length) := by
      unfold zeros; rw [List.replicate_append_replicate, List.length_cons]; congr 1; omega
    rw [e, List.foldl_append, h.1, crc_steps l d h.2]
    cases l <;> rfl
set_option maxRecDepth 4000 in
theorem crc_ok : stepsOk 0xFFFFFFFF#32 crcs = true := by decide +kernel
theorem crc_page : crc32c (zeros 4608) = BitVec.ofNat 32 0x11CE1505 := by
  have := crc_steps crcs 0xFFFFFFFF#32 crc_ok
  unfold crc32c
  rw [show (4608 : Nat) = 128 * crcs.length from rfl, this]
  decide +kernel
theorem tabGet_absent {α : Type} (d : α) (k : Nat) : ∀ (t : Tab α), t.all (fun x => decide (x.1 ≠ k)) = true → tabGet d t k = d
  | [], _ => rfl
  | (j, x) :: t, h => by
    simp only [List.all_cons, Bool.and_eq_true, decide_eq_true_eq] at h
    have h1 : k ≠ j := fun e => h.1 e.symm
    simp only [tabGet, h1, if_false, tabGet_absent d k t h.2]
    split <;> rfl
/-- Memory reads as zeros where no cell is listed. -/
theorem memBytes_zero (s : State) : ∀ (n ga : Nat), s.mem.cells.all (fun x => decide (x.1 < ga ∨ ga + n ≤ x.1)) = true → memBytes s ga n = zeros n
  | 0, _, _ => rfl
  | n + 1, ga, h => by
    simp only [List.all_eq_true, decide_eq_true_eq] at h
    have h0 : memByte s ga = 0 := tabGet_absent 0 ga _ (by
      simp only [List.all_eq_true, decide_eq_true_eq]
      intro x hx; have := h x hx; omega)
    have := memBytes_zero s n (ga + 1) (by
      simp only [List.all_eq_true, decide_eq_true_eq]
      intro x hx; have := h x hx; omega)
    simp only [memBytes, zeros, upFrom, List.map_cons, List.replicate_succ, h0] at this ⊢
    rw [this]
theorem zeros_read {s : State} {ctx va n ga : Nat} (h : xlateAll s ctx false (piecesOf va n) = .ok [(ga, n)])
    (hm : isMirror s ga = false) (hl : ga < 2 ^ 54) (he : s.mem.errors = [])
    (hc : s.mem.cells.all (fun x => decide (x.1 < ga ∨ ga + n ≤ x.1)) = true) : xRead s ctx va n = .ok (zeros n) := by
  have hb : badBurst s ga n = none := by unfold badBurst errWords; rw [he]; split <;> rfl
  have hr : localRead s ga n = zeros n := by
    unfold localRead; rw [he]; exact memBytes_zero s n ga hc
  have hl1 : ga < 18014398509481984 := hl
  unfold xRead
  rw [h]
  simp [readPieces, hm, hl1, hb, hr]
theorem ok_of {ε α : Type} [DecidableEq α] {e : Except ε α} {x : α} (h : (match e with | .ok l => decide (l = x) | _ => false) = true) : e = .ok x := by
  cases e with
  | error f => simp at h
  | ok l => simp at h; rw [h]
def importing : State := paged (holding (queued on (importP 1)) 0x1000 record0) []
theorem test_witness_import :
    (match xRead importing 0 0x1000 128 with
      | .ok tr => decide (leNat (tr.take 16) % 2 ^ 48 = 0x55 ∧ bitsOf (leNat (tr.take 16)) 119 112 = 11 ∧ fieldAt tr 16 4 = 0x11CE1505)
      | _ => false) = true ∧
    (inSeq seq0 0 0 0 && kfmtOk 11 && decide (imageBytes 11 = 4608 ∧ (getWay importing 0).state = 0 ∧ importing.kv.stalls = [] ∧
      framesFree importing part0 ≠ 0)) = true ∧
    xRead importing 0 0x1080 4608 = .ok (zeros 4608) ∧ crc32c (zeros 4608) = BitVec.ofNat 32 0x11CE1505 :=
  ⟨by decide +kernel, by decide +kernel,
    zeros_read (ga := 0x201080) (ok_of (by decide +kernel)) (by decide +kernel) (by decide) (by decide +kernel) (by decide +kernel), crc_page⟩

def noXfer (p : List Byte) (s : State) (empty : Bool) : Bool :=
  nextIs s p && decide (pkOp p = 8) && (xferCheck s p 0 none).isNone && decide ((xferOf p none).empty = empty)
/-- The sixteen transfer channels of cluster 0 are all taken by queue 1. -/
def chan0 (p : List Byte) : Chan := { owner := .queue 0, ctx := 0, tag := 7, bytes := p, cursor := [0, 0, 0, 0, 0], state := 1, cause := 0, req := none, inSlot := false, waiting := 0, startFilled := 0, signals := 0 }
def allTaken (s : State) : State := (upFrom 48 16).foldl (fun s c => setChan s c (some { chan0 (xfer xfer1) with owner := .queue 1 })) s
theorem test_witness_transfer :
    (noXfer (xfer []) (qs (xfer [])) true && (collOf (xfer []) 232).zero) = true ∧
    (noXfer (xfer xfer1) (qs (xfer xfer1)) false && decide (freeChans (qs (xfer xfer1)) 0 ≠ [])) = true ∧
    (let s := allTaken (qs (xfer xfer1))
     noXfer (xfer xfer1) s false && decide (freeChans s 0 = [])) = true ∧
    ([[], xfer1 ++ [(32, 4, 32)]].all (fun m => let p := xfer (m ++ collAt 232 0x11 0 8)
     let s := grouped (qs p)
     let x := xferOf p none
     noXfer p s m.isEmpty && !(collOf p 232).zero && !handing s 21 && (match readBound s 0 0 0 8 with | .ok n => decide (n = 8) | _ => false) && (collCheck s 0 p 8 (some (xferRegion x))).isNone)) = true := by decide +kernel
/-- Queue 0 runs a TRANSFER on channel 48, at its start. -/
def onChan (s : State) (p : List Byte) (f : Chan → Chan) : State := setChan (running s p (.xfer (some 48) false) none true) 48 (some (f (chan0 p)))
def xfer2 (more : List (Nat × Nat × Nat)) : List Byte := xfer (xfer1 ++ more)
theorem test_witness_transfer_complete :
    (let s := running on (xfer []) (.xfer none true) none true
     s.wf && devRuns s && decide (curPacket s 0 = some (xfer [])) && acked s 0 && decide (s.comp.xferWait = [])) = true ∧
    (let s := onChan on (xfer2 []) (fun c => { c with cursor := [0, 0, 0, 0, 1] })
     s.wf && devRuns s && decide (curPacket s 0 = some (xfer2 [])) && acked s 0 && cursorEnd (xferOf (xfer2 []) none) [0, 0, 0, 0, 1] &&
     decide (s.comp.xferWait = []) && s.fab.sent.isEmpty) = true := by decide +kernel

/-- A delivery of queue 0's channel at its cursor. -/
def delivers (s : State) (last ring : Bool) : Bool :=
  match getChan s 48 with
  | none => false
  | some c =>
    let f := xferOf c.bytes none
    s.wf && chanGoes s 48 c && !cursorEnd f c.cursor && decide (cursorEnd f (nextCursor f c.cursor) = last) &&
    decide ((chanRing c).isSome = ring) && decide (c.owner = .queue 0 ∧ c.signals = 0 ∧ ownerLaunch c.owner = none) &&
    decide (mirrorAt s c.ctx (strided f.src c.cursor f.ss) f false = none) &&
    (ring || decide (mirrorAt s c.ctx (strided f.dst c.cursor f.ds) f true = none)) &&
    (match unitPieces (ownGot s 48) c.ctx true f c.cursor with
     | .ok l => (ring || decide (destFail s c.ctx true l = none)) && !l.any (toFabric s c.ctx) &&
        (match chanRing c with
         | none => true
         | some (e, n) => decide ((unitSlot f (getRing s e n).slotBytes c.cursor).1 ≤ slotNo s c e n) &&
            slotsOpen (getRing s e n) c.startFilled (slotNo s c e n) (l.map (fun p => piecePos f (getRing s e n) c.cursor p + pieceLen p - 1)) &&
            decide ((unitSlot f (getRing s e n).slotBytes (nextCursor f c.cursor)).1 ≤ slotNo s c e n)) &&
        (l.foldl (fun t p => putPiece t c.ctx p) s).fab.sent.isEmpty
     | _ => false)
/-- Ring 0 of engine 0 with a software interface, its first slot as given. -/
def swRing (s : State) (st : BitVec 2) (h : Byte) : State :=
  { s with comp := { s.comp with rings := [(0, ({ mem := 1, slotBytes := 8192, slots := 4, sw := true, states := [st, 0, 0, 0], head := h } : Ring))] } }
def ringXfer : List Byte := xfer ((xfer1.filter (fun f => f.1 ≠ 24 && f.1 ≠ 92)) ++ [(140, 4, 0x80000000)])
theorem test_witness_channels :
    delivers (onChan on (xfer2 []) id) false false = true ∧
    delivers (onChan on (xfer2 []) (fun c => { c with cursor := [1, 0, 0, 0, 0] })) true false = true ∧
    delivers (onChan (swRing on 1 1) ringXfer (fun c => { c with inSlot := true })) false true = true ∧
    (let s := onChan (swRing on 0 0) ringXfer id
     s.wf && slotFree (getRing s 0 0) && decide ((getRing s 0 0).filled < (getRing s 0 0).slots) &&
     (match getChan s 48 with | some c => chanGoes s 48 c && decide (chanRing c = some (0, 0)) && !c.inSlot | none => false)) = true := by
  decide +kernel
theorem test_channel : after (.transferDelivery 48 true) (onChan (holding on 0x1000 [9, 8]) (xfer2 []) id)
    (fun t => memByte t 0x203000 = 9 && memByte t 0x203001 = 0) = true := by decide +kernel

theorem test_witness_rings :
    ([(0, [33, 34, 36]), (1, [])].all (fun x =>
      let p := ringP 0 (if x.1 = 0 then [(33, 1, 1), (34, 2, 5), (36, 2, 5)] else [])
      let s := withTally (running on p (.ringCfg [0]) none true) tally0
      s.wf && devRuns s && decide (curPacket s 0 = some p) && ringIdle s 0 0 && decide ((ringOf s 0 p).sw = decide (x.1 = 0)))) = true ∧
    (let req : PageReq := ⟨0, 0, 0x1000, 0, 0⟩
     let s := { onChan on (xfer2 []) (fun c => { c with state := 2, req := some req }) with stage := 0x100000 }
     s.wf && devRuns s && decide (req.since.toNat + 2 ^ 20 ≤ s.stage.toNat)) = true := by decide +kernel

/-! ## Tallies: witnesses -/

/-- A register takes a write of function 0. -/
def taken (s : State) (o v : Nat) : Bool := takes s (.fn 0) o v && !unbound s (.fn 0) (regAt s o) && !heldOff s (.fn 0) (regAt s o) v && s.wf
def takenLocked (s : State) (o v : Nat) : Bool := taken s o v && mayWrite s (.fn 0) (regAt s o) v
/-- Register words beside those of the device. -/
def withRegs (s : State) (l : List (Nat × Word)) : State := { s with host := { s.host with regs := l } }
/-- Operation of a code on tally 5 of context 0 by queue 0. -/
def opOf (code : Nat) (amount : Word) : TallyOp := { code := code, ctx := 0, vid := 5, scope := 2, amount := amount, issuer := .queue 0, tag := 7, ord := 0, node := none, dest := 0 }
def flying (s : State) (l : List TallyOp) : State := { s with sync := { s.sync with flight := l } }
def tallyWord (op : Nat) : Nat := 2 ^ 31 + op * 2 ^ 27 + 5

theorem test_witness_tally_commands :
    (let s := withRegs on [(0x700000, 0x100001), (0x800004, 0x40000000), (0x80000C, 3), (0x800010, 9)]
     !tlyBusy s 0 && takenLocked s (tlyOff 0) (tallyWord 1) && vidOk s 0 0 5 && !attrBad s 0 (tallyAttr s 0) &&
     decide (homeUse s 0 (tallyAttr s 0) < homeShare s 0 (tallyAttr s 0))) = true ∧
    ([2, 3, 4].all (fun op => let s := withTally on tally0
      !tlyBusy s 0 && takenLocked s (tlyOff 0) (tallyWord op) && vidOk s 0 0 5 && !inFlight s 0 5 && !tallyInUse s 0 5 &&
      (waitersOf s 0 5).isEmpty)) = true ∧
    (let s := flying (withTally on tally0) [opOf 1 1]
     !tlyBusy s 0 && takenLocked s (tlyOff 0) (tallyWord 2) && inFlight s 0 5) = true ∧
    ([0, 9].all (fun n => taken (withTally on { tally0 with scope := 4 }) (hqOff 0 + 0x900) (5 * 2 ^ 16 + n))) = true := by decide +kernel
theorem test_tally_create : after (.tallyCreate (.fn 0) 0 0 5)
      (withRegs on [(0x700000, 0x100001), (0x800004, 0x40000000), (0x80000C, 3), (0x800010, 9)])
      (fun t => match getTally t 0 5 with | some y => y.value.toNat = 3 && y.limit.toNat = 9 && y.scope.toNat = 2 | none => false) = true := by
  decide +kernel

/-- A group image of three members, this device the first. -/
def image3 : List Byte := leBytes 2 3 ++ zeros 4 ++ [16, 0] ++ zeros 56 ++ leBytes 2 0 ++ leBytes 2 1 ++ leBytes 2 2
def groupPage (s : State) : State := withRegs s [(0x501004, 0x1000), (0x700000, 0x100001)]
theorem test_witness_group_commands :
    (let s := groupPage (holding on 0x1000 image3)
     takenLocked s (cnvOff 0) (2 ^ 31 + 2 ^ 27 + 2 ^ 16) && !groupBusy s 1 &&
     (match xRead s 0 0x1000 64 with | .ok h => decide (fieldAt h 0 2 = 3) | _ => false) &&
     (match xRead s 0 0x1000 70 with | .ok b => decide ((groupLoad s 0 1 0 b).1 = 0) | _ => false)) = true ∧
    takenLocked (groupPage { on with cfg := { on.cfg with image := some { image0 with parts := [{ part0 with channels := [] }] } } }) (cnvOff 0) (2 ^ 31 + 2 ^ 27 + 2 ^ 16) = true ∧
    ([2, 3, 4].all (fun op => takenLocked (groupPage (grouped on)) (cnvOff 0) (2 ^ 31 + op * 2 ^ 27 + 2 ^ 16))) = true ∧
    takenLocked (groupPage on) (cnvOff 0) (2 ^ 31 + 4 * 2 ^ 27 + 2 ^ 16) = true ∧
    (match xWrite (groupPage (grouped on)) 0 0x1000 (groupBytes group1) with | .ok _ => true | _ => false) = true := by decide +kernel

/-- Operation o reaches tally y. -/
def reaches (o : TallyOp) (y : Tally) : Bool :=
  let s := flying (withTally on y) [o]
  s.wf && devRuns s && decide (getTally s 0 5 = some y) && !scopeBad s o y && decide (s.sync.destroying = []) &&
  !((waitersOf s 0 5).any (·.takes)) && decide ((frozenBy o).2 < 2 ^ 32)
def counter : Tally := { tally0 with value := 3, scope := 2, home := 0x8000 }
def barrier (arrivals : BitVec 24) (scope : BitVec 3) : Tally := { counter with barrier := true, participants := 4, limit := 0, arrivals := arrivals, scope := scope, group := if scope = 3 then 1 else 0 }
/-- This device is the first member of group1. -/
def member (s : State) : State := { s with fab := { s.fab with fid := 0x10 } }
theorem test_witness_counters :
    ([1, 2, 3, 4, 5, 6, 7, 8, 9, 10, 12, 14, 16].all (fun c => reaches (opOf c 1) counter && reaches (opOf c 200) counter)) = true ∧
    reaches (opOf 2 3) counter = true ∧ reaches (opOf 1 97) counter = true ∧ limitOf (withTally on counter) 0 5 counter = 100 := by decide +kernel
theorem test_witness_barriers :
    ([2, 4, 5, 10, 1].all (fun c => reaches (opOf c 4) (barrier 0 2))) = true ∧ reaches (opOf 1 1) (barrier 3 2) = true ∧
    reaches (opOf 1 2) (barrier 3 2) = true ∧ reaches (opOf 5 4) (barrier 3 2) = true ∧ reaches (opOf 10 3) (barrier 3 2) = true ∧
    (let s := member (grouped (flying (withTally on (barrier 3 3)) [{ opOf 1 1 with scope := 3 }]))
     s.wf && !scopeBad s { opOf 1 1 with scope := 3 } (barrier 3 3)) = true ∧
    (let s := grouped (withTally on { barrier 0 3 with pend := 1 })
     s.wf && devRuns s && decide (getTally s 0 5 = some { barrier 0 3 with pend := 1 }) && (getGroup s 1).isSome) = true := by decide +kernel
theorem test_add : after (.tallyOperationArrival 0) (flying (withTally on counter) [opOf 1 97])
    (fun t => match getTally t 0 5 with | some y => y.value.toNat = 100 | none => false) = true := by decide +kernel

theorem test_witness_combining :
    ([1, 15].all (fun c => let s := flying on [opOf c 1]
      s.wf && devRuns s && decide (getTally s 0 5 = none ∧ s.sync.destroying = []))) = true ∧
    (on.wf && devRuns on) = true ∧
    ([false, true].all (fun r => let w : Waiter := { op := opOf 11 1, phase := 1, since := 0, released := r, asleep := false }
      let s := { withTally on counter with sync := { (withTally on counter).sync with waiters := [w] } }
      s.wf && devRuns s && decide (getTally s 0 5 = some counter))) = true := by decide +kernel

/-! ## Collectives: witnesses -/

/-- A group of this device (fabric ID 0x10) and 0x11 on channel 1, and an operation of it that queue 0 runs, with its progress. -/
def pair : GroupEntry := ⟨[0x10, 0x11], 0, 0, false, 0, 12, 0, 5, 5, [], []⟩
def collOp (cop red count : Nat) : CollOp := { queue := 0, group := 1, cop := cop, red := red, ctype := 0, count := count, seq := 4, seq2 := 0, peer := 0, peer2 := 0, src := 0x4000, dst := 0x9000, capacity := 0, pitch := 0, pages := [], elemBytes := 4, doneTally := 0, doneScope := 0, empty := false, fused := false, counts := [] }
def prog0 : CollProg := { opens := [(1, 4, false, [])], taken := 0, kept := [], acks := [], contrib := [], written := [], reduced := [], signals := 0, opened := true }
def colling (o : CollOp) (p : CollProg) : State :=
  let s := running on (collP 1 []) .coll (some 1) false
  { s with fab := { s.fab with fid := 0x10 }, conv := { s.conv with groups := [(1, pair)], chans := [(1, { ops := [o], prog := some p, silent := 1024 })] } }
/-- REDUCE_SCATTER and ALL_REDUCE of FP32 sums, ALL_GATHER. -/
def scatter : CollOp := collOp 2 1 4
def gather : CollOp := collOp 3 0 100
def sumAll : CollOp := collOp 1 1 100
def working (s : State) (o : CollOp) (p : CollProg) : Bool :=
  hears s 0x11 && devRuns s && decide (holder s 1 = some (o, p, pair)) && (getConv s 1).early.isEmpty && !isFrozen s 4 1 && fromMember pair 0x11 1
/-- A control message of position 1, and a chunk of it. -/
def ctl (kind cop count : Byte) (cause : Byte) : ConvoyCtl := ⟨4, 1, cop, 0, 12, 4, 0, kind, count.zeroExtend 32, 5, 0, 1, 0, cause⟩
def chunkC (chunk : Word) (seq : Word) : ChunkHead := ⟨1, seq, chunk, 1, false⟩

theorem test_witness_openings :
    (let s := member { on with conv := { on.conv with groups := [(1, pair)] } }
     hears s 0x11 && decide (holder s 1 = none) && fromMember pair 0x11 1) = true ∧
    ([0x12, 0x22].all (fun cop =>
      let o := { scatter with count := 4 }
      let p := { prog0 with opens := [], opened := false }
      let m := ctl 1 cop 4 0
      working (colling o p) o p && concerns o m && (awaited pair o).contains (keyFor o p m) && decide (m.seq = seqFor o (keyFor o p m)) &&
      decide ((openingDiff pair o m).isNone = decide (cop = 0x12)) && !allOpen pair o { p with opens := p.opens ++ [(keyFor o p m, m.count.toNat, bitOf m.cflags.toNat 0, [])] })) = true ∧
    ([0, 1].all (fun cause => let m := ctl 2 0x12 0 cause
      let s := colling scatter prog0
      working s scatter prog0 && decide (opFor s 1 m.seq (isPair (m.cop.toNat % 16)) 1 = some scatter) && decide (m.abortCause = cause) &&
      (curPacket s 0).isSome)) = true ∧
    (let s := member { on with conv := { on.conv with groups := [(1, pair)] } }
     let m := ctl 2 0x12 0 1
     hears s 0x11 && decide (opFor s 1 m.seq (isPair (m.cop.toNat % 16)) 1 = none) && (getConv s 1).early.isEmpty) = true := by decide +kernel

theorem test_witness_chunks_arrive :
    (working (colling scatter prog0) scatter prog0 && chunkFor scatter (chunkC 0 4) && allOpen pair scatter prog0 && isContrib pair scatter prog0 (chunkC 0 4)) = true ∧
    ([[], [(0, 1)]].all (fun w => let p := { prog0 with written := w }
      let s := colling gather p
      working s gather p && chunkFor gather (chunkC 0 4) && allOpen pair gather p && !isContrib pair gather p (chunkC 0 4) &&
      decide ((inUnits pair gather p).find? (fun u => decide (u.1 = (0, 1))) = some ((0, 1), 400, 400)) && !heldBack s 0 (srcOf 5 1) (opTag s gather) &&
      (match xWrite s 0 (resultAddr gather + 400) [1] with | .ok _ => true | _ => false) &&
      !localDone pair gather { p with written := p.written ++ [(0, 1)] })) = true ∧
    (let s := member { on with conv := { on.conv with groups := [(1, { pair with seq := 5 })] } }
     hears s 0x11 && decide (holder s 1 = none) && passedSeq { pair with seq := 5 } (chunkC 0 4)) = true := by decide +kernel

/-- An ALL_GATHER whose pieces are all written here. -/
def gathered : CollProg := { prog0 with written := [(0, 0), (0, 1)], opened := true, taken := 1, kept := [(0, [1, 2, 3, 4])] }
theorem test_witness_answers :
    (let o := { gather with doneTally := 5 }
     let p := { gathered with acks := [(0, 1)] }
     working (colling o p) o p && !localDone pair o p && decide ((ctl 3 3 0 0).count.toNat = 0 ∧ (ctl 3 3 0 0).fromPos.toNat = 1)) = true ∧
    (working (colling gather gathered) gather gathered && localDone pair gather { gathered with acks := [(0, 1)] } &&
     decide ((getConv (colling gather gathered) 1).ops = [gather]) && (getQ (colling gather gathered) 0).run.isSome) = true ∧
    (decide (((outUnits pair gather gathered).zip (upFrom 0 (outUnits pair gather gathered).length)).find?
      (fun x => decide (x.1.2.2.2 = 0) && x.1.2.2.1.contains 1) = some ((0, 400, [0, 1], 0), 0)) && (tabFind gathered.kept 0).isSome) = true ∧
    (let p := { prog0 with reduced := [0], contrib := [(0, 0, [0, 0, 0, 0]), (0, 1, [0, 0, 128, 63])] }
     working (colling sumAll p) sumAll p && decide (reduceChunk pair sumAll p 0 = some [0, 0, 128, 63])) = true ∧
    (let o := { gather with doneTally := 5, doneScope := 2 }
     let s := withTally (colling o gathered) counter
     let x := TallyOp.mk 17 0 5 2 1 (.convoy 1) (BitVec.ofNat 32 (opTag s o)) 0 none 0
     working s o gathered && decide (gathered.signals < signalCount pair o gathered) && chunkReady pair o gathered 0 && allOpen pair o gathered &&
     decide (getTally s 0 5 = some counter) && !scopeBad s x counter && !((waitersOf s 0 5).any (·.takes)) && !localDone pair o { gathered with signals := 1 }) = true ∧
    ([0, 0x10].all (fun room => let s := withRegs (colling gather gathered) ([(dumpOff 0 + 8, BitVec.ofNat 32 room), (0x500018, 1), (0x700000, 0x100001)].filter (fun x => x.2 ≠ 0))
     (devRuns s && decide ((holder s 1).isSome) && !isFrozen s 4 1 && decide (regField s (0x500008 + 16) 15 0 = 1) && decide (1024 ≤ (getConv s 1).silent) &&
      decide (room = 0 ∨ dumpRoom s 0 ≠ 0) && s.sync.dumping.isEmpty))) = true := by decide +kernel

theorem test_witness_chunks_leave :
    ([0, 1].all (fun t => let p := { prog0 with taken := t }
      let s := colling scatter p
      working s scatter p && !collHeld s 1 pair scatter && !onSmallPath pair scatter && allOpen pair scatter p &&
      decide ((outUnits pair scatter p)[t]? = some (8 * t, 8, [t], 0)) && sourceReady s scatter (8 * t) 8 &&
      (match readUnit s 0 scatter (8 * t) 8 with | some (.ok d) => decide (d = zeros 8) | _ => false) &&
      !localDone pair scatter { p with taken := t + 1, kept := tabSet p.kept t (some (zeros 8)) })) = true ∧
    (let s := colling gather prog0
     working s gather prog0 && !onSmallPath pair gather && decide ((outUnits pair gather prog0)[0]? = some (0, 400, [0, 1], 0)) &&
     (match readUnit s 0 gather 0 400 with | some (.ok _) => true | _ => false) &&
     (match xWrite s 0 (resultAddr gather) (zeros 400) with | .ok _ => true | _ => false)) = true ∧
    (let o := collOp 1 1 4
     let p := { prog0 with opens := [], opened := false }
     let s := colling o p
     working s o p && onSmallPath pair o && sourceReady s o 0 (opBytes o) && !allOpen pair o { p with opened := true } &&
     (match readUnit s 0 o 0 (opBytes o) with | some (.ok _) => true | _ => false)) = true ∧
    (let p := { prog0 with contrib := [(0, 0, [0, 0, 0, 0]), (0, 1, [0, 0, 128, 63])] }
     let s := colling scatter p
     working s scatter p && !inNetwork pair scatter p && decide (reduceChunk pair scatter p 0 = some [0, 0, 128, 63]) &&
     decide ((inUnits pair scatter p).find? (fun u => decide (u.1 = (0, 0))) = some ((0, 0), 0, 8)) &&
     (match xWrite s 0 (resultAddr scatter) [0, 0, 128, 63] with | .ok _ => true | _ => false) &&
     !localDone pair scatter { p with written := [(0, 0)], reduced := [0] } && [0, 1, 7].all (fun b => (getBank s b).serving && (getBank s b).fails.isEmpty) &&
     (curPacket s 0).isSome) = true := by decide +kernel

/-! ## Streams and swaps: witnesses -/

/-- Nothing is in execution: no packet waits for a page. -/
theorem kvQuiet_of {s : State} (h : s.host.queues = []) : KvQuiet s := by
  intro q r hr
  have : getQ s q = {} := by unfold getQ; rw [h]; rfl
  rw [this] at hr
  cases hr
/-- Page 0 of sequence 0x55 is picked by stream 0, which is open to fabric ID 9 or to a dock; or it is in flight. -/
def pick0 : Pick := ⟨0, 0, 7, 5, 4, 1, false, false, false⟩
def flight0 : Flight := ⟨0, 0x55, 0, 0, 0, false, 7⟩
def streaming (s : State) (x : Stream) : State := { s with kv := { s.kv with streams := [(0, x)] } }
def open0 : Stream := { state := 1, destFid := 9, handle := 0x55, picks := [pick0], turns := 1 }
def dock0 : Stream := { state := 1, destKind := 1, dockAddr := 0x8000, dockSlots := 4, dockTally := 5, handle := 0x55, picks := [pick0], turns := 1 }
def sealed : State := paged on [(0, { page0 with state := 2 })]
def shipping : State := paged on [(0, { page0 with state := 3, ships := 1 })]
def takesPage (s : State) : Bool :=
  s.wf && decide (nextPick s 0 = some pick0) && streamGoes s 0 && (poolOf s 0).isSome && decide ((getStream s 0).flights.length < window s 0) &&
  decide ((getWay s 0).ships ≠ 255) && (getStream s 0).flights.isEmpty && decide (frameBad (raiseShips s 0) part0 (getWay (raiseShips s 0) 0).loc 0 8192 = none)
def sendsAgain (s : State) (n : Nat) (d : Bool) : Bool :=
  s.wf && streamGoes s 0 && (poolOf s 0).isSome && decide (frameBad s part0 (getWay s 0).loc 0 8192 = none) &&
  decide (maxAttempts s 0 = n) && (getStream s 0).flights.any (fun f => f.index = 0 && f.deferred == d)
theorem test_witness_streams :
    takesPage (streaming sealed open0) = true ∧ takesPage (streaming sealed dock0) = true ∧
    sendsAgain (streaming shipping { open0 with flights := [flight0] }) 8 false = true ∧
    sendsAgain (streaming shipping { open0 with flights := [{ flight0 with attempt := 8 }] }) 8 false = true ∧
    sendsAgain (streaming shipping { open0 with flights := [{ flight0 with deferred := true }] }) 8 true = true := by decide +kernel

/-- Replies of fabric ID 9 to stream 0. -/
def reply (key : BitVec 128) (code : Byte) : CaravanReply := ⟨1, 0, key, 0, code, 0, true⟩
def manifested (sent : Bool) : Stream := { open0 with state := 2, picks := [{ pick0 with taken := true, done := true }], keys := [0x55], manifestSent := sent }
theorem test_witness_replies :
    (let s := streaming shipping { open0 with flights := [flight0] }
     [0, 1, 2, 3, 5].all (fun c => hears s 9 && replyFor s 9 (reply 0x55 c) && decide (flightOf s (reply 0x55 c) = some flight0) &&
       s.host.queues.isEmpty && sendsAgain s 8 false)) = true ∧
    (let s := streaming sealed (manifested true)
     [0, 1].all (fun c => hears s 9 && replyFor s 9 (reply 0x55 c) && decide (((reply 0x55 c).key.toNat % 2 ^ 48 = (getStream s 0).handle.toNat)))) = true ∧
    (let s := streaming sealed (manifested false)
     s.wf && streamGoes s 0 && (getStream s 0).picks.all (·.done) && (getStream s 0).flights.isEmpty) = true ∧
    (let s := streaming { shipping with kv := { shipping.kv with streams := [] } } { dock0 with flights := [flight0] }
     [2 ^ 30, 2 * 2 ^ 30 + 5 * 2 ^ 16, 3 * 2 ^ 30].all (fun v => taken s 0x604000 v && !isFrozen s 5 0 && s.host.queues.isEmpty)) = true := by decide +kernel

/-- Queue 0 reads page 0, which is swapped out to slot 1; its swap area lies at 0x400000. -/
def swapOn (frames : Nat) : State := { on with cfg := { on.cfg with image := some { image0 with parts := [{ part0 with frames := frames, frameUnits := 37 }] } } }
def kpage : WayEntry := { page0 with kfmt := 11, state := 5, loc := 1 }
def swapped (frames : Nat) (e : WayEntry) (x : List Swap) (st : List Stall) : State :=
  let s := withRegs (paged (swapOn frames) [(0, e)]) [(0x608000 + 0x1C, 0x400000), (0x700000, 0x100001)]
  { s with kv := { s.kv with readers := [(0, 0)], swaps := x, stalls := st, swapUsed := [(1, 0)] } }
def swapOut : Swap := ⟨0, 0, 1, 0, false, 0⟩
def swapIn : Swap := ⟨0, 0, 1, 2, true, 0⟩
def pt0 (frames : Nat) : Partition := { part0 with frames := frames, frameUnits := 37 }
theorem test_witness_swaps :
    ([(4, []), (0, [])].all (fun (x : Nat × List Stall) => let s := swapped x.1 kpage [] x.2
      s.wf && decide (poolOf s 0 = some (pt0 x.1)) && queueGoes s 0 && s.kv.readers.contains (0, 0) && !swapping s 0 &&
      !s.kv.stalls.any (fun t => t.kind = 4 && t.index = 0) && decide ((pickFree s x.1 (usedFrames s (pt0 x.1))).isSome = decide (x.1 ≠ 0)))) = true ∧
    (let s := swapped 4 kpage [] [⟨0, 4, 0, 0, 0, none⟩]
     s.wf && devRuns s && decide (getPart s 0 = some (pt0 4)) && (s.kv.stalls.find? (fun t => t.part = 0 && t.frame.isNone)).isSome &&
     (pickFree s 4 (usedFrames s (pt0 4))).isSome) = true ∧
    (let s := swapped 4 { kpage with state := 2, loc := 0 } [swapOut] []
     let bad := { s with mem := { s.mem with errors := [(((framePieces (pt0 4) 0 0 8).headD (0, 0)).1 / 8, 3)] } }
     s.wf && devRuns s && decide (getPart s 0 = some (pt0 4)) && decide (s.kv.swaps.find? (fun y => y.index = 0 && !y.inward) = some swapOut) &&
     (frameBad s (pt0 4) 0 0 4736).isNone && bad.wf && (frameBad bad (pt0 4) 0 0 4736).isSome) = true := by decide +kernel

theorem upFrom_drop : ∀ (k a n : Nat), (upFrom a n).drop k = upFrom (a + k) (n - k)
  | 0, _, _ => rfl
  | k + 1, _, 0 => by simp [upFrom]
  | k + 1, a, n + 1 => by
    simp only [upFrom, List.drop_succ_cons, upFrom_drop k (a + 1) n]
    congr 1 <;> omega
theorem upFrom_take : ∀ (k a n : Nat), (upFrom a n).take k = upFrom a (min k n)
  | 0, _, _ => by simp [upFrom]
  | k + 1, _, 0 => by simp [upFrom]
  | k + 1, a, n + 1 => by
    rw [show min (k + 1) (n + 1) = min k n + 1 by omega]
    simp only [upFrom, List.take_succ_cons, upFrom_take k (a + 1) n]
theorem gBytes_local (s : State) : ∀ (n a : Nat), a + n ≤ 2 ^ 54 → gBytes s a n = memBytes s a n
  | 0, _, _ => rfl
  | n + 1, a, h => by
    have h1 := gBytes_local s n (a + 1) (by omega)
    have h2 : gByte s a = memByte s a := by unfold gByte; rw [if_pos (by omega)]
    simp only [gBytes, memBytes, upFrom, List.map_cons, h2] at h1 ⊢
    rw [h1]
/-- A K4 page in its swap slot: zeros, then the CRC that the trailer holds. -/
theorem swap_slot (s : State) (a : Nat) (ha : a + 4736 ≤ 2 ^ 54)
    (hc : s.mem.cells.all (fun x => decide (x.1 < a ∨ a + 4608 ≤ x.1)) = true) :
    crc32c ((gBytes s a 4736).take 4608) = BitVec.ofNat 32 0x11CE1505 ∧ fieldAt (gBytes s a 4736) 4624 4 = leNat (memBytes s (a + 4624) 4) := by
  rw [gBytes_local s _ _ ha]
  unfold fieldAt memBytes
  rw [← List.map_take, ← List.map_drop, ← List.map_take, upFrom_take, upFrom_drop, upFrom_take]
  refine ⟨?_, rfl⟩
  exact (congrArg crc32c (memBytes_zero s 4608 a hc)).trans crc_page
/-- The page comes back from slot 1 into frame 2; its trailer holds c for its CRC. -/
def comesBack (c : Nat) : State :=
  let s := swapped 4 kpage [swapIn] []
  { s with mem := { s.mem with cells := s.mem.cells ++ cellsOf (0x401280 + 4624) (leBytes 4 c) } }
def backGoes (c : Nat) : Bool :=
  let s := comesBack c
  s.wf && devRuns s && decide (getPart s 0 = some (pt0 4)) && decide (s.kv.swaps.find? (fun y => y.index = 0 && y.inward) = some swapIn) &&
  decide ((getWay s 0).kfmt = 11 ∧ imageBytes 11 = 4608 ∧ (pt0 4).frameUnits * 128 = 4736 ∧ swapAddr s (pt0 4) swapIn.slot = 0x401280) &&
  s.mem.cells.all (fun x => decide (x.1 < 0x401280 ∨ 0x401280 + 4608 ≤ x.1)) && decide (leNat (memBytes s (0x401280 + 4624) 4) = c)
theorem test_witness_swap_in : backGoes 0x11CE1505 = true ∧ backGoes 0 = true := by decide +kernel

/-! ## The fabric, the host's faces and the memory: witnesses -/

/-- A device with fabric ID 0x10 and one export window: aperture offsets 0 to 0xFFF are local 0x300000 on, for everyone. -/
def fabOn (s : State) : State := { s with fab := { s.fab with fid := 0x10, fidValid := true } }
def exporting : State :=
  let s := withRegs (fabOn on) [(0x100000 + 0x18, 0x22), (0x10001C, 0x02000220), (0x708008, 0x310000), (0x708010, 0x10000)]
  { s with mem := { s.mem with cells := cellsOf 0x310000 (leBytes 8 0 ++ leBytes 8 0x1000 ++ leBytes 8 0x300000 ++ leBytes 2 0xFFFF ++ [3, 1]) } }
def head0 (offset : BitVec 40) : RolreHead := ⟨0x10, 0x11, 0, 1, 0, 0, offset, 1, true⟩
def hearsFabric (s : State) (h : RolreHead) : Bool :=
  s.wf && s.dev.ready && s.dev.powered && !devFrozen s && !s.dev.failed && h.crcOk && s.fab.fidValid && decide (h.destFid = s.fab.fid)
theorem test_witness_fabric_accesses :
    (let s := freeze exporting 7 0x11 0xFF 0x0303
     s.wf && hearsFabric s (head0 0) && isFrozen s 7 0x11) = true ∧
    (hearsFabric exporting { head0 0 with flowSeq := 0xFFFFFFFF } && !isFrozen exporting 7 0x11 && isDup exporting { head0 0 with flowSeq := 0xFFFFFFFF }) = true ∧
    (hearsFabric exporting (head0 0) && !isDup exporting (head0 0) && decide (exportAddr exporting 0x11 0 4 true = some 0x300000 ∧
      exportAddr exporting 0x11 0 4 false = some 0x300000 ∧ exportAddr exporting 0x11 0x1000 4 true = none ∧
      exportAddr exporting 0x11 0xFFFFEFFFFF 4 false = none)) = true ∧
    (let h := head0 0xFFFFF00040
     decide (doorbellBase ≤ h.offset.toNat) && hearsFabric exporting h && (doorbell exporting h [1, 0, 0, 0]).isSome) = true := by decide +kernel
theorem test_fabric_write : after (.rolreMemoryWrite (head0 8) [7] none) exporting (fun t => memByte t 0x300008 = 7) = true := by decide +kernel

def fabGroup (s : State) : State := { s with conv := { s.conv with groups := [(1, pair)] } }
def sig0 : RemoteSignal := ⟨5, 1, 3, 2⟩
/-- A message that this device has sent to 0x11 on flow 1. -/
def sentOf (kind : Nat) (who : Option Issuer) : Sent := ⟨kind, 0x11, 1, 2 ^ 54, 4, who, false⟩
def sending (s : State) (x : Sent) : State := { s with fab := { s.fab with sent := [x] } }
theorem test_witness_fabric_answers :
    ([false, true].all (fun sub => let s := fabGroup (withTally (fabOn on) { counter with scope := 3, group := 1 })
      hearsFabric s (head0 0) && !isFrozen s 7 0x11 && !isDup s (head0 0) && pair.members.any (fun m => m.toNat = 0x11) &&
      !scopeBad s (remoteOp pair 0x11 (if sub then 2 else 14) sig0) { counter with scope := 3, group := 1 } &&
      !((waitersOf s 0 5).any (·.takes)) && decide (limitOf s 0 5 { counter with scope := 3, group := 1 } = 100))) = true ∧
    (hearsFabric (fabOn on) (head0 0) && decide (getGroup (fabOn on) 1 = none)) = true ∧
    ([0, 1].all (fun g => let s := sending (fabOn (onChan on (xfer2 []) id)) (sentOf 2 (some (.chan 48)))
      hearsFabric s (head0 0) && decide (sentFor s (head0 0) [2] = some (sentOf 2 (some (.chan 48)))) && (getChan s 48).isSome &&
      decide ((some (Issuer.chan 48)).bind (unitOf s) ≠ none) && ((unitOf s (.chan 48)).any (fun u => u.2.2.2 = 1 || g = 1)))) = true ∧
    ([1, 5].all (fun k => [Issuer.chan 48, .queue 0].all (fun w =>
      let s := sending (fabOn (onChan on (xfer2 []) id)) (sentOf k (some w))
      hearsFabric s (head0 0) && decide (sentFor s (head0 0) [1, 5] = some (sentOf k (some w))) && (getQ s 0).run.isSome))) = true := by decide +kernel

theorem test_witness_host_faces :
    (bar2Open on 5 0 = false ∧ bar2Open on 0 0 = true ∧ bar2Open on 1 7 = true) ∧
    (match bar2Pieces on 0 0 4 false with | some l => decide (l.findSome? (fun y => badBurst on y.1 y.2) = none) | none => false) = true ∧
    (bar2Pieces on 0 0 4 true).isSome = true ∧ (bar2Pieces on 0 0xFFFFFFFFFF 4 true).isNone = true ∧ (bar2Pieces on 0 0xFFFFFFFFFF 4 false).isNone = true ∧
    ([(false, false), (true, false), (false, true)].all (fun x => let s := { on with dev := { on.dev with ready := x.1, recovery := x.2 } }
      s.dev.powered && ((s.dev.perst[0]?).getD false == false))) = true ∧
    (takenLocked on (xltOff 0 + 0xC) 0x80000000 && takenLocked on (xltOff 0 + 0xC) (2 ^ 31 + 2 ^ 28 + 3) && on.mem.invals.isEmpty) = true := by decide +kernel

def stacked (x : Stack) : State := { on with mem := { on.mem with stackTab := [(1, x)].filter (fun y => y.2 ≠ {}) } }
theorem test_witness_memory :
    (let s := { running on (pkt 0x3E 1 1 []) .fence none true with mem := { on.mem with refetches := [⟨0x300000, 0, some (.queue 0), 7, 0, 0, 0⟩] } }
     s.wf && devRuns s && decide (s.mem.reads = []) && (curPacket s 0).isSome) = true ∧
    ([{}, { copying := some 3, retired := [3] }].all (fun (x : Stack) => let s := stacked x
      let a := 0x1000000000 + (getStack s 1).scrubAt
      s.wf && devRuns s && unitsMove s && (getStack s 1).trained && !handing s 26 && (errWords s a 128).isEmpty && (badBurst s a 128).isNone &&
      (upFrom 0 64).all (fun pc => !pcFails s 1 pc))) = true := by decide +kernel

/-! ## Ports, the epoch, power and the weighhouse: witnesses -/

/-- Port 3 as given, on a configured device at a stage. -/
def ported (x : Port) (n : Stage) (e : Epoch) : State := { on with stage := n, fab := { on.fab with ports := [(3, x)].filter (fun y => y.2 ≠ {}), epoch := e } }
def portGoes (x : Port) (n : Stage) (e : Epoch) : Bool := (ported x n e).wf && (ported x n e).dev.powered && decide (getPort (ported x n e) 3 = x)
theorem test_witness_ports_train :
    ([({} : Port), { tries := 3 }].all (fun x => portGoes x 0x100000 {} && portEnabled (ported x 0x100000 {}) 3 && !refAbsent (ported x 0x100000 {}) 3 &&
      decide (x.since.toNat + 2 ^ 20 ≤ 0x100000))) = true ∧
    ([({ state := 1 } : Port), { state := 1, good := 3 }, { state := 2 }, { state := 3, good := 0xFF }, { state := 4, good := 0xFF }].all (fun x => portGoes x 0 {})) = true ∧
    (let x : Port := { state := 3, good := 0xFF }
     !fidRefused (ported x 0 {}) 3 5 && decide (widthFor (min 8 (lanesOf x.good).length) = 8) &&
     (let s := { ported x 0 {} with cfg := { on.cfg with image := some { image0 with fidPin := 0x8007 } } }
      s.wf && s.dev.powered && fidRefused s 3 5)) = true := by decide +kernel
def up0 : Port := { state := 5, good := 0xFF, inUse := 0xFF, width := 8 }
def flit0 (seq : BitVec 12) (ok : Bool) : FlitIn := ⟨1, seq, 0, [], ok, true⟩
theorem test_witness_ports_work :
    ([up0, { up0 with retrying := true }, { up0 with replayed := 9, replayRow := 7 }, { up0 with good := 0x7F, inUse := 0x0F, width := 4 },
      { up0 with state := 4, measure := some 5 }, { up0 with measure := some 5 }].all (fun x => portGoes x 0 {} && decide (4 ≤ x.state.toNat ∧ x.state ≠ 6))) = true ∧
    (mayWiden (ported { up0 with inUse := 0x0F, width := 4 } 0 {}) 3 && unitsMove (ported up0 0 {}) && !rejoinHeld (ported up0 0 {})) = true ∧
    (decide ((flit0 1 true).fseq ≠ up0.expect ∧ (flit0 0 true).fseq = up0.expect ∧ (flit0 0 true).kind.toNat ≤ 3) && !devFrozen on) = true ∧
    portGoes { up0 with state := 5 } 0 { source := 3 } = true := by decide +kernel

def locked : Epoch := { state := 1, source := 3, acquired := true }
theorem test_witness_epoch :
    ([({ up0 with state := 4, timed := true } : Port), up0].all (fun x =>
      let s := ported x 32 locked
      portGoes x 32 locked && epochExpects s 32 && !epochBelow s 3)) = true ∧
    (let s := { ported up0 32 { locked with source := 1 } with fab := { on.fab with ports := [(1, up0), (3, up0)], epoch := { locked with source := 1 } } }
     s.wf && epochExpects s 32 && epochBelow s 3) = true ∧
    (let e : Epoch := {}
     portGoes up0 5 e && epochExpects (ported up0 5 e) 32 && !epochBelow (ported up0 5 e) 3 && decide (e.acquired = false ∧ (5 : Nat) < 32)) = true ∧
    (let s := ported {} 0x100000 { locked with silent := 64 }
     let t := { s with cfg := { s.cfg with image := some { image0 with pulseEn := false } } }
     t.wf && t.dev.powered && !portDelivers t && !pulseAllowed t) = true ∧
    portGoes {} 0x100000 { locked with state := 3, source := 16 } = true ∧
    (pulseAllowed (ported up0 0 locked) && portDelivers (ported up0 0 locked)) = true ∧
    (pulseAllowed (ported {} 0 { locked with source := 16 }) && !portDelivers (ported {} 0 { locked with source := 16 }) &&
      portGoes {} 0 { locked with source := 16 }) = true := by decide +kernel

def powered (n : Stage) (p : Power) : State := { on with stage := n, power := p }
/-- Partition 0 locked to group 1, which it owns, with a vote of every other member, or none. -/
def locking (votes : List (Nat × Nat × BitVec 7)) : State :=
  { powered 48 { roundOpen := true, locks := [{ on := true, group := 1, votes := votes }, {}, {}, {}, {}, {}, {}, {}] } with conv := { on.conv with groups := [(1, pair)] } }
theorem test_witness_power :
    (controlRuns (powered 64 { next := some (64, 70) }) && powerRuns (powered 256 {}) && controlRuns (powered 256 {}) && decide (({} : Power).boundary + 256 ≤ 256)) = true ∧
    ((upFrom 0 8).all (fun p => regField (powered 256 {}) (0x300040 + 4 * p) 31 31 = 0)) = true ∧
    controlRuns (powered 4 { awaiting := some 9 }) = true ∧
    ([[], [(0, 0, 70), (0, 1, 60)]].all (fun v => let s := locking v
      controlRuns s && decide (lockEntry s 0 = some pair) && decide ((getLock s 0).group = 1 ∧ pair.members[1]? = some 0x11 ∧ pair.selfPos = 0))) = true ∧
    ([({ exceeded := 3 } : Die), { exceeded := 2 }, { limiter := 60, under := 127 }].all (fun x => powerRuns (powered 0 { dies := [x, {}] }))) = true ∧
    (powerRuns (powered 256 { critical := true }) && powerRuns (powered 256 { alertOn := true, alert := 1 }) && decide (({} : Power).dies.length = 2)) = true ∧
    (powerRuns (powered 0x4000000 {}) && decide (({} : Die).reviewed < 0x4000000 / 2 ^ 26 ∧ ({} : Die).guardMv = 50 ∧ ({} : Die).floorMv = 0)) = true ∧
    ((powered 2 { phases := [⟨0, 6, 0, 0, none, 1⟩] }).power.phases.find? (fun y => decide (y.ctx = 0) && decide (y.id = 6))).isSome = true := by decide +kernel
theorem test_votes : allVoted (locking [(0, 0, 70), (0, 1, 60)]) 0 pair ∧ ¬ allVoted (locking []) 0 pair := by
  refine ⟨fun i hi => ?_, fun h => ?_⟩
  · have : i = 0 ∨ i = 1 := by simp [pair] at hi; omega
    rcases this with rfl | rfl
    · exact ⟨(0, 0, 70), by simp [locking, powered, getLock], rfl, rfl⟩
    · exact ⟨(0, 1, 60), by simp [locking, powered, getLock], rfl, rfl⟩
  · obtain ⟨v, hv, -⟩ := h 0 (by simp [pair])
    simp [locking, powered, getLock] at hv

def weighing (n : Stage) (w : Weigh) : State := { on with stage := n, weigh := w }
theorem test_witness_weighhouse :
    ([(0, ({ state := 1 } : Weigh), false), (0x100000, { state := 1 }, true), (0x4000000, { state := 1, cur := { first := 0x4000000 } }, false)].all
      (fun x => decide (x.2.1.powered = true ∧ x.2.1.state ≠ 0) && decide (intervalDue (weighing x.1 x.2.1) = x.2.2) &&
        !passedOver (weighing x.1 x.2.1) (BitVec.ofNat 64 (windowStart (weighing x.1 x.2.1))))) = true ∧
    (decide (({} : Weigh).ckptWindow < 0x4000000 / 2 ^ 26)) = true ∧
    ([false, true].all (fun r => let s := weighing 0 { state := 1, req := r }
      takes s .dragoman 0x340004 0x80000000 && !unbound s .dragoman (regAt s 0x340004) && !heldOff s .dragoman (regAt s 0x340004) 0x80000000)) = true ∧
    (({ on with dev := { on.dev with powered := false } } : State).weigh.powered && (weighing 0 { ckpts := [⟨[], true, 0⟩, ⟨[], false, 0⟩] }).weigh.powered) = true := by decide +kernel

/-! ## Images: witnesses -/

/-- A section: its header and content. -/
def sectB (kind : Nat) (d : List Byte) : List Byte := leBytes 2 kind ++ zeros 2 ++ leBytes 4 d.length ++ zeros 8 ++ d
/-- The body of an image without partitions: every cluster in its own place, no queue and no context in use. -/
def body0 : List Byte :=
  sectB 1 ([0, 5, 0xFF, 0xFF, 0, 0, 1, 0] ++ leBytes 2 3200 ++ leBytes 2 1650 ++ zeros 36) ++
  sectB 2 ((upFrom 0 80).map (fun c => [BitVec.ofNat 8 (c % 40), 16])).flatten ++
  sectB 4 ((upFrom 0 256).map (fun _ => 0xFF :: zeros 7)).flatten ++ sectB 5 ((upFrom 0 64).map (fun _ => 0xFF :: zeros 3)).flatten
/-- The header but for its digests. -/
def front0 : List Byte := [0x45, 0x43, 0x4C, 0x4F, 0x54, 0x48, 0x30, 0x31, 1, 0, 0x12, 0x5C, 3, 0, 4, 0] ++ leBytes 8 1 ++ leBytes 4 2576 ++ zeros 4
def imageWith (d k : List Byte) : List Byte := front0 ++ (d ++ (k ++ (body0 ++ zeros imageTail)))
/-- An image that every check of R437 passes. -/
def okImage : List Byte := imageWith (shakeBytes 64 body0) (shake256 (zeros 64))

set_option maxRecDepth 20000 in
theorem body0_length : body0.length = 2576 := by decide +kernel
theorem keccakRound_length (a : List (BitVec 64)) (rc : BitVec 64) : (keccakRound a rc).length = 25 := rfl
theorem keccakFold_length (l : List (BitVec 64)) : ∀ a : List (BitVec 64), a.length = 25 → (l.foldl keccakRound a).length = 25 := by
  induction l with
  | nil => exact fun _ h => h
  | cons r t ih => exact fun a _ => ih _ (keccakRound_length a r)
theorem absorb_length (l : List (List Byte)) : ∀ a : List (BitVec 64), a.length = 25 → (l.foldl absorb a).length = 25 := by
  induction l with
  | nil => exact fun _ h => h
  | cons b t ih => exact fun a _ => ih _ (keccakFold_length _ _ rfl)
theorem lanes_length (l : List (BitVec 64)) : ((l.map (fun w => leBytes 8 w.toNat)).flatten).length = 8 * l.length := by
  induction l with
  | nil => rfl
  | cons w t ih => rw [List.map_cons, List.flatten_cons, List.length_append, ih, List.length_cons]; simp [leBytes]; omega
theorem shake_length (n : Nat) (hn : n ≤ 200) (m : List Byte) : (shakeBytes n m).length = n := by
  unfold shakeBytes
  simp only [List.length_take, lanes_length]
  rw [absorb_length _ _ rfl]
  omega

theorem image_length (d k : List Byte) (hd : d.length = 64) (hk : k.length = 32) :
    (imageWith d k).length = 128 + 2576 + imageTail := by
  have : front0.length = 32 := rfl
  simp only [imageWith, List.length_append, hd, hk, body0_length, this, zeros, List.length_replicate]
  omega
theorem drop_front {α : Type} {a b : List α} {n k : Nat} (h : a.length = k) : (a ++ b).drop (k + n) = b.drop n := by
  rw [← h, List.drop_append, List.drop_of_length_le (by omega), Nat.add_sub_cancel_left, List.nil_append]
theorem image_body (d k : List Byte) (hd : d.length = 64) (hk : k.length = 32) : imageBody (imageWith d k) = body0 := by
  unfold imageBody
  rw [show fieldAt (imageWith d k) 24 4 = 2576 from rfl, show (128 : Nat) = 32 + (64 + (32 + 0)) from rfl]
  unfold imageWith
  rw [drop_front (by rfl), drop_front hd, drop_front hk, List.drop_zero]
  have := List.take_left (l₁ := body0) (l₂ := zeros imageTail)
  rwa [body0_length] at this
theorem image_at (d k : List Byte) (hd : d.length = 64) (hk : k.length = 32) :
    bytesAt (imageWith d k) 32 64 = d ∧ bytesAt (imageWith d k) 96 32 = k ∧ imageKey (imageWith d k) = zeros 64 := by
  have h1 : ((imageWith d k).drop 32).take 64 = d := by
    unfold imageWith; rw [show (32 : Nat) = 32 + 0 from rfl, drop_front (by rfl), List.drop_zero]
    have := List.take_left (l₁ := d) (l₂ := k ++ (body0 ++ zeros imageTail))
    rwa [hd] at this
  have h2 : ((imageWith d k).drop 96).take 32 = k := by
    unfold imageWith; rw [show (96 : Nat) = 32 + (64 + 0) from rfl, drop_front (by rfl), drop_front hd, List.drop_zero]
    have := List.take_left (l₁ := k) (l₂ := body0 ++ zeros imageTail)
    rwa [hk] at this
  have h3 : ((imageWith d k).drop (128 + fieldAt (imageWith d k) 24 4)).take 64 = zeros 64 := by
    rw [show 128 + fieldAt (imageWith d k) 24 4 = 32 + (64 + (32 + (2576 + 0))) from rfl]
    unfold imageWith
    rw [drop_front (by rfl), drop_front hd, drop_front hk, drop_front body0_length, List.drop_zero]
    unfold zeros
    rw [List.take_replicate]
    rfl
  refine ⟨?_, ?_, ?_⟩
  · simp only [bytesAt, h1, hd]; simp
  · simp only [bytesAt, h2, hk]; simp
  · simp only [imageKey, bytesAt, h3]; rfl

/-- What the device makes of it. -/
def okSects : List Sect := match sections 4 128 body0 with | .ok l => l | .error _ => []
def decoded : Image where
  serial := 1
  personality := 0
  pcieUse := 5
  rolrePorts := 0xFFFF
  fidPin := 0
  pulseEn := true
  cfgFn := 0
  capW := 3200
  dieLimitW := 1650
  clusterMap := (upFrom 0 80).map (fun c => (BitVec.ofNat 8 (c % 40), 16))
  parts := []
  queues := List.replicate 256 (0xFF :: zeros 7)
  contexts := List.replicate 64 (0xFF :: zeros 3)
  groups := []
  keys := []
/-- A device that runs image i, whose owner's key stands in slot 0. -/
def running0 (i : Option Image) (owned : Bool) : State :=
  { State.reset with cfg := { State.reset.cfg with image := i, nullConfig := i.isNone, owners := if owned then [(0, (shake256 (zeros 64), false))] else [] } }

set_option maxRecDepth 20000 in
theorem ok_sections : (match sections 4 128 body0 with
    | .ok l => decide (l.length = 4) && (sectionsBad l).isNone && (disjointBad [] []).isNone && decide (ofKind l 3 = []) | .error _ => false) = true := by decide +kernel
theorem ok_sects : sections 4 128 body0 = .ok okSects ∧ okSects.length = 4 ∧ sectionsBad okSects = none ∧ ofKind okSects 3 = [] := by
  have h := ok_sections
  unfold okSects
  cases e : sections 4 128 body0 with
  | error x => simp [e] at h
  | ok l => simp [e, Option.isNone_iff_eq_none] at h; exact ⟨rfl, h.1.1.1, h.1.1.2, h.2⟩
/-- What depends on the device: its grade, and the image in force. -/
def restBad (s : State) : Bad := firstBad ([mapBad s okSects decoded, disjointBad [] [], sharesBad []] ++ [] ++
  [ownersBad okSects decoded, groupsBad okSects, personalityBad okSects decoded, serialBad s decoded false])
set_option maxRecDepth 20000 in
theorem ok_decoded : imageOf okImage okSects = decoded := by decide +kernel
set_option maxRecDepth 20000 in
theorem ok_rest : ([none, some { decoded with serial := 0 }, some { decoded with serial := 0, capW := 400 },
    some { decoded with serial := 0, parts := [part0] }].all (fun (j : Option Image) => (restBad (running0 j true)).isNone)) = true := by decide +kernel
set_option maxRecDepth 20000 in
theorem front_ok (s : State) (d k : List Byte) (hd : d.length = 64) (hk : k.length = 32) (hg : smallGrade s = false) :
    headerBad s (imageWith d k) = none := by
  unfold headerBad
  rw [image_length d k hd hk, hg]
  simp only [show bytesAt (imageWith d k) 0 8 = [0x45, 0x43, 0x4C, 0x4F, 0x54, 0x48, 0x30, 0x31] from rfl,
    show fieldAt (imageWith d k) 8 2 = 1 from rfl, show fieldAt (imageWith d k) 10 2 = 0x5C12 from rfl,
    show fieldAt (imageWith d k) 12 1 = 3 from rfl, show fieldAt (imageWith d k) 13 1 = 0 from rfl,
    show fieldAt (imageWith d k) 14 2 = 4 from rfl, show fieldAt (imageWith d k) 24 4 = 2576 from rfl,
    show fieldAt (imageWith d k) 28 4 = 0 from rfl]
  decide
/-- The image passes its checks on a device whose grade is 0, where its signer is an owner or is enrolled. -/
theorem ok_image (s : State) (enrol : Bool) (hg : smallGrade s = false) (hr : restBad s = none) (ho : signerOk s okImage enrol = true) :
    checkImage s okImage true enrol false = .ok decoded := by
  have hd : (shakeBytes 64 body0).length = 64 := shake_length 64 (by omega) _
  have hk : (shake256 (zeros 64)).length = 32 := shake_length 32 (by omega) _
  obtain ⟨h1, h2, h3⟩ := image_at _ _ hd hk
  have hs : signatureBad s okImage true enrol = none := by
    unfold signatureBad
    rw [ho]
    unfold okImage
    rw [h1, h2, h3, image_body _ _ hd hk]
    simp [firstBad, must]
  have hi : imageSections okImage = .ok okSects := by
    unfold imageSections okImage
    rw [image_body _ _ hd hk]
    exact ok_sects.1
  unfold checkImage
  rw [show firstBad [headerBad s okImage] = none by unfold okImage; rw [front_ok s _ _ hd hk hg]; rfl, hs, hi]
  simp only [ok_sects.2.1, ok_sects.2.2.1, ok_sects.2.2.2, show fieldAt okImage 14 2 = 4 from rfl]
  simp only [must, decide_true, if_true, List.map_nil]
  rw [ok_decoded]
  unfold restBad at hr
  rw [hr]
theorem owner_ok (s : State) (h : s.cfg.owners = [(0, (shake256 (zeros 64), false))]) : signerOk s okImage false = true := by
  have hk : bytesAt okImage 96 32 = shake256 (zeros 64) := (image_at _ _ (shake_length 64 (by omega) _) (shake_length 32 (by omega) _)).2.1
  unfold signerOk
  rw [hk, h]
  simp
theorem enrol_ok (s : State) (h : s.cfg.owners = []) : signerOk s okImage true = true := by
  unfold signerOk
  rw [h]
  simp

/-! ## Queues and resets: witnesses -/

/-- No collective is in execution. -/
theorem noColl_of {s : State} (h : s.conv.chans = []) (f : Nat → Bool) : NoColl s f := by
  intro c o ho
  have : getConv s c = {} := by unfold getConv; rw [h]; rfl
  rw [this] at ho
  cases ho
/-- Queue 0, bound to function n, with its control and standby registers. -/
def hosted (n : Nat) (ctl standby : Word) : State :=
  withRegs on ([(0x100018, BitVec.ofNat 32 (5 * 2 ^ 13)), (0x10001C, BitVec.ofNat 32 (n * 2 ^ 19)), (0x100020, standby), (0x100024, ctl), (0x700000, 0x100001)].filter
    (fun (p : Nat × Word) => p.2 ≠ 0))
def withQueue (s : State) (x : Queue) : State := { s with host := { s.host with queues := [(0, x)] } }
theorem test_witness_host_queues :
    (taken on (hqOff 0 + 0x40) 9 && taken on (hqOff 0 + 0x44) 3 && (getQ on 0).waiting.isEmpty) = true ∧
    (taken on (hqOff 0 + 0x24) 0x80000000 && !qEnabled on 0) = true ∧ taken (hosted 0 0x80000000 0) (hqOff 0 + 0x24) 0 = true ∧
    ([(0 : Word), 0x80000000].all (fun c => let s := withQueue (hosted 0 c 0) { stopped := true }
      taken s (hqOff 0 + 0x24) (0x40000000 + if qEnabled s 0 then 0x80000000 else 0))) = true ∧
    (taken (hosted 1 0 0x80000000) (hqOff 0 + 0x24) 0x20000000 && decide (qAttach (hosted 1 0 0x80000000) 0 ≤ 1 ∧ qFn (hosted 1 0 0x80000000) 0 = 1)) = true ∧
    (let s := withQueue (hosted 0 0 0) { unsignalled := 2 }
     s.wf && s.dev.powered && decide ((getQ s 0).unsignalled ≠ 0 ∧ qAttach s 0 ≤ 1 ∧ qFn s 0 = 0 ∧ regField s (hqOff 0 + 0x18) 21 13 = 5)) = true := by decide +kernel

/-- Context 3 is quiet; function 0 owns every partition. -/
theorem test_witness_context_resets :
    (taken on (ctxOff 3) (((regWord on (ctxOff 3)).toNat &&& 0xFFE00000) + 2 ^ 14) && taken on (ctxOff 3) (((regWord on (ctxOff 3)).toNat &&& 0xFFE00000) + 2 ^ 13)) = true ∧
    (let s := { on with cfg := { on.cfg with apply := some ⟨image0, [], [0], 0, 1024⟩ } }
     taken s (ctxOff 3) (((regWord s (ctxOff 3)).toNat &&& 0xFFE00000) + 2 ^ 14)) = true ∧
    (let s := withQueue on { journal := [{ entry (pkt 0x3E 1 1 []) with life := .issued }, entry (pkt 0x3E 1 2 [])] }
     taken s (ctxOff 0) (((regWord s (ctxOff 0)).toNat &&& 0xFFE00000) + 2 ^ 13) && decide (s.kv.streams = []) &&
     ((getQ s 0).journal.tail).all (fun e => e.life = .accepted) && boundTo s 0 0 && !(getQ s 0).journal.isEmpty) = true := by decide +kernel
theorem test_quiet : on.conv.chans = [] ∧ State.reset.conv.chans = [] := ⟨rfl, rfl⟩
theorem test_witness_resets :
    (on.wf && on.dev.powered && decide (on.dev.perst.length = 2 ∧ on.dev.perst[1]? = some false) && onBus on (.fn 0) && served on true .glbReset && sees on (.fn 0) .glbReset) = true ∧
    (mayReset on (.fn 0) 1 0 && (getPart on 0).isSome && decide (on.dev.partReset = none ∧ on.cfg.apply = none) && !on.dev.therm) = true ∧
    ([0, 1].all (fun k => let s := { on with dev := { on.dev with partReset := some k } }
      s.wf && served s true .glbReset && sees s (.fn 0) .glbReset && mayReset s (.fn 0) 1 0)) = true ∧
    (let s := { on with cfg := { on.cfg with apply := some ⟨image0, [], [0], 0, 1024⟩ } }
     s.wf && served s true .glbReset && sees s (.fn 0) .glbReset && mayReset s (.fn 0) 1 0) = true ∧
    (mayReset on (.fn 0) 2 0 && !on.dev.bootHeld && !on.dev.recovery && !on.cfg.waiting) = true ∧
    (let s := { on with dev := { on.dev with therm := true } }
     s.wf && served s true .glbReset && sees s (.fn 0) .glbReset && mayReset s (.fn 0) 2 0) = true ∧
    (let s := { on with dev := { on.dev with powered := false } }
     s.weigh.powered && !({ on with dev := { on.dev with bootHeld := true } } : State).dev.bootHeld.not) = true ∧
    (let s := weighing 64 { state := 1 }
     s.dev.powered && s.weigh.powered && decide (s.weigh.state ≠ 0) && !intervalDue s) = true := by decide +kernel

/-! ## Applying images, and firmware: witnesses -/

def takesBy (s : State) (o v : Nat) : Bool := s.wf && takes s .dragoman o v && !unbound s .dragoman (regAt s o) && !heldOff s .dragoman (regAt s o) v
theorem grade0 : smallGrade State.reset = false := by decide +kernel
/-- The image of the tests of R437 passes on devices with and without an image, whatever their registers hold. -/
theorem test_images_pass (j : Option Image) (r : Tab Word) (hj : j ∈ [none, some { decoded with serial := 0 }, some { decoded with serial := 0, capW := 400 },
    some { decoded with serial := 0, parts := [part0] }]) : checkImage (withRegs (running0 j true) r) okImage true false false = .ok decoded := by
  refine ok_image _ _ grade0 ?_ (owner_ok _ rfl)
  have h : restBad (running0 j true) = none := by simpa using List.all_eq_true.mp ok_rest j hj
  exact h
theorem test_first_owner (r : Tab Word) : checkImage (withRegs (running0 none false) r) okImage true true false = .ok decoded := by
  refine ok_image _ _ grade0 ?_ (enrol_ok _ rfl)
  have h : restBad (running0 none true) = none := by simpa using List.all_eq_true.mp ok_rest none (by simp)
  exact h
theorem test_image_changes :
    (((upFrom 0 8).filter (partChanged { decoded with serial := 0 } decoded)).isEmpty && !deviceWide { decoded with serial := 0 } decoded &&
     ((upFrom 0 8).filter (partChanged { decoded with serial := 0, capW := 400 } decoded)).isEmpty && deviceWide { decoded with serial := 0, capW := 400 } decoded &&
     !((upFrom 0 8).filter (partChanged { decoded with serial := 0, parts := [part0] } decoded)).isEmpty) = true := by decide +kernel
theorem test_witness_images :
    ([none, some { decoded with serial := 0 }, some { decoded with serial := 0, capW := 400 }, some { decoded with serial := 0, parts := [part0] }].all
      (fun j => [true, false].all (fun owned => let s := running0 j owned
        s.wf && !cfgBusy s && takesBy s 0x900018 (2 ^ 31 + 2 ^ 29 + regField s 0x900018 15 0) && takesBy s 0x900018 (2 ^ 31 + 2 * 2 ^ 29 + 2 ^ 28 + 7) &&
        takesBy s 0x900018 (2 ^ 31 + 2 * 2 ^ 29) && s.dev.waitResets.isEmpty))) = true := by decide +kernel

def applying (s : State) (a : Apply) : State := { s with stage := 2048, cfg := { s.cfg with apply := some a } }
def apply0 (i : Image) : Apply := ⟨i, [1], [0], 0, 1024⟩
def busyQueue : State := running on (pkt 0x3E 1 1 []) .fence none true
theorem test_witness_applies :
    (let s := applying on (apply0 { image0 with serial := 2 })
     devRuns s && quiesced s (apply0 { image0 with serial := 2 }) && applyAllowed s image0 { image0 with serial := 2 } [0]) = true ∧
    (let s := applying (withTally on tally0) (apply0 { image0 with serial := 2, parts := [{ part0 with tallyShare := 0, clusters := [] }] })
     devRuns s && quiesced s (apply0 image0) && !applyAllowed s image0 { image0 with serial := 2, parts := [{ part0 with tallyShare := 0, clusters := [] }] } [0]) = true ∧
    (let s := applying busyQueue (apply0 image0)
     s.dev.ready && s.dev.powered && !quiesced s (apply0 image0)) = true := by decide +kernel
def recovering (n : BitVec 3) : State := { on with dev := { on.dev with recovery := true, ready := false }, sec := { on.sec with rstate := n, minSvn := 4 } }
def firm (svn : Word) (d : Nat) : Firmware := ⟨svn, false, List.replicate d 0 ++ [9], [1, 2]⟩
theorem test_witness_firmware :
    ([1, 5].all (fun n => let s := recovering n
      takesBy s 0xA00010 0x80000000 && s.dev.recovery && !firmwareOk s (firm 3 0) true && firmwareOk s (firm 4 0) true)) = true ∧
    (on.dev.powered && !on.dev.recovery && on.dev.ready && !cfgBusy on && cfgBusy { on with sec := { on.sec with updating := [3] } } &&
      !firmwareOk on (firm 4 0) false && (upFrom 0 37).all (fun d => firmwareOk on (firm 4 d) true &&
        (upFrom 0 37).all (fun k => decide (verAt on.sec.running k ≠ verAt (firm 4 d).versions k) == decide (k = d)))) = true ∧
    (let s := { on with sec := { on.sec with updating := [3], held := some 3 } }
     s.dev.powered && decide (s.sec.waitPort = none ∧ s.sec.held = some 3 ∧ s.sec.updating = [3])) = true := by decide +kernel

/-! ## Attestation, units, freezes and registers: witnesses -/

def secured (x : Sec) : State := { on with sec := x }
def serves (s : State) (r : Transport) (level : Nat) : Bool :=
  s.dev.powered && s.dev.ready && !handing s 0 && !handing s 1 && decide (level ≤ connLevel s r)
def job0 (ready : Bool) : SignJob := ⟨5, 0x60, [1], ready⟩
theorem test_witness_attestation :
    ([Transport.doe 1, .mctpI3c, .mctpPcie 0].all (fun r => let at_ := fun (n : Nat) => secured { conn := [(transportNo r, n)].filter (fun (p : Nat × Nat) => p.2 ≠ 0) }
      (upFrom 0 4).all (fun n => serves (at_ n) r n && decide (connLevel (at_ n) r < n + 1)) &&
      (let s := { on with dev := { on.dev with ready := false } }
       s.dev.powered && !s.dev.ready) && handing (secured { held := some 0 }) 0 &&
      [[], [⟨1, false⟩, ⟨2, true⟩], [⟨1, true⟩, ⟨2, true⟩, ⟨3, true⟩, ⟨4, true⟩]].all (fun (l : List Session) => serves (secured { conn := [(transportNo r, 3)], sessions := l }) r 3) &&
      [none, some (7, 3, [1])].all (fun (l : Option (Byte × BitVec 16 × List Byte)) => serves (secured { conn := [(transportNo r, 3)], partialReq := l }) r 3) &&
      serves (secured { conn := [(transportNo r, 3)], large := some (7, [1, 2], 0, 29790) }) r 3 &&
      [[], [job0 false], [job0 true]].all (fun l => serves (secured { conn := [(transportNo r, 3)], jobs := l }) r 3))) = true ∧
    (overMctp (.doe 0) = false ∧ overMctp .mctpI3c = true) ∧
    (let s := secured { jobs := [job0 true, job0 false] }
     s.dev.powered && s.dev.ready && !handing s 1 && mgmtBusy { on with dev := { on.dev with ready := false } } && !mgmtBusy on &&
     decide (sensorValue on 99 = none) && (sensorValue on 2).isSome) = true := by decide +kernel

def units (s : State) (e : List (Nat × Engine)) (c : List (Nat × Cluster)) : State := { s with comp := { s.comp with engines := e, clusters := c } }
def unitGoes (s : State) : Bool := s.wf && unitsMove s
theorem test_witness_units :
    ([[(5 : Stage)], [1, 2, 3]].all (fun l => let s := units on [(3, { quarantined := true, quarantines := l })] []
      unitGoes s && (getEng s 3).quarantined && !(getEng s 3).retired && decide (slotOf s 3 < 17) &&
      decide (recentQuarantines (getEng s 3).quarantines < 3 ↔ l.length = 1))) = true ∧
    ([none, some (apply0 image0)].all (fun a => let s := units { on with cfg := { on.cfg with apply := a } } [] [(1, { retired := 16, spare := 31, passed := [4] })]
      unitGoes s && bitOf (getClu s 1).retired.toNat 4 && decide (tabGet 0 (getClu s 1).lives 4 < 3 ∧ (getClu s 1).spare = 31 ∧ (4 : Nat) ∈ (getClu s 1).passed) &&
      rejoinHeld s == a.isSome)) = true ∧
    (let t := { units on [] [(1, { parked := some 3 })] with comp := { (units on [] [(1, { parked := some 3 })]).comp with groups := [(76, { queue := some 0 })] } }
     let u := units on [(16, { swapped := some 19 })] [(1, { parked := some 3 })]
     unitGoes u && decide (parkedEngines u 1 = [19] ∧ hostOf u 19 = some 16) && !drvWork u 19 && decide ((getEng u 16).swapped = some 19) &&
     unitGoes t && decide (parkedEngines t 1 = [19] ∧ hostOf t 19 = some 16) && drvWork t 19 && (getEng t 16).swapped.isNone && (getEng t 16).block.isNone) = true ∧
    (unitGoes on && !(getClu on 1).unitFailed) = true ∧
    (let s := units on [(19, { retired := true })] [(1, { spare := 16 })].tail
     unitGoes s && decide (orphanOf s 1 = some 19 ∧ (getClu s 1).spare ≠ 31)) = true ∧
    (let s := units on [] [(1, { cstate := 2 })]
     unitGoes s && !rejoinHeld s && decide ((getClu s 1).cstate = 2)) = true ∧
    (let s := { on with conv := { on.conv with banks := [(3, { serving := false })] } }
     unitGoes s && !rejoinHeld s && !(getBank s 3).serving && !(getBank s 3).retired && decide (banksServing s < 8)) = true ∧
    (let s := ported { up0 with inUse := 0x0F, width := 4 } 0 {}
     unitGoes s && !rejoinHeld s && (getPort s 3).good.getLsbD 6 && !(getPort s 3).inUse.getLsbD 6 && mayWiden s 3) = true := by decide +kernel

def frozenDev (n : BitVec 2) : State := { on with dev := { on.dev with fstate := n, fstage := 5 } }
theorem test_witness_freezes :
    (let s := { on with stage := 300, fab := { on.fab with snaps := [⟨256, 0⟩] } }
     s.wf && decide (nextSnap s = some ⟨256, 0⟩ ∧ latchFrom s ≤ 300) && s.dev.powered && !devFrozen s) = true ∧
    (let s := { frozenDev 1 with stage := 8 }
     decide (s.dev.fstate = 1 ∧ s.dev.fstage.toNat ≤ s.stage.toNat) && s.dev.powered && !devFrozen s) = true ∧
    (let s := withRegs on [(0x700000, 0x100001), (0xB0000C, 0x20000000)]
     s.dev.ready && !s.dev.haltIgnored && !devFrozen s && decide (regField s 0xB0000C 29 29 = 1)) = true := by decide +kernel
def releases (kind : BitVec 4) (a : Nat) (s : State) : Bool := taken s 0xB00014 3 && taken s 0xB00010 (2 ^ 31 + a * 2 ^ 26 + kind.toNat * 2 ^ 22)
theorem test_witness_releases :
    ((upFrom 1 7).all (fun k => [1, 2].all (fun a => [on, frozenDev 2].all (fun s =>
      releases (BitVec.ofNat 4 k) a s && releases (BitVec.ofNat 4 k) a (freeze s k 3 0 0x0303) && isFrozen (freeze s k 3 0 0x0303) k 3 &&
      seesPart (freeze s k 3 0 0x0303) (.fn 0) (getPart on 0))))) = true ∧
    (actionLegal 2 2 && actionLegal 3 1 && !actionLegal 3 2) = true := by decide +kernel
/-- Two partitions, of functions 0 and 1: neither function owns the device. -/
def shared : State := { on with cfg := { on.cfg with image := some { image0 with
  parts := [{ part0 with functions := [0], contexts := [0] }, { part0 with part := 1, functions := [1], ownerFn := 1, clusters := [], ports := [], channels := [], contexts := [1] }] } } }
theorem test_witness_other_partition :
    (let s := freeze shared 1 1 1 0x0303
     taken s 0xB00014 1 && taken s 0xB00010 (2 ^ 31 + 2 ^ 26 + 2 ^ 22) && isFrozen s 1 1 && !seesPart s (.fn 0) (getPart s 1)) = true := by decide +kernel
theorem test_witness_debug :
    ([0, 1].all (fun n => taken (frozenDev n) 0xB0000C (2 ^ 31 + ((regWord on 0xB0000C).toNat &&& 0x60000000)))) = true ∧
    (taken on 0xB0003C (2 ^ 31 + regField on 0xB0003C 2 0) && !devFrozen on) = true ∧
    (let s := withRegs (frozenDev 2) [(0x700000, 0x100001), (0xB00038, 1)]
     taken s 0xB0003C (2 ^ 31 + regField s 0xB0003C 2 0) && devFrozen s && decide (64 ≤ 128 * (regWord s 0xB00038).toNat)) = true ∧
    (on.wf && !on.dev.therm && !on.dev.bootHeld && !on.dev.recovery && !on.cfg.waiting && (frozenDev 2).dev.powered) = true := by decide +kernel

def accessed (s : State) (r : Requester) (off : Nat) : Bool := s.wf && onBus s r && served s true (regAt s off)
theorem test_witness_register_writes :
    (State.reset.wf && !onBus State.reset (.fn 1)) = true ∧
    (let s := { on with dev := { on.dev with ready := false } }
     s.wf && onBus s (.fn 0) && !served s true (regAt s 0x300004)) = true ∧
    (let s := withQueue (hosted 1 0 0) { former := [0] }
     accessed s (.fn 0) 0x100040 && unbound s (.fn 0) (regAt s 0x100040) && decide (regAt s 0x100040 ≠ .accErr)) = true ∧
    (accessed on (.fn 1) 0x300004 && !unbound on (.fn 1) (regAt on 0x300004) && !sees on (.fn 1) (regAt on 0x300004)) = true ∧
    (accessed on (.fn 0) 0x10 && sees on (.fn 0) (regAt on 0x10) && !unbound on (.fn 0) (regAt on 0x10) && decide (regAt on 0x10 = .none)) = true ∧
    (accessed on (.fn 0) 0x300000 && sees on (.fn 0) (regAt on 0x300000) && decide (regAt on 0x300000 = .pwr 0 ∧ (regMasks (.pwr 0)).rw ||| (regMasks (.pwr 0)).rwl = 0)) = true ∧
    (accessed shared (.fn 0) 0x300004 && sees shared (.fn 0) (.pwr 4) && lockedOut shared (.fn 0) (regAt shared 0x300004) 0) = true ∧
    (sees on (.fn 0) (.pwr 4) && !lockedOut on (.fn 0) (regAt on 0x300004) 0 && decide ((pwrMasks 4).rwl ≠ 0 ∧ valueCause on (.fn 0) (regAt on 0x300004) 0 = 5)) = true ∧
    (taken on 0x300004 (3000 * 2 ^ 20 + 1500 * 2 ^ 9) && taken on 0x300140 77 && decide (regAt on 0x300140 = .pwr 0x140)) = true ∧
    (onBus on (.fn 1) && served on true .accErr) = true := by decide +kernel
def reads (s : State) (r : Requester) (off : Nat) : Bool := s.wf && decide (off % 4 = 0) && onBus s r && served s false (regAt s off) && sees s r (regAt s off)
theorem test_witness_register_reads :
    ([(0x1001800, Reg.eng 0 0x800), (0x500800, .adder), (0x400108, .port 0 8), (0x40016C, .port 3 12), (0x100068, .hq 0 0x68), (0x20001C, .evq 0 0x1C),
      (0x300044, .pwr 0x44), (0xB0004C, .dbg 0x4C), (0x401004, .epo 4)].all (fun x => reads on (.fn 0) x.1 && decide (regAt on x.1 = x.2))) = true ∧
    ([0x802004, 0x609004, 0xB0001C, 0x340040, 0x300144].all (reads on (.fn 0))) = true ∧
    (decide (on.power.locks.length = 8) && (pairValue on (regAt on 0x401004)).isSome && on.weigh.powered) = true := by decide +kernel

end Sys2Proof.Tests
end

section
/-! PROOFS. Register accesses (R10, R12 to R14, R260, R315, R370, R376, R421, R428, R482, R497, R505): what each stage of a
write answers, what a read returns, latches and clears; and the step rule of the command queue. -/

namespace Sys2Proof.Proofs
open Sys2Proof Sys2Proof.Machine Sys2Proof.Safety Sys2Proof.Laws

/-! ## Tables of a state in canonical form -/

/-- The tables of the host side. -/
theorem wf_host_tables {s : State} (h : s.wf = true) : tabRising s.host.regs = true ∧ tabWf 0 s.host.latched = true ∧
    tabWf {} s.host.accErr = true ∧ tabWf {} s.host.queues = true ∧ tabWf {} s.host.evqs = true := by
  obtain ⟨-, hh, -⟩ := wf_parts h
  simpa [HostSide.wf, and_assoc] using hh

theorem wf_engines {s : State} (h : s.wf = true) : tabWf {} s.comp.engines = true := by
  obtain ⟨-, -, hc, -⟩ := wf_parts h
  simp only [Compute.wf, Bool.and_eq_true, and_assoc] at hc
  exact hc.1

theorem wf_ports {s : State} (h : s.wf = true) : tabWf {} s.fab.ports = true := by
  obtain ⟨-, -, -, -, -, -, hf⟩ := wf_parts h
  simp only [Fabric.wf, Bool.and_eq_true, and_assoc] at hf
  exact hf.1

/-! ## Words of a byte list -/

/-- Piece i of a list cut into pieces of n, where the list reaches it and the fuel suffices. -/
theorem chunksOf_go_getElem? {α : Type} {n : Nat} (i : Nat) : ∀ (k : Nat) (l : List α), i < k → n * i < l.length →
    (chunksOf.go n k l)[i]? = some ((l.drop (n * i)).take n) := by
  induction i with
  | zero =>
    intro k l hk hl
    obtain ⟨k, rfl⟩ := Nat.exists_eq_add_of_lt hk
    cases l with
    | nil => simp at hl
    | cons x l => simp [chunksOf.go]
  | succ i ih =>
    intro k l hk hl
    cases k with
    | zero => omega
    | succ k =>
      cases l with
      | nil => simp at hl
      | cons x l =>
        have hd : n * i < ((x :: l).drop n).length := by rw [List.length_drop]; rw [Nat.mul_succ] at hl; omega
        simp only [chunksOf.go, List.getElem?_cons_succ]
        rw [ih k _ (by omega) hd, List.drop_drop, Nat.mul_succ, Nat.add_comm n]

theorem chunksOf_getElem? {α : Type} {n : Nat} (hn : 0 < n) {i : Nat} {l : List α} (h : n * i < l.length) :
    (chunksOf n l)[i]? = some ((l.drop (n * i)).take n) :=
  chunksOf_go_getElem? i l.length l (Nat.lt_of_le_of_lt (Nat.le_mul_of_pos_left i hn) h) h

/-- Word i of a byte list is its field at 4 i. -/
theorem words32_getElem? {l : List Byte} {i : Nat} (h : 4 * i < l.length) :
    (words32 l)[i]? = some (BitVec.ofNat 32 (fieldAt l (4 * i) 4)) := by
  simp [words32, chunksOf_getElem? (by decide : 0 < 4) h, fieldAt]

theorem fieldAt_drop (l : List Byte) (a b n : Nat) : fieldAt (l.drop a) b n = fieldAt l (a + b) n := by
  simp [fieldAt, List.drop_drop]

/-! ## Refused accesses (R14) -/

/-- Refusing an access is what `AccRefused` says of it. -/
theorem refuseAcc_refused {s : State} (h : s.wf = true) (r : Requester) (cause : Nat) (off : RegOff) :
    AccRefused r cause off s (refuseAcc s r cause off.toNat) := by
  obtain ⟨-, -, ha, -⟩ := wf_host_tables h
  cases r with
  | dragoman => exact ⟨rfl, fun _ => rfl⟩
  | fabric fid => exact ⟨rfl, fun _ => rfl⟩
  | fn f =>
    refine ⟨rfl, fun k => ?_⟩
    simp only [refuseAcc, BitVec.ofNat_toNat, BitVec.setWidth_eq]
    by_cases hk : k = f.val
    · subst hk
      rw [tabGet_tabMod_same _ _ ha]
      by_cases hf : (tabGet ({} : AccErr) s.host.accErr f.val).flag = true
      · simp only [hf, if_true, Bool.true_eq_false, and_false, if_false]
      · rw [if_neg hf, if_pos ⟨rfl, Bool.eq_false_iff.mpr hf⟩]
    · rw [tabGet_tabMod_ne _ ha hk, if_neg (fun e => hk e.1)]

/-- A write command that ends as a refused access. -/
theorem registerWrite_refused {s : State} {r : Requester} {off : RegOff} {n cause : Nat} {v : Word} (h : s.wf = true)
    (hw : regWrite s r off.toNat n v = refuseAcc s r cause off.toNat) :
    Completes (.registerWrite r off n v) s (AccRefused r cause off s) :=
  ⟨_, rfl, hw ▸ refuseAcc_refused h r cause off⟩

/-- A function that clears its flag clears no other (R14). -/
theorem clearAcc_clears {s : State} (h : s.wf = true) (f : FnId) {v : Nat} (hv : bitOf v 31 = true) :
    tabGet {} (clearAcc s (.fn f) v).host.accErr f = {} ∧
    ∀ k, k ≠ f.val → tabGet {} (clearAcc s (.fn f) v).host.accErr k = tabGet {} s.host.accErr k := by
  obtain ⟨-, -, ha, -⟩ := wf_host_tables h
  simp only [clearAcc, hv, if_true]
  exact ⟨tabGet_tabPut_same _ _ ha, fun k hk => tabGet_tabPut_ne _ ha hk⟩

/-! ## The stages of a write (R10, R12 to R14, R376, R402, R478) -/

section
variable {s : State} {r : Requester} {o n : Nat} {w : Word}

theorem regWrite_offBus (hr : ∀ f, r ≠ .fabric f) (hb : onBus s r = false) : regWrite s r o n w = s := by
  cases r with
  | fabric f => exact absurd rfl (hr f)
  | dragoman | fn f => simp [regWrite, hb]

theorem regWrite_malformed (hr : ∀ f, r ≠ .fabric f) (hb : onBus s r = true) (hn : n ≠ 4 ∨ o % 4 ≠ 0) :
    regWrite s r o n w = refuseAcc s r 1 o := by
  cases r with
  | fabric f => exact absurd rfl (hr f)
  | dragoman | fn f => simp only [regWrite, hb, if_pos hn, Bool.not_true, Bool.false_eq_true, if_false]

variable (hr : ∀ f, r ≠ .fabric f) (hb : onBus s r = true) (ho : o % 4 = 0)
include hr hb ho

theorem regWrite_unserved (hs : served s true (regAt s o) = false) : regWrite s r o 4 w = s := by
  cases r with
  | fabric f => exact absurd rfl (hr f)
  | dragoman | fn f => simp [regWrite, hb, ho, hs]

variable (hs : served s true (regAt s o) = true)
include hs

theorem regWrite_accErr (ha : regAt s o = .accErr) : regWrite s r o 4 w = clearAcc s r w.toNat := by
  rw [ha] at hs
  cases r with
  | fabric f => exact absurd rfl (hr f)
  | dragoman | fn f => simp [regWrite, hb, ho, hs, ha]

theorem regWrite_unbound (ha : regAt s o ≠ .accErr) (hu : unbound s r (regAt s o) = true) :
    regWrite s r o 4 w = refuseAcc s r 3 o := by
  cases r with
  | fabric f => exact absurd rfl (hr f)
  | dragoman | fn f => simp [regWrite, hb, ho, hs, ha, hu]

theorem regWrite_unseen (ha : regAt s o ≠ .accErr) (hu : unbound s r (regAt s o) = false) (hv : sees s r (regAt s o) = false) :
    regWrite s r o 4 w = refuseAcc s r 2 o := by
  cases r with
  | fabric f => exact absurd rfl (hr f)
  | dragoman | fn f => simp [regWrite, hb, ho, hs, ha, hu, hv]

variable (hv : sees s r (regAt s o) = true)
include hv

theorem regWrite_undefined (hx : regAt s o = .none) (hu : unbound s r (regAt s o) = false) :
    regWrite s r o 4 w = refuseAcc s r 7 o := by
  rw [hx] at hs hu hv
  cases r with
  | fabric f => exact absurd rfl (hr f)
  | dragoman | fn f => simp [regWrite, hb, ho, hs, hx, hu, hv]

theorem regWrite_pwr {p : Nat} (hx : regAt s o = .pwr p) : regWrite s r o 4 w = writeSeen s r (.pwr p) o w.toNat := by
  rw [hx] at hs hv
  cases r with
  | fabric f => exact absurd rfl (hr f)
  | dragoman | fn f => simp [regWrite, hb, ho, hs, hx, hv, unbound]

end

/-- Nothing locks a write out that its register takes, and its value has no cause to be refused. -/
theorem taken_accepts {s : State} {r : Requester} {o v : Nat} (h : Taken s r o v) :
    lockedOut s r (regAt s o) v = false ∧ valueCause s r (regAt s o) v = 0 := by
  obtain ⟨ht, -, -⟩ := h
  simp only [takes, Bool.and_eq_true, Bool.not_eq_true', decide_eq_true_eq, and_assoc] at ht
  obtain ⟨-, -, -, hl, hc, -⟩ := ht
  exact ⟨hl, hc⟩

/-! ## Writes of the PWR block (R403, R421) -/

section
variable {s : State} {r : Requester} {o p v : Nat}

theorem writeSeen_unwritable {x : Reg} (hm : (regMasks x).rw ||| (regMasks x).rwl ||| (regMasks x).wo ||| (regMasks x).w1c = 0) :
    writeSeen s r x o v = s := by
  simp only [writeSeen, hm, if_true]

/-- A register with RWL fields has fields to write. -/
theorem regMasks_ne_zero_of_rwl {x : Reg} (h : (regMasks x).rwl ≠ 0) :
    (regMasks x).rw ||| (regMasks x).rwl ||| (regMasks x).wo ||| (regMasks x).w1c ≠ 0 := by
  simp [Nat.or_eq_zero_iff, h]

theorem writeSeen_lockedOut {x : Reg} (hl : lockedOut s r x v = true) : writeSeen s r x o v = refuseAcc s r 7 o := by
  have hm : (regMasks x).rwl ≠ 0 := by
    simp only [lockedOut, Bool.and_eq_true, decide_eq_true_eq, and_assoc] at hl
    exact hl.1
  simp only [writeSeen, if_neg (regMasks_ne_zero_of_rwl hm), hl, if_true]

theorem writeSeen_badValue {x : Reg} (hm : (regMasks x).rwl ≠ 0) (hl : lockedOut s r x v = false) (hc : valueCause s r x v ≠ 0) :
    writeSeen s r x o v = refuseAcc s r (valueCause s r x v) o := by
  simp only [writeSeen, if_neg (regMasks_ne_zero_of_rwl hm), hl, if_pos hc, Bool.false_eq_true, if_false]

/-- A write that nothing refuses stores its fields, also where the register has none. -/
theorem writeSeen_pwr_words (h : s.wf = true) (hl : lockedOut s r (.pwr p) v = false) (hc : valueCause s r (.pwr p) v = 0) :
    let t := writeSeen s r (.pwr p) o v
    let m := storeMask s r (.pwr p) v
    t = { s with host := { s.host with regs := t.host.regs } } ∧ (∀ k, k ≠ o → regWord t k = regWord s k) ∧
    regWord t o = BitVec.ofNat 32 ((regWord s o).toNat - ((regWord s o).toNat &&& m) + (v &&& m)) := by
  obtain ⟨hregs, -⟩ := wf_host_tables h
  intro t m
  by_cases hm : (regMasks (.pwr p)).rw ||| (regMasks (.pwr p)).rwl ||| (regMasks (.pwr p)).wo ||| (regMasks (.pwr p)).w1c = 0
  · have ht : t = s := writeSeen_unwritable hm
    have hm0 : m = 0 := by
      simp only [Nat.or_eq_zero_iff, and_assoc] at hm
      obtain ⟨hrw, hrwl, -⟩ := hm
      simp [m, storeMask, hrw, hrwl]
    rw [ht, hm0]
    exact ⟨rfl, fun _ _ => rfl, by simp⟩
  · have hw : t = writeReg s r (.pwr p) o v := by
      simp only [t, writeSeen, if_neg hm, hl, hc, heldOff, Bool.false_eq_true, if_false, ne_eq, not_true]
    have ht : t = storeReg s r (.pwr p) o v := hw
    rw [ht]
    exact ⟨rfl, fun _ hk => regWord_setReg_ne _ hk, regWord_setReg_same o _ hregs⟩

end

/-! ## What a read latches (R370) -/

section
variable {s : State} {o k : Nat} {l : List Word}

theorem latchWords_cons (s : State) (o : Nat) (w : Word) (l : List Word) :
    latchWords s o (w :: l) = latchWords (latchWords s o [w]) (o + 4) l := rfl

theorem latchWords_wf (h : tabWf 0 s.host.latched = true) : tabWf 0 (latchWords s o l).host.latched = true := by
  induction l generalizing s o with
  | nil => exact h
  | cons w l ih => rw [latchWords_cons]; exact ih (tabWf_tabPut o w h)

/-- A word below the first one latched is as it was. -/
theorem latchedWord_latchWords_below (h : tabWf 0 s.host.latched = true) (hk : k < o) :
    latchedWord (latchWords s o l) k = latchedWord s k := by
  induction l generalizing s o with
  | nil => rfl
  | cons w l ih =>
    rw [latchWords_cons, ih (latchWords_wf h) (by omega)]
    exact tabGet_tabPut_ne w h (by omega)

/-- The words latched from an offset on stand at every fourth offset. -/
theorem latchedWord_latchWords {i : Nat} {w : Word} (h : tabWf 0 s.host.latched = true) (hi : l[i]? = some w) :
    latchedWord (latchWords s o l) (o + 4 * i) = w := by
  induction l generalizing s o i with
  | nil => simp at hi
  | cons x l ih =>
    rw [latchWords_cons]
    cases i with
    | zero =>
      obtain rfl : x = w := by simpa using hi
      rw [latchedWord_latchWords_below (latchWords_wf h) (by omega)]
      exact tabGet_tabPut_same o x h
    | succ i =>
      have hs := ih (o := o + 4) (latchWords_wf (o := o) (l := [x]) h) (by simpa using hi)
      rwa [show o + 4 + 4 * i = o + 4 * (i + 1) by omega] at hs

/-- A read latches words and does nothing else. -/
theorem latchRead_frame (s : State) (r : Requester) (o : Nat) (x : Reg) :
    ∃ m, latchRead s r o x = { s with host := { s.host with latched := m } } := by
  fun_cases latchRead s r o x <;> exact ⟨_, rfl⟩

end

/-! ## What a read clears (R12) -/

/-- Clearing a count on a read changes no tally, no memory and no freeze. -/
theorem clearRead_keeps (s : State) (x : Reg) :
    (clearRead s x).sync = s.sync ∧ (clearRead s x).mem = s.mem ∧ (clearRead s x).frozen = s.frozen := by
  fun_cases clearRead s x <;> exact ⟨rfl, rfl, rfl⟩

theorem listSet_eq_set {α : Type} (l : List α) (i : Nat) (v : α) : listSet l i v = l.set i v := by
  induction l generalizing i with
  | nil => rfl
  | cons x l ih => cases i with
    | zero => rfl
    | succ i => simp [listSet, ih]

theorem getLock_modLock_same {s : State} {p : Nat} (f : Lock → Lock) (hp : p < s.power.locks.length) :
    getLock (modLock s p f) p = f (getLock s p) := by
  simp [getLock, modLock, modPower, listSet_eq_set, hp]

/-- In t the counts that a read of register x clears (R12) are 0, and the records they stand in are otherwise as in s. -/
def CountsCleared (x : Reg) (s t : State) : Prop :=
  (∀ e, x = .eng e 0x800 → getEng t e = { getEng s e with mismatches := 0 }) ∧ (x = .adder → t.conv.residueFails = 0) ∧
  (∀ p, x = .port p 8 → getPort t p = { getPort s p with corrected := 0 }) ∧
  (∀ p, x = .port p 12 → getPort t p = { getPort s p with replays := 0, uncorrected := 0 }) ∧
  (∀ q, x = .hq q 0x68 → getQ t q = { getQ s q with dups := 0 }) ∧
  (∀ i, x = .evq i 0x1C → (tabGet {} t.host.evqs i : Evq) = { (tabGet {} s.host.evqs i : Evq) with lost := 0 }) ∧
  (∀ p, p < 8 → s.power.locks.length = 8 → x = .pwr (0x40 + 4 * p) → (getLock t p).failed = 0) ∧
  (x = .dbg 0x4C → t.dev.stale = 0)

theorem clearRead_clears {s : State} (he : tabWf {} s.comp.engines = true) (hp : tabWf {} s.fab.ports = true)
    (hq : tabWf {} s.host.queues = true) (hv : tabWf {} s.host.evqs = true) (x : Reg) : CountsCleared x s (clearRead s x) := by
  refine ⟨?_, ?_, ?_, ?_, ?_, ?_, ?_, ?_⟩
  · rintro e rfl; exact getEng_modEng_same e _ he
  · rintro rfl; rfl
  · rintro p rfl; exact getPort_modPort_same p _ hp
  · rintro p rfl; exact getPort_modPort_same p _ hp
  · rintro q rfl; exact getQ_modQ_same q _ hq
  · rintro i rfl; exact tabGet_tabMod_same i (fun v : Evq => { v with lost := 0 }) hv
  · rintro p hlt hl rfl
    have hr : 0x40 ≤ 0x40 + 4 * p ∧ 0x40 + 4 * p < 0x60 := by omega
    have hi : (0x40 + 4 * p - 0x40) / 4 = p := by omega
    simp only [clearRead, if_pos hr, hi]
    rw [getLock_modLock_same _ (by omega)]
  · rintro rfl; rfl

/-! ## Reads that are performed (R12, R376, R478) -/

section
variable {s : State} {r : Requester} {o : Nat} {x : Reg}

theorem readCommand_performed (ho : o % 4 = 0) (hx : Reads s r o) :
    readCommand s r o 4 =
      let u := clearRead (latchRead s r o (regAt s o)) (regAt s o)
      { u with host := { u.host with readData := regValue s r o (regAt s o) } } := by
  obtain ⟨hb, hs, hv⟩ := hx
  simp [readCommand, regRead, hb, ho, hs, hv]

/-- The low half of a 64-bit value is no latched word itself, and reading it clears nothing. -/
theorem pairValue_plain {w : Nat} (h : pairValue s x = some w) :
    isHigh x = false ∧ isView x = false ∧ ∀ u, clearRead u x = u := by
  cases x with
  | hq q i =>
    have hi : i = 0x58 ∨ i = 0x60 := by
      refine Decidable.byContradiction fun hn => ?_
      simp [pairValue, not_or.mp hn] at h
    rcases hi with rfl | rfl <;> exact ⟨rfl, rfl, fun _ => rfl⟩
  | epo i =>
    have hi : i = 4 := by
      refine Decidable.byContradiction fun hn => ?_
      simp [pairValue, hn] at h
    subst hi
    exact ⟨rfl, rfl, fun _ => rfl⟩
  | pwr i =>
    have hi : (0x80 ≤ i ∧ i < 0xB8 ∨ 0x200 ≤ i) ∧ i % 8 = 0 := by
      refine Decidable.byContradiction fun hn => ?_
      have h1 : ¬ (0x80 ≤ i ∧ i < 0xB8 ∧ i % 8 = 0) := by omega
      have h2 : ¬ (0x200 ≤ i ∧ i < 0x240 ∧ i % 8 = 0) := by omega
      have h3 : ¬ (0x400 ≤ i ∧ i % 8 = 0) := by omega
      simp [pairValue, h1, h2, h3] at h
    have hc : ¬ (0x40 ≤ i ∧ i < 0x60) := by omega
    refine ⟨?_, ?_, fun u => by simp only [clearRead, if_neg hc]⟩
    · simp [isHigh, hi.2]
    · simp only [isView, Bool.and_eq_false_iff, decide_eq_false_iff_not]
      omega
  | cfg i =>
    have hi : i = 4 := by
      refine Decidable.byContradiction fun hn => ?_
      simp [pairValue, hn] at h
    subst hi
    exact ⟨rfl, rfl, fun _ => rfl⟩
  | dbg i =>
    have hi : i = 4 ∨ i = 0x44 := by
      refine Decidable.byContradiction fun hn => ?_
      simp [pairValue, not_or.mp hn] at h
    rcases hi with rfl | rfl <;> exact ⟨rfl, rfl, fun _ => rfl⟩
  | _ => simp [pairValue] at h

/-- A read returns the register's value and clears its counts; tallies, memory and freezes are as before (R12). -/
theorem readCommand_clears (h : s.wf = true) (ho : o % 4 = 0) (hx : Reads s r o) :
    let t := readCommand s r o 4
    (t.host.readData = regValue s r o (regAt s o) ∧ t.sync = s.sync ∧ t.mem = s.mem ∧ t.frozen = s.frozen) ∧
    CountsCleared (regAt s o) s t := by
  obtain ⟨-, -, -, hq, hv⟩ := wf_host_tables h
  have he := wf_engines h
  have hp := wf_ports h
  obtain ⟨m, hm⟩ := latchRead_frame s r o (regAt s o)
  rw [readCommand_performed ho hx, hm]
  refine ⟨⟨rfl, clearRead_keeps { s with host := { s.host with latched := m } } (regAt s o)⟩, ?_⟩
  exact clearRead_clears (s := { s with host := { s.host with latched := m } }) he hp hq hv (regAt s o)

/-- A read of a low half returns it and latches the high half (R370). -/
theorem readCommand_pair (h : s.wf = true) (ho : o % 4 = 0) (hx : Reads s r o) {w : Nat} (hw : pairValue s (regAt s o) = some w) :
    let t := readCommand s r o 4
    t.host.readData = BitVec.ofNat 32 w ∧ latchedWord t (o + 4) = BitVec.ofNat 32 (w / 2 ^ 32) ∧
    t = { s with host := { s.host with readData := t.host.readData, latched := t.host.latched } } := by
  obtain ⟨-, hl, -⟩ := wf_host_tables h
  obtain ⟨hh, hv, hc⟩ := pairValue_plain hw
  have ht : readCommand s r o 4 =
      let u := latchWords s (o + 4) [BitVec.ofNat 32 (w / 2 ^ 32)]
      { u with host := { u.host with readData := BitVec.ofNat 32 w } } := by
    simp [readCommand_performed ho hx, hc, regValue, latchRead, hh, hv, hw]
  rw [ht]
  exact ⟨rfl, latchedWord_latchWords (i := 0) hl rfl, rfl⟩

/-- A read of the first word of a view returns it and latches the others, where the read clears nothing (R260, R315, R421, R428,
R482). -/
theorem readCommand_view (h : s.wf = true) (ho : o % 4 = 0) (hx : Reads s r o) (hr : regAt s o = x) {b : List Byte}
    (hb : viewOf s r x = some b) (hp : pairValue s x = none) (hh : isHigh x = false) (hv : isView x = false)
    (hc : ∀ u, clearRead u x = u) : ViewLatched o b s (readCommand s r o 4) := by
  obtain ⟨-, hl, -⟩ := wf_host_tables h
  have ht : readCommand s r o 4 =
      let u := latchWords s (o + 4) (words32 (b.drop 4))
      { u with host := { u.host with readData := BitVec.ofNat 32 (fieldAt b 0 4) } } := by
    simp [readCommand_performed ho hx, hr, hc, regValue, latchRead, hh, hv, hp, hb]
  rw [ht]
  refine ⟨rfl, rfl, fun i h1 hi => ?_⟩
  obtain ⟨j, rfl⟩ : ∃ j, i = j + 1 := ⟨i - 1, by omega⟩
  have hj : 4 * j < (b.drop 4).length := by rw [List.length_drop]; omega
  have hw := latchedWord_latchWords (s := s) (o := o + 4) hl (words32_getElem? hj)
  rw [fieldAt_drop] at hw
  rwa [show o + 4 * (j + 1) = o + 4 + 4 * j by omega, show 4 * (j + 1) = 4 + 4 * j by omega]

end

/-! ## The obligations -/

/-- Settles O1: with a command in front, `step` is `exec` of it on the state with the queue's rest. -/
theorem stepRunsFrontCommand : Obligations.StepRunsFrontCommand := by
  intro c s
  rfl

/-- Settles O60: a write is refused, discarded or stored at the stage of `regWrite` that its clause names; a read is its value
with what `latchRead` and `clearRead` do. -/
theorem registerAccesses : Obligations.RegisterAccesses := by
  refine ⟨fun r off size v s h hr => ⟨fun hb => ⟨_, rfl, regWrite_offBus hr hb⟩,
      fun hb hn => registerWrite_refused h (regWrite_malformed hr hb hn), ?aligned⟩,
    fun f v s h hb hs hv => ⟨_, rfl, ?cleared⟩,
    fun r off s h ho hx => ⟨⟨_, rfl, readCommand_clears h ho hx⟩, fun w hw => ⟨_, rfl, readCommand_pair h ho hx hw⟩⟩,
    fun r s h => ?views, fun a s => ?addresses⟩
  case aligned =>
    rintro hb rfl ho
    refine ⟨fun hs => ⟨_, rfl, regWrite_unserved hr hb ho hs⟩,
      fun hs ha => ⟨fun hu => registerWrite_refused h (regWrite_unbound hr hb ho hs ha hu),
        fun hu hv => registerWrite_refused h (regWrite_unseen hr hb ho hs ha hu hv),
        fun hv hu hx => registerWrite_refused h (regWrite_undefined hr hb ho hs hv hx hu)⟩,
      fun p hs hv hx => ?pwr⟩
    have hw : regWrite s r off.toNat 4 v = writeSeen s r (.pwr p) off.toNat v.toNat := regWrite_pwr hr hb ho hs hv hx
    simp only [hx]
    refine ⟨fun hm => ⟨_, rfl, hw.trans (writeSeen_unwritable hm)⟩,
      fun hl => registerWrite_refused h (hw.trans (writeSeen_lockedOut hl)),
      fun hm hl hc => registerWrite_refused h (hw.trans (writeSeen_badValue (x := .pwr p) hm hl hc)), fun ht => ⟨_, rfl, ?_⟩⟩
    obtain ⟨hl, hc⟩ := taken_accepts ht
    rw [hx] at hl hc
    rw [hw]
    exact writeSeen_pwr_words h hl hc
  case cleared =>
    have hw : regWrite s (.fn f) 8 4 v = clearAcc s (.fn f) v.toNat :=
      regWrite_accErr (fun _ => Requester.noConfusion) hb rfl (o := 8) hs rfl
    have hbit : bitOf v.toNat 31 = true := by
      simpa [bitOf, BitVec.getLsbD, Nat.testBit_eq_decide_div_mod_eq] using hv
    exact hw ▸ clearAcc_clears h f hbit
  case views =>
    refine ⟨fun hx => ⟨_, rfl, ?_⟩, fun hx => ⟨_, rfl, ?_⟩, fun hx => ⟨_, rfl, ?_⟩, fun hx hp => ⟨_, rfl, ?_⟩, fun hx => ⟨_, rfl, ?_⟩⟩
    · exact readCommand_view (x := .tlyView 4) h rfl hx rfl rfl rfl rfl rfl (fun _ => rfl)
    · exact readCommand_view (x := .wayView 4) h rfl hx rfl rfl rfl rfl rfl (fun _ => rfl)
    · exact readCommand_view (x := .dbg 0x1C) h rfl hx rfl rfl rfl rfl rfl (fun _ => rfl)
    · exact readCommand_view (x := .wgh 0x40) h rfl hx rfl (congrArg some (if_pos hp)) rfl rfl rfl (fun _ => rfl)
    · exact readCommand_view (x := .pwr 0x144) h rfl hx rfl rfl rfl rfl rfl (fun _ => rfl)
  case addresses =>
    exact ⟨fun hp => ⟨_, rfl, (if_pos rfl).trans (if_pos hp)⟩, fun hp => ⟨_, rfl, (if_neg Bool.false_ne_true).trans (if_pos hp)⟩⟩

end Sys2Proof.Proofs
end

section
/-! PROOFS. The packets of a queue (R27, R97): the gate of issue, the start of a packet, and changes of its run and of the
journal. -/

namespace Sys2Proof.Proofs
open Sys2Proof Sys2Proof.Machine Sys2Proof.Safety Sys2Proof.Laws

/-! ## Tables in canonical form -/

theorem wf_queues {s : State} (h : s.wf = true) : tabWf {} s.host.queues = true := by
  obtain ⟨-, -, -, hq, -⟩ := wf_host_tables h
  exact hq

theorem wf_convoy_tables {s : State} (h : s.wf = true) : tabRising s.conv.groups = true ∧ tabWf {} s.conv.chans = true := by
  obtain ⟨-, -, -, -, -, hc, -⟩ := wf_parts h
  simp only [ConvoySide.wf, Bool.and_eq_true, and_assoc] at hc
  obtain ⟨hg, hw, -⟩ := hc
  exact ⟨hg, hw⟩

/-! ## The gate of issue (R27, R97) -/

section
variable {s : State} {q : Nat} {p : List Byte} {r : Run}

/-- The packet that a queue may issue is the accepted one in front of its journal. -/
theorem nextPacket_front (hp : nextPacket s q = some p) :
    ∃ e l, (getQ s q).journal = e :: l ∧ e.life = .accepted ∧ e.bytes = p := by
  unfold nextPacket at hp
  dsimp only at hp
  split at hp
  · split at hp
    · cases hp
    · next e l hj =>
      split at hp
      · next ha => exact ⟨e, l, hj, ha, Option.some.inj hp⟩
      · cases hp
  · cases hp

/-- A packet that its row names issues. -/
theorem onIssue_taken (hp : nextPacket s q = some p) {test : List Byte → Bool} (ht : test p = true) (f : List Byte → State) :
    onIssue s q test f = .next (f p) := by
  simp [onIssue, hp, ht]

/-! ## The packet in execution -/

theorem curPacket_eq {e : JEntry} (he : (getQ s q).journal.find? (fun e => e.life = .issued) = some e) :
    curPacket s q = some e.bytes := by
  simp [curPacket, he]

theorem getQ_startRun_same (hw : tabWf {} s.host.queues = true) {e : JEntry} {l : List JEntry} (hj : (getQ s q).journal = e :: l) :
    getQ (startRun s q r) q = { getQ s q with run := some r, journal := { e with life := .issued } :: l } := by
  refine Eq.trans (getQ_modQ_same q _ ?_) ?_
  · exact hw
  · simp only [getQ] at hj ⊢
    simp only [hj]

theorem getQ_startRun_ne (hw : tabWf {} s.host.queues = true) {k : Nat} (hk : k ≠ q) : getQ (startRun s q r) k = getQ s k :=
  getQ_modQ_ne _ hw hk

end

theorem startRun_issuedAlone {s : State} {q : QueueId} {p : List Byte} (h : s.wf = true) (hp : nextPacket s q = some p) (r : Run)
    (reads : Bool) : IssuedAlone q p r reads s (startRun s q r) := by
  have hw := wf_queues h
  obtain ⟨e, l, hj, -, rfl⟩ := nextPacket_front hp
  have hq := getQ_startRun_same (r := r) hw hj
  refine ⟨⟨?_, by rw [hq], fun k hk => getQ_startRun_ne hw hk, rfl⟩, rfl, [], (List.append_nil _).symm, fun _ => rfl⟩
  rw [curPacket_eq (e := { e with life := .issued }) (by simp [hq])]

/-! ## Changes of a queue's run and of its journal -/

section
variable {s : State} {q k : Nat}

theorem modQ_queues_wf (f : Queue → Queue) (hw : tabWf {} s.host.queues = true) : tabWf {} (modQ s q f).host.queues = true :=
  tabWf_tabMod q f hw

theorem journalAt_queues_wf (f : JEntry → JEntry) (hw : tabWf {} s.host.queues = true) :
    tabWf {} (journalAt s q f).host.queues = true := modQ_queues_wf _ hw

theorem getQ_modRun_same (f : Run → Run) (hw : tabWf {} s.host.queues = true) :
    getQ (modRun s q f) q = { getQ s q with run := (getQ s q).run.map f } := getQ_modQ_same q _ hw

theorem getQ_modRun_ne (f : Run → Run) (hw : tabWf {} s.host.queues = true) (hk : k ≠ q) : getQ (modRun s q f) k = getQ s k :=
  getQ_modQ_ne _ hw hk

theorem getQ_journalAt_same (f : JEntry → JEntry) (hw : tabWf {} s.host.queues = true) :
    getQ (journalAt s q f) q = { getQ s q with journal := (getQ s q).journal.map (fun e => if e.life = .issued then f e else e) } :=
  getQ_modQ_same q _ hw

theorem getQ_journalAt_ne (f : JEntry → JEntry) (hw : tabWf {} s.host.queues = true) (hk : k ≠ q) :
    getQ (journalAt s q f) k = getQ s k := getQ_modQ_ne _ hw hk

/-- The packet in execution after a change of the journal that leaves lives alone. -/
theorem find_issued_map (f : JEntry → JEntry) (hf : ∀ e : JEntry, (f e).life = e.life) (l : List JEntry) :
    (l.map (fun e => if e.life = .issued then f e else e)).find? (fun e => e.life = .issued) =
      (l.find? (fun e => e.life = .issued)).map f := by
  induction l with
  | nil => rfl
  | cons e l ih =>
    by_cases he : e.life = .issued
    · simp [he, hf]
    · simp [he, ih]

end

end Sys2Proof.Proofs
end

section
/-! PROOFS. The start of a fused collective (R270, R271, R278 to R281) and the issue of compute packets (R87, R93, R97). -/

namespace Sys2Proof.Proofs
open Sys2Proof Sys2Proof.Machine Sys2Proof.Safety Sys2Proof.Laws

/-! ## Sequence numbers (R271) -/

/-- SEND, RECV and SENDRECV apart, an operation takes the number of its group. -/
theorem seqKinds_group {b : CollBlock} (h7 : b.cop ≠ 7) (h8 : b.cop ≠ 8) (h9 : b.cop ≠ 9) : seqKinds b = [(0, 0)] := by
  unfold seqKinds
  split
  · next h => exact absurd h h7
  · next h => exact absurd h h8
  · next h => exact absurd h h9
  · rfl

theorem takeSeqs_numbers (g : GroupEntry) (b : CollBlock) :
    (takeSeqs g (seqKinds b)).2 = (numbersTaken g b).2.2 ∧
    (∃ x, (takeSeqs g (seqKinds b)).1[0]? = some x ∧ x.2.2 = (numbersTaken g b).1) ∧
    ((takeSeqs g (seqKinds b)).1[1]? = none ∧ (numbersTaken g b).2.1 = 0 ∨
      ∃ y, (takeSeqs g (seqKinds b)).1[1]? = some y ∧ y.2.2 = (numbersTaken g b).2.1) := by
  unfold numbersTaken
  split
  · next h =>
    have hk : seqKinds b = [(1, b.peer)] := by simp only [seqKinds, h]
    rw [hk]
    exact ⟨rfl, ⟨_, rfl, rfl⟩, .inl ⟨rfl, rfl⟩⟩
  · next h =>
    have hk : seqKinds b = [(2, b.peer)] := by simp only [seqKinds, h]
    rw [hk]
    exact ⟨rfl, ⟨_, rfl, rfl⟩, .inl ⟨rfl, rfl⟩⟩
  · next h =>
    have hk : seqKinds b = [(1, b.peer), (2, b.peer2)] := by simp only [seqKinds, h]
    rw [hk]
    exact ⟨rfl, ⟨_, rfl, rfl⟩, .inr ⟨_, rfl, rfl⟩⟩
  · next h7 h8 h9 =>
    rw [seqKinds_group h7 h8 h9]
    exact ⟨rfl, ⟨_, rfl, rfl⟩, .inl ⟨rfl, rfl⟩⟩

theorem numbersTaken_members (g : GroupEntry) (b : CollBlock) : (numbersTaken g b).2.2.members = g.members := by
  unfold numbersTaken
  split <;> rfl

/-! ## Convoy channels -/

/-- Channel ch is c in t, and nothing else but the list of outputs differs from s. -/
def ChanIs (ch : Nat) (c : Convoy) (s t : State) : Prop :=
  t = { s with conv := { s.conv with chans := t.conv.chans }, out := t.out } ∧ tabWf {} t.conv.chans = true ∧
  getConv t ch = c ∧ ∀ k, k ≠ ch → getConv t k = getConv s k

section
variable {s t : State} {ch : Nat} {c : Convoy} {g : GroupEntry} {o : CollOp} {p : CollProg}

theorem ChanIs.refl (hw : tabWf {} s.conv.chans = true) : ChanIs ch (getConv s ch) s s := ⟨rfl, hw, rfl, fun _ _ => rfl⟩

theorem ChanIs.modConv (h : ChanIs ch c s t) (f : Convoy → Convoy) : ChanIs ch (f c) s (modConv t ch f) := by
  obtain ⟨he, hw, rfl, hn⟩ := h
  refine ⟨?_, tabWf_tabMod _ _ hw, getConv_modConv_same ch f hw, fun k hk => (getConv_modConv_ne f hw hk).trans (hn k hk)⟩
  conv => lhs; rw [he]
  rfl

theorem ChanIs.emits (h : ChanIs ch c s t) {α : Type} (f : α → Out) (l : List α) :
    ChanIs ch c s (l.foldl (fun u x => emit u (f x)) t) := by
  induction l generalizing t with
  | nil => exact h
  | cons x l ih =>
    obtain ⟨he, hr⟩ := h
    refine ih ⟨?_, hr⟩
    conv => lhs; rw [he]
    rfl

theorem ChanIs.trans {c' : Convoy} {u : State} (h : ChanIs ch c s t) (h' : ChanIs ch c' t u) : ChanIs ch c' s u := by
  obtain ⟨he, -, -, hn⟩ := h
  obtain ⟨he', hw', hc', hn'⟩ := h'
  refine ⟨?_, hw', hc', fun k hk => (hn' k hk).trans (hn k hk)⟩
  conv => lhs; rw [he', he]

/-- Queues, engines, memories, tallies, pages and groups are as before. -/
theorem ChanIs.frame (h : ChanIs ch c s t) :
    t.host = s.host ∧ t.comp = s.comp ∧ t.mem = s.mem ∧ t.sync = s.sync ∧ t.kv = s.kv ∧ t.conv.groups = s.conv.groups := by
  obtain ⟨he, -⟩ := h
  rw [he]
  exact ⟨rfl, rfl, rfl, rfl, rfl, rfl⟩

/-- Openings go out, and the channel's operation is open. -/
theorem ChanIs.sendOpenings (h : ChanIs ch c s t) (d : List Byte) :
    ∃ c', ChanIs ch c' s (sendOpenings t ch g o d) ∧ c'.ops = c.ops ∧ c'.early = c.early ∧
      c'.prog = c.prog.map (fun p => { p with opened := true }) :=
  ⟨_, ((h.emits _ _).modConv _).modConv _, rfl, rfl, rfl⟩

/-- An operation that finds its channel free takes hold of it: its progress starts without an opening received. -/
theorem hold_starts (hw : tabWf {} s.conv.chans = true) (ho : (getConv s ch).ops = [o]) (hp : (getConv s ch).prog = none)
    (hg : getGroup s o.group = some g) (hf : o.fused = true) {e : JEntry}
    (he : (getQ s o.queue).journal.find? (fun e => e.life = .issued) = some e) (hc : e.coll = none) :
    ∃ c p, ChanIs ch c s (hold s ch) ∧ c.ops = [o] ∧ c.prog = some p ∧ p.opens = [] ∧ c.early = (getConv s ch).early := by
  have h1 := ((ChanIs.refl (ch := ch) hw).modConv (fun c => { c with prog := some freshProg })).modConv
    (fun c => { c with silent := 0, lastStage := BitVec.ofNat 32 s.stage.toNat })
  unfold hold
  simp only [ho, hp, hg, he, hc]
  split
  · split
    · exact ⟨_, _, h1, ho, rfl, rfl, rfl⟩
    · next hn =>
      have hempty : o.empty = true := by simpa [hf] using hn
      simp only [readUnit, hempty, if_true]
      obtain ⟨c, hI, hops, hearly, hprog⟩ := (h1.modConv _).sendOpenings (g := g) (o := o) _
      exact ⟨c, _, hI, hops.trans ho, hprog, rfl, hearly⟩
  · obtain ⟨c, hI, hops, hearly, hprog⟩ := h1.sendOpenings (g := g) (o := o) []
    exact ⟨c, _, hI, hops.trans ho, hprog, rfl, hearly⟩

/-- In a group of two or more an operation awaits an opening. -/
theorem awaited_ne_nil (hm : 2 ≤ g.members.length) : awaited g o ≠ [] := by
  have ho : others g ≠ [] := by
    obtain ⟨m, hm⟩ := Nat.exists_eq_add_of_le' hm
    rw [others, positions, hm]
    change ((0 :: 1 :: upFrom 2 m).filter (fun k => decide (k ≠ g.selfPos))) ≠ []
    by_cases h0 : g.selfPos = 0
    · exact List.ne_nil_of_mem (a := 1) (List.mem_filter.mpr ⟨.tail _ (.head _), by simp [h0]⟩)
    · exact List.ne_nil_of_mem (a := 0) (List.mem_filter.mpr ⟨.head _, by simp [Ne.symm h0]⟩)
  unfold awaited
  split
  · exact List.cons_ne_nil _ _
  · exact List.cons_ne_nil _ _
  · exact List.cons_ne_nil _ _
  · exact ho

theorem allOpen_none (hm : 2 ≤ g.members.length) (hp : p.opens = []) : allOpen g o p = false := by
  obtain ⟨k, l, hk⟩ := List.exists_cons_of_ne_nil (awaited_ne_nil (o := o) hm)
  simp [allOpen, hk, hp]

/-- The messages that concern operation o are no longer among the early ones of a channel. -/
def withoutEarly (o : CollOp) (c : Convoy) : Convoy := { c with early := c.early.filter (fun x => !concerns o x.2.1) }

/-- Where nothing arrived early, taking the early openings leaves the operation as it waits for its first one. -/
theorem takeEarly_nothing (merge : FpVal → List FpVal → FpVal → List FpVal → FpVal × List FpVal) (ho : (getConv s ch).ops = [o])
    (hp : (getConv s ch).prog = some p) (hg : getGroup s o.group = some g) (he : (getConv s ch).early = []) (hopen : p.opens = [])
    (hm : 2 ≤ g.members.length) (hw : tabWf {} s.conv.chans = true) :
    takeEarly merge s ch = modConv s ch (withoutEarly o) := by
  have hh : holder s ch = some (o, p, g) := by simp [holder, ho, hp, hg]
  have hh' : holder (modConv s ch (withoutEarly o)) ch = some (o, p, g) := by
    have hc : getConv (modConv s ch (withoutEarly o)) ch = withoutEarly o (getConv s ch) := getConv_modConv_same ch _ hw
    have hg' : getGroup (modConv s ch (withoutEarly o)) o.group = some g := hg
    simp [holder, hc, withoutEarly, ho, hp, hg']
  have hafter : afterOpen merge (modConv s ch (withoutEarly o)) ch = modConv s ch (withoutEarly o) := by
    simp [afterOpen, hh', allOpen_none hm hopen]
  simp only [takeEarly, hh, he, List.filter_nil, List.foldl_nil]
  exact hafter

/-- An operation of a compute packet that finds its channel free holds it and waits there. -/
theorem takeEarly_hold_starts (merge : FpVal → List FpVal → FpVal → List FpVal → FpVal × List FpVal)
    (hw : tabWf {} s.conv.chans = true) (ho : (getConv s ch).ops = [o]) (hp : (getConv s ch).prog = none)
    (hy : (getConv s ch).early = []) (hg : getGroup s o.group = some g) (hm : 2 ≤ g.members.length) (hf : o.fused = true) {e : JEntry}
    (he : (getQ s o.queue).journal.find? (fun e => e.life = .issued) = some e) (hc : e.coll = none) :
    ∃ c, ChanIs ch c s (takeEarly merge (hold s ch) ch) ∧ c.ops = [o] ∧ c.prog.isSome = true := by
  obtain ⟨c, p, h, hops, hprog, hopen, hearly⟩ := hold_starts hw ho hp hg hf he hc
  obtain ⟨-, -, -, -, -, hgroups⟩ := h.frame
  obtain ⟨-, hw', rfl, -⟩ := id h
  have hg' : getGroup (hold s ch) o.group = some g := by rw [getGroup, hgroups]; exact hg
  rw [takeEarly_nothing merge hops hprog hg' (hearly.trans hy) hopen hm hw']
  exact ⟨_, h.modConv _, hops, by rw [withoutEarly, hprog]; rfl⟩

end

/-! ## The start of a fused collective (R270, R271, R278) -/

/-- The operation that collective block b of compute packet p starts in group g (R275, R278). -/
def fusedOp (q : Nat) (p : List Byte) (b : CollBlock) (g : GroupEntry) (n : Nat) (region : Region) : CollOp :=
  let c := collPacketOf p
  { queue := q, group := b.group, cop := b.cop, red := b.red, ctype := b.ctype, count := n
    seq := (numbersTaken g b).1, seq2 := (numbersTaken g b).2.1, peer := b.peer, peer2 := b.peer2, src := region.addr, dst := b.dst
    capacity := c.capacity, pitch := c.pitch, pages := [], elemBytes := elemSize b.red b.ctype region.row c.dh
    doneTally := b.doneTally, doneScope := b.doneScope, empty := region.empty, fused := true, counts := [] }

/-- The numbers that the operation of block b takes are noted in its group and in the journal, and the packet waits for it. -/
def collNoted (s : State) (q : Nat) (b : CollBlock) (g : GroupEntry) : State :=
  modRun (journalAt (setGroup s b.group (some (numbersTaken g b).2.2)) q (fun e => { e with seqs := (takeSeqs g (seqKinds b)).1 })) q
    (fun r => { r with coll := some (b.group % 32), collDone := false })

section
variable {s : State} {q : Nat} {p : List Byte} {b : CollBlock} {g : GroupEntry} {n : Nat} {region : Region} {e : JEntry}

theorem startColl_fused (merge : FpVal → List FpVal → FpVal → List FpVal → FpVal × List FpVal)
    (hb : collOf p (collOffset (pkOp p)) = b) (hg : getGroup s b.group = some g)
    (he : (getQ s q).journal.find? (fun e => e.life = .issued) = some e) (hs : e.seqs = []) (hc : e.coll = none) :
    startColl merge s q p n (some region) [] [] =
      takeEarly merge (hold (modConv (collNoted s q b g) (b.group % 32) (fun c => { c with ops := c.ops ++ [fusedOp q p b g n region] }))
        (b.group % 32)) (b.group % 32) := by
  obtain ⟨hgroup, ⟨x, hx, hseq⟩, hseq2⟩ := takeSeqs_numbers g b
  unfold startColl
  simp only [hb, hg, he, hs, hc, List.isEmpty_nil, if_true, Bool.false_eq_true, if_false, hgroup, hx, hseq]
  rcases hseq2 with ⟨hy, h0⟩ | ⟨y, hy, hn⟩
  · simp only [hy, ← h0]
    rfl
  · simp only [hy, hn]
    rfl

theorem getQ_collNoted_same (hw : tabWf {} s.host.queues = true) : getQ (collNoted s q b g) q = { getQ s q with
    run := (getQ s q).run.map (fun r => { r with coll := some (b.group % 32), collDone := false })
    journal := (getQ s q).journal.map (fun e =>
      if e.life = .issued then { e with seqs := (takeSeqs g (seqKinds b)).1 } else e) } := by
  unfold collNoted
  rw [getQ_modRun_same _ (journalAt_queues_wf (s := setGroup s b.group _) _ hw), getQ_journalAt_same (s := setGroup s b.group _) _ hw]
  rfl

theorem getQ_collNoted_ne (hw : tabWf {} s.host.queues = true) {k : Nat} (hk : k ≠ q) :
    getQ (collNoted s q b g) k = getQ s k := by
  unfold collNoted
  rw [getQ_modRun_ne _ (journalAt_queues_wf (s := setGroup s b.group _) _ hw) hk, getQ_journalAt_ne (s := setGroup s b.group _) _ hw hk]
  rfl

theorem find_issued_collNoted (hw : tabWf {} s.host.queues = true) (he : (getQ s q).journal.find? (fun e => e.life = .issued) = some e) :
    (getQ (collNoted s q b g) q).journal.find? (fun e => e.life = .issued) =
      some { e with seqs := (takeSeqs g (seqKinds b)).1 } := by
  rw [getQ_collNoted_same hw]
  exact (find_issued_map (fun e => { e with seqs := (takeSeqs g (seqKinds b)).1 }) (fun _ => rfl) _).trans (by rw [he]; rfl)

/-- In a group with other members and a free channel the operation takes hold of the channel and waits there; else only what
`collNoted` changes has changed. -/
theorem startColl_chanIs (merge : FpVal → List FpVal → FpVal → List FpVal → FpVal × List FpVal)
    (hq : tabWf {} s.host.queues = true) (hw : tabWf {} s.conv.chans = true) (hr : tabRising s.conv.groups = true)
    (hb : collOf p (collOffset (pkOp p)) = b) (hg : getGroup s b.group = some g) (hm : 2 ≤ g.members.length)
    (ho : (getConv s (b.group % 32)).ops = []) (hp : (getConv s (b.group % 32)).prog = none) (hy : (getConv s (b.group % 32)).early = [])
    (he : (getQ s q).journal.find? (fun e => e.life = .issued) = some e) (hs : e.seqs = []) (hc : e.coll = none) :
    ∃ c, ChanIs (b.group % 32) c (collNoted s q b g) (startColl merge s q p n (some region) [] []) ∧
      c.ops = [fusedOp q p b g n region] ∧ c.prog.isSome = true := by
  have h1 := (ChanIs.refl (s := collNoted s q b g) (ch := b.group % 32) hw).modConv
    (fun c => { c with ops := c.ops ++ [fusedOp q p b g n region] })
  rw [startColl_fused merge hb hg he hs hc]
  generalize modConv (collNoted s q b g) _ _ = u at h1 ⊢
  obtain ⟨hhost, -, -, -, -, hgroups⟩ := h1.frame
  obtain ⟨-, hwu, hcu, -⟩ := id h1
  have hgu : getGroup u (fusedOp q p b g n region).group = some (numbersTaken g b).2.2 := by
    rw [getGroup, hgroups]
    exact tabFind_tabSet_same _ _ hr
  have heu : (getQ u (fusedOp q p b g n region).queue).journal.find? (fun e => e.life = .issued) =
      some { e with seqs := (takeSeqs g (seqKinds b)).1 } := by
    rw [getQ, hhost]
    exact find_issued_collNoted hq he
  have hou : (getConv u (b.group % 32)).ops = [fusedOp q p b g n region] := hcu ▸ congrArg (· ++ _) ho
  have hmem : 2 ≤ (numbersTaken g b).2.2.members.length := by rwa [numbersTaken_members]
  obtain ⟨c, h2, hops, hprog⟩ := takeEarly_hold_starts merge hwu hou (by rw [hcu]; exact hp) (by rw [hcu]; exact hy) hgu hmem rfl heu hc
  exact ⟨c, h1.trans h2, hops, hprog⟩

end

/-- The operation of block b holds its channel with the numbers it has taken, where u has the groups and channels of s. -/
theorem ChanIs.collStarted {s u t : State} {q : QueueId} {p : List Byte} {b : CollBlock} {g : GroupEntry} {n : Nat} {region : Region}
    {c : Convoy} (h : ChanIs (b.group % 32) c (collNoted u q b g) t) (hops : c.ops = [fusedOp q p b g n region])
    (hprog : c.prog.isSome = true) (hu : u.conv = s.conv) (hr : tabRising s.conv.groups = true) : CollStarted q b g n s t := by
  obtain ⟨-, -, -, -, -, hgroups⟩ := h.frame
  have hgroups : t.conv.groups = tabSet s.conv.groups b.group (some (numbersTaken g b).2.2) := by rw [hgroups, ← hu]; rfl
  obtain ⟨-, -, rfl, hne⟩ := h
  refine ⟨⟨_, hops, rfl, rfl, rfl, rfl, rfl, rfl, rfl, rfl, rfl, rfl, rfl⟩, hprog, ?_, fun k hk => ?_, fun k hk => ?_⟩
  · rw [getGroup, hgroups]; exact tabFind_tabSet_same _ _ hr
  · rw [getGroup, hgroups]; exact tabFind_tabSet_ne _ hk
  · rw [hne k hk, getConv, getConv, ← hu]; rfl

/-! ## Issue with or without a collective (R97, R278 to R281) -/

/-- A change of state that adds readers to the list of them and does nothing else; none unless `reads`. -/
def AddsReaders (reads : Bool) (k : State → State) : Prop :=
  ∀ u, ∃ l, k u = { u with kv := { u.kv with readers := u.kv.readers ++ l } } ∧ (reads = false → l = [])

theorem addsReaders_none (reads : Bool) : AddsReaders reads (fun u => u) := fun u => ⟨[], by simp, fun _ => rfl⟩

theorem addsReaders_attend (q : Nat) (a : Attn) (l : List Nat) (ds : List (List Byte)) :
    AddsReaders true (fun u => if nth0 l 1 = 0 then u else attnReaders u q a l ds) := by
  intro u
  dsimp only
  split
  · exact addsReaders_none true u
  · exact ⟨_, rfl, Bool.noConfusion⟩

section
variable {s u : State} {q : QueueId} {p : List Byte} {shape n : Nat} {region : Region} {r : Run} {reads : Bool} {k : State → State}

/-- In a state u that differs from the start of packet p in the readers alone, the collective of p starts: the packet waits for it. -/
theorem startColl_issued {b : CollBlock} {g : GroupEntry} (h : s.wf = true) (hp : nextPacket s q = some p)
    (hu : u = { startRun s q r with kv := u.kv }) (hb : collOf p (collOffset (pkOp p)) = b) (hi : ChannelIdle s q b g) :
    let t := startColl lseMerge u q p n (some region) [] []
    Issued q p { r with coll := some (b.group % 32), collDone := false } s t ∧ CollStarted q b g n s t ∧
      t.comp = s.comp ∧ t.sync = s.sync ∧ t.mem = s.mem := by
  obtain ⟨hg, hm, ho, hpr, hy, e, j, hj, hes, hec⟩ := hi
  have hbytes : e.bytes = p := by
    obtain ⟨e', j', hj', -, he'⟩ := nextPacket_front hp
    rw [hj] at hj'
    cases hj'
    exact he'
  have hw := wf_queues h
  obtain ⟨hgr, hcw⟩ := wf_convoy_tables h
  have hq := getQ_startRun_same (r := r) hw hj
  have hqu : ∀ k, getQ u k = getQ (startRun s q r) k := fun k => by rw [hu]; rfl
  have hwu : tabWf {} u.host.queues = true := by rw [hu]; exact modQ_queues_wf _ hw
  have hcu : u.conv = s.conv := by rw [hu]; rfl
  have heu : (getQ u q).journal.find? (fun e => e.life = .issued) = some { e with life := .issued } := by
    rw [hqu, hq]; rfl
  obtain ⟨c, ht, hops, hprog⟩ := startColl_chanIs (n := n) (region := region) lseMerge hwu (hcu ▸ hcw) (hcu ▸ hgr) hb
    (by rw [getGroup, hcu]; exact hg) hm (by rw [getConv, hcu]; exact ho) (by rw [getConv, hcu]; exact hpr)
    (by rw [getConv, hcu]; exact hy) heu hes hec
  generalize startColl lseMerge u q p n (some region) [] [] = t at ht ⊢
  obtain ⟨hhost, hcomp, hmem, hsync, -, -⟩ := ht.frame
  have hqt : ∀ k, getQ t k = getQ (collNoted u q b g) k := fun k => by rw [getQ, hhost]; rfl
  refine ⟨⟨?_, ?_, fun k hk => ?_, ?_⟩, ht.collStarted hops hprog hcu hgr, ?_, ?_, ?_⟩
  · rw [curPacket, hqt, find_issued_collNoted hwu heu]; exact congrArg some hbytes
  · rw [hqt, getQ_collNoted_same hwu, hqu, hq]; rfl
  · rw [hqt, getQ_collNoted_ne hwu hk, hqu, getQ_startRun_ne hw hk]
  · rw [hhost, hu]; rfl
  · rw [hcomp, hu]; rfl
  · rw [hsync, hu]; rfl
  · rw [hmem, hu]; rfl

/-- A compute packet whose own checks have passed issues as `IssuesFused` says. -/
theorem issuesFused_of_exec {c : Instr} (h : s.wf = true) (hp : nextPacket s q = some p) (hk : AddsReaders reads k)
    (hx : exec c s = .next (issueFused s q p shape region r k)) : IssuesFused c q p shape region r reads s := by
  obtain ⟨l, hl, hnone⟩ := hk (startRun s q r)
  refine ⟨fun hz => ⟨_, hx, ?_⟩, fun hz hh n g hn hc hi => ⟨_, hx, ?_⟩⟩
  · obtain ⟨hissued, -⟩ := startRun_issuedAlone (q := q) h hp r reads
    have hf : issueFused s q p shape region r k = k (startRun s q r) := by simp only [issueFused, hz, if_true]
    rw [hf, hl]
    exact ⟨hissued, rfl, l, rfl, hnone⟩
  · have hf : issueFused s q p shape region r k = startColl lseMerge (k (startRun s q r)) q p n (some region) [] [] := by
      simp only [issueFused, hz, hh, hn, hc, Bool.false_eq_true, if_false]
    rw [hf, hl]
    exact startColl_issued h hp rfl rfl hi

end

section
variable {q : QueueId} {p : List Byte} {s : State} {l : List Nat}

theorem issuePlan_ok {tb : List (Nat × Nat)} (hs : planStatic s p (qCtx s q) (qLatency s q) (qBatched s q) none = none)
    (hb : planBounds s q (qCtx s q) (planOf p) = .ok l tb) :
    issuePlan s q p = issueFused s q p (planOf p).shape (planRegion (planOf p) l tb)
      { newRun s (.blocks (upFrom 0 (planBlocks (planOf p) l tb)) 0) with bounds := l, table := tb } (fun u => u) := by
  simp only [issuePlan, hs, hb]

theorem execConv_ok {tb : List (Nat × Nat)} (hp : nextPacket s q = some p) (ho : pkOp p = 5) (hs : convStatic s p (qCtx s q) none = none)
    (hb : convBounds s q (qCtx s q) (convOf p) = .ok l tb) :
    execConv q s = .next (issueFused s q p (convOf p).shape (convRegion (convOf p) l)
      { newRun s (.blocks (upFrom 0 (convBlocks (convOf p) l)) 0) with bounds := l } (fun u => u)) := by
  rw [execConv, onIssue_taken hp (decide_eq_true ho)]
  simp only [hs, hb]

theorem execAttend_ok {ds : List (List Byte)} (hp : nextPacket s q = some p) (ho : pkOp p = 3) (hs : attnStatic s p (qCtx s q) = none)
    (hb : attnBounds s q (qCtx s q) (attnOf p) = .ok l ds) :
    execAttend q s = .next (issueFused s q p (attnOf p).shape (attnRegion (attnOf p) (nth0 l 1))
      { newRun s (.attend (if nth0 l 1 = 0 then [] else appendUnits (attnOf p) (nth0 l 2) ds)
          (upFrom 0 (attnBlocks (attnOf p) (nth0 l 1))) 0) with bounds := l, descs := ds }
      (fun u => if nth0 l 1 = 0 then u else attnReaders u q (attnOf p) l ds)) := by
  rw [execAttend, onIssue_taken hp (decide_eq_true ho)]
  simp only [hs, hb]

end

/-- Settles O19: each row answers with `issueFused`, whose two outcomes are those of `IssuesFused`. -/
theorem computePacketsIssue : Obligations.ComputePacketsIssue := by
  intro q p s h hp
  refine ⟨fun row hrow ho hs l tb hb => ?_, fun ho hs l tb hb => ?_, fun ho hs l ds hb => ?_⟩
  · refine issuesFused_of_exec h hp (addsReaders_none false) ?_
    rw [← issuePlan_ok hs hb]
    simp only [List.mem_cons, List.not_mem_nil, or_false] at hrow
    rcases hrow with rfl | rfl | rfl
    · exact onIssue_taken hp (decide_eq_true ho) _
    · exact onIssue_taken hp (decide_eq_true ho) _
    · exact onIssue_taken hp (decide_eq_true ho) _
  · exact issuesFused_of_exec h hp (addsReaders_none false) (execConv_ok hp ho hs hb)
  · exact issuesFused_of_exec h hp (addsReaders_attend q (attnOf p) l ds) (execAttend_ok hp ho hs hb)

end Sys2Proof.Proofs
end

section
/-! PROOFS. Fetching packets (R379, R383, R384): fields of a packet, acceptance, and duplicates. -/

namespace Sys2Proof.Proofs
open Sys2Proof Sys2Proof.Machine Sys2Proof.Safety Sys2Proof.Laws

/-! ## Fields of a packet -/

theorem leNat_lt (l : List Byte) : leNat l < 256 ^ l.length := by
  induction l with
  | nil => simp [leNat]
  | cons b l ih =>
    have hb := b.isLt
    simp only [leNat, List.length_cons, Nat.pow_succ]
    omega

theorem fieldAt_lt (l : List Byte) (a n : Nat) : fieldAt l a n < 256 ^ n :=
  Nat.lt_of_lt_of_le (leNat_lt _) (Nat.pow_le_pow_right (by decide) (List.length_take_le _ _))

/-! ## Fetching (R379, R383, R384) -/

section
variable {s : State} {q k : Nat} {d : List Byte}

theorem writeBackQ_frame (s : State) (q : Nat) : ∃ m f o, writeBackQ s q = { s with mem := m, fab := f, out := s.out ++ o } :=
  gWrite_frame s _ _

/-- The consumed index moves past a packet that the journal holds already, and the packet is counted (R383). -/
def duplicatePassed (s : State) (q next : Nat) : State :=
  modQ (addCtr s 8 q 2 1) q (fun u => { u with
    consumed := BitVec.ofNat 16 next, dups := if u.dups = 0xFFFFFFFF then u.dups else u.dups + 1 })

/-- A fetch of slots that are there accepts the packet, or passes over a duplicate. -/
theorem execPacketFetch_ready {q : QueueId} (hm : mayFetch s q = true) (hl : d.length = 64 * fetchSlots s q d)
    (hr : fetchSlots s q d ≤ slotsReady s q) :
    execPacketFetch q d s = .next (
      let next := ((getQ s q).consumed.toNat + fetchSlots s q d) % sqSize s q
      if pkSeq d ≤ (getQ s q).accSeq.toNat then duplicatePassed s q next else acceptPacket s q d next) := by
  simp [execPacketFetch, hm, hl, Nat.not_lt.mpr hr, duplicatePassed]

theorem getQ_duplicatePassed_same (hw : tabWf {} s.host.queues = true) (next : Nat) :
    getQ (duplicatePassed s q next) q = { getQ s q with
      consumed := BitVec.ofNat 16 next
      dups := if (getQ s q).dups = 0xFFFFFFFF then (getQ s q).dups else (getQ s q).dups + 1 } :=
  getQ_modQ_same (s := addCtr s 8 q 2 1) q _ hw

theorem getQ_duplicatePassed_ne (hw : tabWf {} s.host.queues = true) (next : Nat) (hk : k ≠ q) :
    getQ (duplicatePassed s q next) k = getQ s k := getQ_modQ_ne (s := addCtr s 8 q 2 1) _ hw hk

/-- The journal entry of a packet at its acceptance (R383). -/
def acceptedEntry (s : State) (d : List Byte) : JEntry :=
  { bytes := d, no := s.host.accepts, life := .accepted, shipped := false, seqs := [], ops := [], acks := [], coll := none }

theorem acceptPacket_frame (s : State) (q : Nat) (d : List Byte) (next : Nat) :
    let t := acceptPacket s q d next
    t.sync = s.sync ∧ t.comp = s.comp ∧ t.host.accepts = s.host.accepts + 1 ∧
    t.host.queues = tabMod {} s.host.queues q (fun u => { u with
      journal := u.journal ++ [acceptedEntry s d], accSeq := BitVec.ofNat 64 (pkSeq d), consumed := BitVec.ofNat 16 next }) := by
  intro t
  obtain ⟨m, f, o, h⟩ : ∃ m f o, t = { modQ { s with host := { s.host with accepts := s.host.accepts + 1 } } q (fun u => { u with
      journal := u.journal ++ [acceptedEntry s d], accSeq := BitVec.ofNat 64 (pkSeq d), consumed := BitVec.ofNat 16 next })
        with mem := m, fab := f, out := o } := by
    obtain ⟨m, f, o, h⟩ := writeBackQ_frame _ q
    exact ⟨m, f, _, h⟩
  rw [h]
  exact ⟨rfl, rfl, rfl, rfl⟩

end

theorem pkSeq_lt (d : List Byte) : pkSeq d < 2 ^ 64 := fieldAt_lt d 8 8

/-- An accepted packet stands behind the others in the journal, and the queue has read up to it. -/
theorem getQ_acceptPacket_same {s : State} {q : Nat} (hw : tabWf {} s.host.queues = true) (d : List Byte) (next : Nat) :
    getQ (acceptPacket s q d next) q = { getQ s q with
      journal := (getQ s q).journal ++ [acceptedEntry s d], accSeq := BitVec.ofNat 64 (pkSeq d), consumed := BitVec.ofNat 16 next } := by
  obtain ⟨-, -, -, hq⟩ := acceptPacket_frame s q d next
  rw [getQ, hq]
  exact tabGet_tabMod_same q _ hw

theorem getQ_acceptPacket_ne {s : State} {q k : Nat} (hw : tabWf {} s.host.queues = true) (d : List Byte) (next : Nat) (hk : k ≠ q) :
    getQ (acceptPacket s q d next) k = getQ s k := by
  obtain ⟨-, -, -, hq⟩ := acceptPacket_frame s q d next
  rw [getQ, hq]
  exact tabGet_tabMod_ne _ hw hk

end Sys2Proof.Proofs
end

section
/-! PROOFS. Completing packets (R27, R143, R385 to R390, R395, R398): what sealing, signals and records leave of a queue. -/

namespace Sys2Proof.Proofs
open Sys2Proof Sys2Proof.Machine Sys2Proof.Safety Sys2Proof.Laws

/-! ## What sealing and the end of readers leave alone -/

/-- Nothing but pages and the count of draws differs. -/
def PagesOnly (s t : State) : Prop := ∃ kv n, t = { s with kv := kv, fresh := n }

theorem PagesOnly.refl (s : State) : PagesOnly s s := ⟨s.kv, s.fresh, rfl⟩

theorem PagesOnly.trans {s t u : State} (h : PagesOnly s t) (h' : PagesOnly t u) : PagesOnly s u := by
  obtain ⟨kv, n, rfl⟩ := h
  obtain ⟨kv', n', rfl⟩ := h'
  exact ⟨kv', n', rfl⟩

theorem PagesOnly.foldl {α : Type} {f : State → α → State} (hf : ∀ u x, PagesOnly u (f u x)) (l : List α) (s : State) :
    PagesOnly s (l.foldl f s) := by
  induction l generalizing s with
  | nil => exact .refl s
  | cons x l ih => exact (hf s x).trans (ih _)

theorem startSwap_pagesOnly (s : State) (p : Partition) (q i : Nat) : PagesOnly s (startSwap s p q i) := by
  unfold startSwap
  split
  · exact .refl s
  · exact ⟨_, _, rfl⟩

theorem endReaders_pagesOnly (s : State) (q : Nat) : PagesOnly s (endReaders s q) := by
  refine PagesOnly.trans (t := { s with kv := { s.kv with readers := s.kv.readers.filter (fun r => r.1 ≠ q) } }) ⟨_, _, rfl⟩ ?_
  refine PagesOnly.foldl (fun u x => ?_) _ _
  split
  · exact .refl u
  · refine PagesOnly.trans (t := modSeq u _ _) ⟨_, _, rfl⟩ (PagesOnly.foldl (fun v i => ?_) _ _)
    split
    · exact startSwap_pagesOnly v _ q i
    · exact .refl v

/-- Nothing but memory, pages, the fabric side and the outputs differs. -/
def SealKeeps (s t : State) : Prop := ∃ m f kv o, t = { s with mem := m, fab := f, kv := kv, out := o }

theorem SealKeeps.trans {s t u : State} (h : SealKeeps s t) (h' : SealKeeps t u) : SealKeeps s u := by
  obtain ⟨m, f, kv, o, rfl⟩ := h
  obtain ⟨m', f', kv', o', rfl⟩ := h'
  exact ⟨m', f', kv', o', rfl⟩

theorem SealKeeps.refl (s : State) : SealKeeps s s := ⟨s.mem, s.fab, s.kv, s.out, rfl⟩

theorem writePieces_sealKeeps (l : List (Nat × Nat)) : ∀ (s : State) (bs : List Byte), SealKeeps s (writePieces s l bs) := by
  induction l with
  | nil => exact fun s _ => .refl s
  | cons x l ih =>
    intro s bs
    obtain ⟨m, f, o, h⟩ := gWrite_frame s x.1 (bs.take x.2)
    exact SealKeeps.trans ⟨m, f, s.kv, _, h⟩ (ih _ _)

theorem sealPage_keeps {s u : State} {q tag i : Nat} (h : sealPage s q tag i = .done u) : SealKeeps s u := by
  unfold sealPage at h
  dsimp only at h
  split at h
  · cases h; exact .refl s
  · split at h
    · cases h; exact .refl s
    · split at h
      · split at h <;> cases h
      · cases h
        exact (writePieces_sealKeeps _ s _).trans ⟨_, _, _, _, rfl⟩

theorem sealAll_keeps {q tag : Nat} {l : List Nat} : ∀ {s u : State}, sealAll s q tag l = .done u → SealKeeps s u := by
  induction l with
  | nil => intro s u h; cases h; exact .refl s
  | cons i l ih =>
    intro s u h
    unfold sealAll at h
    split at h
    · next hi => exact (sealPage_keeps hi).trans (ih h)
    · next hn => exact absurd h (hn u)

/-! ## What signals leave of a queue with nothing in execution -/

/-- No packet of queue q is in execution, and the table of queues is in canonical form. -/
def Settled (q : Nat) (s : State) : Prop :=
  tabWf {} s.host.queues = true ∧ ∀ e, e ∈ (getQ s q).journal → e.life = .accepted

/-- If queue q is settled, it is settled afterwards, its record is as before, and so are the register words. -/
def QueueKept (q : Nat) (s t : State) : Prop :=
  Settled q s → Settled q t ∧ getQ t q = getQ s q ∧ t.host.regs = s.host.regs

section
variable {q : Nat} {s t u : State}

theorem QueueKept.refl (q : Nat) (s : State) : QueueKept q s s := fun h => ⟨h, rfl, rfl⟩

theorem QueueKept.trans (h : QueueKept q s t) (h' : QueueKept q t u) : QueueKept q s u := by
  intro hs
  obtain ⟨ht, hq, hr⟩ := h hs
  obtain ⟨hu, hq', hr'⟩ := h' ht
  exact ⟨hu, hq'.trans hq, hr'.trans hr⟩

theorem QueueKept.of_host (hq : t.host.queues = s.host.queues) (hr : t.host.regs = s.host.regs) : QueueKept q s t := by
  intro hs
  have hg : getQ t q = getQ s q := by rw [getQ, hq]; rfl
  obtain ⟨hw, hj⟩ := hs
  exact ⟨⟨hq ▸ hw, hg ▸ hj⟩, hg, hr⟩

theorem QueueKept.foldl {α : Type} {f : State → α → State} (hf : ∀ u x, QueueKept q u (f u x)) (l : List α) (s : State) :
    QueueKept q s (l.foldl f s) := by
  induction l generalizing s with
  | nil => exact .refl q s
  | cons x l ih => exact (hf s x).trans (ih _)

/-- A change of the packets in execution does not reach a settled queue. -/
theorem journalAt_queueKept (s : State) (k : Nat) (f : JEntry → JEntry) : QueueKept q s (journalAt s k f) := by
  rintro ⟨hw, hj⟩
  have hg : getQ (journalAt s k f) q = getQ s q := by
    by_cases hk : q = k
    · subst hk
      have hmap : (getQ s q).journal.map (fun e => if e.life = .issued then f e else e) = (getQ s q).journal := by
        refine (List.map_congr_left fun e he => ?_).trans (List.map_id _)
        rw [hj e he]
        rfl
      rw [getQ_journalAt_same f hw, hmap]
    · exact getQ_journalAt_ne f hw hk
  exact ⟨⟨journalAt_queues_wf f hw, hg ▸ hj⟩, hg, rfl⟩

theorem noteOp_queueKept (s : State) (o : TallyOp) (w : Word) : QueueKept q s (noteOp s o w) := by
  unfold noteOp
  split
  · exact .refl q s
  · exact journalAt_queueKept s _ _

theorem raiseEvent_queueKept (s : State) (code sev ctx src : Nat) (detail : List Byte) :
    QueueKept q s (raiseEvent s code sev ctx src detail) := by
  obtain ⟨m, f, o, e, h⟩ := raiseEvent_frame s code sev ctx src detail
  rw [h]
  exact .of_host rfl rfl

theorem freeze_queueKept (s : State) (kind idx part code : Nat) : QueueKept q s (freeze s kind idx part code) := by
  obtain ⟨l, o, h, -⟩ := freeze_frame s kind idx part code
  rw [h]
  exact .of_host rfl rfl

theorem noteFaulter_queueKept (s : State) (i : Issuer) : QueueKept q s (noteFaulter s i) := by
  unfold noteFaulter
  split <;> exact .of_host rfl rfl

theorem chargeIssuer_queueKept (s : State) (o : TallyOp) (code : Nat) (detail : List Byte) (soft : Bool) :
    QueueKept q s (chargeIssuer s o code detail soft) := by
  unfold chargeIssuer
  cases soft with
  | true => exact raiseEvent_queueKept s _ _ _ _ _
  | false => exact (raiseEvent_queueKept s _ _ _ _ _).trans ((freeze_queueKept _ _ _ _ _).trans (noteFaulter_queueKept _ _))

theorem setTally_queueKept (s : State) (ctx vid : Nat) (y : Option Tally) : QueueKept q s (setTally s ctx vid y) := .of_host rfl rfl

theorem tallyFault_queueKept (s : State) (o : TallyOp) (y : Tally) (k : TallyFault) : QueueKept q s (tallyFault s o y k) :=
  (setTally_queueKept s _ _ _).trans (chargeIssuer_queueKept _ _ _ _ _)

theorem wakeEng_queueKept (s : State) (i : Issuer) : QueueKept q s (wakeEng s i) := by
  unfold wakeEng
  split <;> exact .of_host rfl rfl

theorem releaseAll_queueKept (s : State) (ctx vid : Nat) : QueueKept q s (releaseAll s ctx vid) := by
  unfold releaseAll
  split
  · exact .refl q s
  · refine QueueKept.trans (QueueKept.trans ?_ (QueueKept.foldl (fun u w => noteOp_queueKept u _ _) _ _))
      (QueueKept.foldl (fun u w => wakeEng_queueKept u _) _ _)
    exact .of_host rfl rfl

theorem followFree_queueKept (s : State) (ctx vid v : Nat) : QueueKept q s (followFree s ctx vid v) := by
  unfold followFree
  split <;> exact .of_host rfl rfl

theorem arrive_queueKept (s : State) (o : TallyOp) (y : Tally) (a : Nat) : QueueKept q s (arrive s o y a) := by
  unfold arrive phaseDone
  dsimp only
  split
  · split
    · exact .of_host rfl rfl
    · exact (setTally_queueKept s _ _ _).trans (releaseAll_queueKept _ _ _)
  · exact .of_host rfl rfl

/-- A signal word resumes nobody. -/
theorem resumeIssuer_word {o : TallyOp} {k : Nat} (ho : o.issuer = .word k) (w : Word) : resumeIssuer s o w = s := by
  simp only [resumeIssuer, ho]

section
variable {o : TallyOp} {k : Nat} (ha : isAdd o.code = true) (ho : o.issuer = .word k)
include ha ho

theorem onCounter_queueKept (s : State) (y : Tally) : QueueKept q s (onCounter s o y) := by
  unfold onCounter
  simp only [ha, if_true, resumeIssuer_word ho]
  split
  · exact tallyFault_queueKept s o y _
  · exact (((setTally_queueKept s _ _ _).trans (followFree_queueKept _ _ _ _)).trans (releaseAll_queueKept _ _ _)).trans
      (noteOp_queueKept _ _ _)

theorem onBarrier_queueKept (s : State) (y : Tally) : QueueKept q s (onBarrier s o y) := by
  unfold onBarrier
  simp only [ha, if_true, resumeIssuer_word ho]
  split
  · exact tallyFault_queueKept s o y _
  · exact (arrive_queueKept s o _ _).trans (noteOp_queueKept _ _ _)

/-- An ADD of a signal word reaches no record of a settled queue. -/
theorem applyOp_queueKept (s : State) : QueueKept q s (applyOp s o) := by
  unfold applyOp
  split
  · exact chargeIssuer_queueKept s o _ _ _
  · next y _ =>
    split
    · exact tallyFault_queueKept s o y _
    · split
      · exact tallyFault_queueKept s o y _
      · split
        · exact onBarrier_queueKept ha ho s y
        · exact onCounter_queueKept ha ho s y

end

theorem doSignal_queueKept (s : State) (ctx tag w k : Nat) : QueueKept q s (doSignal s ctx tag w (.word k)) := by
  unfold doSignal
  split
  · exact applyOp_queueKept rfl rfl s
  · exact .refl q s

theorem doSignals_queueKept (s : State) (ctx : Nat) (p : List Byte) (k : Nat) : QueueKept q s (doSignals s ctx p (.word k)) := by
  unfold doSignals
  dsimp only
  split
  · exact .refl q s
  · exact (doSignal_queueKept s _ _ _ k).trans (doSignal_queueKept _ _ _ _ k)

theorem doSignals_none {p : List Byte} (h : NoSignals p) (s : State) (ctx : Nat) (i : Issuer) : doSignals s ctx p i = s := by
  unfold doSignals
  rcases h with h | ⟨h0, h1⟩
  · simp only [h, if_true]
  · simp [doSignal, h0, h1]

end

/-! ## Records (R385 to R390) -/

/-- The records l stand behind the earlier ones of queue q, written or waiting; nothing else of the queue that a program sees, no
other queue, no register word, no tally and no freeze differs. -/
def RecordsAdded (q : Nat) (l : List (List Byte)) (s t : State) : Prop :=
  (getQ t q).run = (getQ s q).run ∧ (getQ t q).journal = (getQ s q).journal ∧ (getQ t q).stopped = (getQ s q).stopped ∧
  (getQ t q).posted ++ (getQ t q).waiting = (getQ s q).posted ++ (getQ s q).waiting ++ l ∧
  (∀ k, k ≠ q → getQ t k = getQ s k) ∧ t.host.regs = s.host.regs ∧ t.sync = s.sync ∧ t.frozen = s.frozen

theorem RecordsAdded.nothing (q : Nat) (s : State) : RecordsAdded q [] s s :=
  ⟨rfl, rfl, rfl, (List.append_nil _).symm, fun _ _ => rfl, rfl, rfl, rfl⟩

theorem RecordsAdded.trans {q : Nat} {l l' : List (List Byte)} {s t u : State} (h : RecordsAdded q l s t) (h' : RecordsAdded q l' t u) :
    RecordsAdded q (l ++ l') s u := by
  obtain ⟨hrun, hj, hst, hrec, hne, hregs, hsync, hfr⟩ := h
  obtain ⟨hrun', hj', hst', hrec', hne', hregs', hsync', hfr'⟩ := h'
  exact ⟨hrun'.trans hrun, hj'.trans hj, hst'.trans hst, by rw [hrec', hrec, List.append_assoc],
    fun k hk => (hne' k hk).trans (hne k hk), hregs'.trans hregs, hsync'.trans hsync, hfr'.trans hfr⟩

/-- A change of queue q alone that keeps its run, its journal and whether it is stopped, and adds the records l behind the others. -/
theorem recordsAdded_modQ {s t : State} {q : Nat} {f : Queue → Queue} {l : List (List Byte)} (hw : tabWf {} s.host.queues = true)
    (ht : ∃ m b o, t = { modQ s q f with mem := m, fab := b, out := o })
    (hf : (f (getQ s q)).run = (getQ s q).run ∧ (f (getQ s q)).journal = (getQ s q).journal ∧
      (f (getQ s q)).stopped = (getQ s q).stopped)
    (hl : (f (getQ s q)).posted ++ (f (getQ s q)).waiting = (getQ s q).posted ++ (getQ s q).waiting ++ l) : RecordsAdded q l s t := by
  obtain ⟨m, b, o, rfl⟩ := ht
  obtain ⟨hrun, hj, hst⟩ := hf
  have hq := getQ_modQ_same q f hw
  exact ⟨(congrArg Queue.run hq).trans hrun, (congrArg Queue.journal hq).trans hj, (congrArg Queue.stopped hq).trans hst,
    (congrArg (fun u : Queue => u.posted ++ u.waiting) hq).trans hl, fun k hk => getQ_modQ_ne f hw hk, rfl, rfl, rfl⟩

section
variable {s : State} {q : Nat} (hw : tabWf {} s.host.queues = true)
include hw

/-- Firing the completion vector adds no record (R390). -/
theorem coalesce_recordsAdded (status : Nat) : RecordsAdded q [] s (coalesce s q status) := by
  unfold coalesce
  split
  · exact .nothing q s
  · dsimp only
    split
    · exact recordsAdded_modQ hw ⟨_, _, _, rfl⟩ ⟨rfl, rfl, rfl⟩ (List.append_nil _).symm
    · exact .nothing q s

theorem writeRecord_recordsAdded (r : List Byte) (h : (getQ s q).waiting = []) : RecordsAdded q [r] s (writeRecord s q r) := by
  unfold writeRecord
  dsimp only
  generalize regAddr s (hqOff q + 8) 12 + _ = a
  obtain ⟨m, b, o, hg⟩ := gWrite_frame s a (withPhase r (getQ s q).phase)
  rw [hg]
  refine RecordsAdded.trans (l := [r]) (l' := []) ?_ (coalesce_recordsAdded (modQ_queues_wf _ (by exact hw)) _)
  exact recordsAdded_modQ hw ⟨m, b, _, rfl⟩ ⟨rfl, rfl, rfl⟩ (by simp [h])

/-- A record is written, or waits behind the others. -/
theorem postRecord_recordsAdded (r : List Byte) : RecordsAdded q [r] s (postRecord s q r) := by
  unfold postRecord
  split
  · exact recordsAdded_modQ hw ⟨_, _, _, rfl⟩ ⟨rfl, rfl, rfl⟩ (List.append_assoc _ _ _).symm
  · next h =>
    have hwait : (getQ s q).waiting = [] := by
      rw [Bool.or_eq_true, not_or, Bool.not_eq_true', Bool.not_eq_false] at h
      exact List.isEmpty_iff.mp h.2
    exact writeRecord_recordsAdded hw r hwait

end

/-! ## Completion (R27, R395, R398) -/

/-- The packet in execution has left the journal of queue q; its signals and its record are still to come. -/
def packetEnded (s : State) (q status : Nat) : State :=
  let counted := addCtr s 8 q 1 1
  modQ (endReaders (if status = 0x0010 then addCtr counted 8 q 3 1 else counted) q) q (fun u => { u with
    run := none
    journal := u.journal.filter (fun e => !(e.life = .issued))
    stopped := u.stopped || decide (status = 0x0010) })

theorem completePacket_eq {s : State} {q : Nat} {p : List Byte} (hp : curPacket s q = some p) (status : Nat) :
    completePacket s q status =
      let s1 := packetEnded s q status
      let s2 := if status = 0 then doSignals s1 (qCtx s1 q) p (.word q) else s1
      if pkQuiet p && decide (status = 0) then s2 else postRecord s2 q (recordBytes p status q) := by
  simp only [completePacket, hp]
  rfl

theorem packetEnded_frame (s : State) (q status : Nat) : ∃ kv f n, packetEnded s q status =
    modQ { s with kv := kv, fab := f, fresh := n } q (fun u => { u with
      run := none
      journal := u.journal.filter (fun e => !(e.life = .issued))
      stopped := u.stopped || decide (status = 0x0010) }) := by
  unfold packetEnded
  dsimp only
  split
  · obtain ⟨kv, n, h⟩ := endReaders_pagesOnly (addCtr (addCtr s 8 q 1 1) 8 q 3 1) q
    rw [h]
    exact ⟨kv, _, n, rfl⟩
  · obtain ⟨kv, n, h⟩ := endReaders_pagesOnly (addCtr s 8 q 1 1) q
    rw [h]
    exact ⟨kv, _, n, rfl⟩

theorem packetEnded_keeps {s : State} {q : Nat} (hw : tabWf {} s.host.queues = true) (status : Nat) :
    let t := packetEnded s q status
    Settled q t ∧ getQ t q = { getQ s q with
      run := none, journal := unissued s q, stopped := (getQ s q).stopped || decide (status = 0x0010) } ∧
    (∀ k, k ≠ q → getQ t k = getQ s k) ∧ t.host.regs = s.host.regs ∧ t.sync = s.sync ∧ t.frozen = s.frozen := by
  obtain ⟨kv, f, n, h⟩ := packetEnded_frame s q status
  have hj : (getQ s q).journal.filter (fun e => !(e.life = .issued)) = unissued s q := by
    refine List.filter_congr fun e _ => ?_
    cases e.life <;> rfl
  have hq : getQ (packetEnded s q status) q = { getQ s q with
      run := none, journal := unissued s q, stopped := (getQ s q).stopped || decide (status = 0x0010) } := by
    rw [← hj, h]
    exact getQ_modQ_same q _ hw
  refine ⟨⟨?_, fun e he => ?_⟩, hq, fun k hk => ?_, ?_, ?_, ?_⟩
  · rw [h]; exact modQ_queues_wf _ hw
  · rw [hq] at he
    exact of_decide_eq_true (List.mem_filter.mp he).2
  · rw [h]; exact getQ_modQ_ne _ hw hk
  all_goals rw [h]; rfl

/-- A packet in execution completes as `PacketDone` says. -/
theorem completePacket_packetDone {s : State} {q : QueueId} {p : List Byte} (hw : tabWf {} s.host.queues = true)
    (hp : curPacket s q = some p) (status : Nat) : PacketDone q p status (unissued s q) s (completePacket s q status) := by
  rw [completePacket_eq hp]
  dsimp only
  obtain ⟨hset, hq1, hne1, hregs1, hsync1, hfr1⟩ := packetEnded_keeps (q := q) hw status
  generalize packetEnded s q status = s1 at hset hq1 hne1 hregs1 hsync1 hfr1 ⊢
  have hkept : QueueKept q s1 (if status = 0 then doSignals s1 (qCtx s1 q) p (.word q) else s1) := by
    split
    · exact doSignals_queueKept s1 _ p q
    · exact .refl q s1
  have hsame : NoSignals p ∨ status ≠ 0 → (if status = 0 then doSignals s1 (qCtx s1 q) p (.word q) else s1) = s1 := by
    rintro (h | h)
    · rw [doSignals_none h, ite_self]
    · rw [if_neg h]
  generalize (if status = 0 then doSignals s1 (qCtx s1 q) p (.word q) else s1) = s2 at hkept hsame ⊢
  obtain ⟨⟨hw2, -⟩, hq2, hregs2⟩ := hkept hset
  have hrec : RecordsAdded q (if pkQuiet p ∧ status = 0 then [] else [recordBytes p status q]) s2
      (if pkQuiet p && decide (status = 0) then s2 else postRecord s2 q (recordBytes p status q)) := by
    by_cases hquiet : pkQuiet p = true ∧ status = 0
    · simpa [hquiet] using RecordsAdded.nothing q s2
    · have hb : ¬ (pkQuiet p && decide (status = 0)) = true := by simpa using hquiet
      rw [if_neg hquiet, if_neg hb]
      exact postRecord_recordsAdded hw2 _
  obtain ⟨hrun, hj, hst, hposted, hne, hregs, hsync, hfr⟩ := hrec
  rw [hq2, hq1] at hrun hj hst hposted
  refine ⟨hrun, hj, hst, hposted, hregs.trans (hregs2.trans hregs1), fun h => ?_⟩
  obtain rfl := hsame h
  exact ⟨fun k hk => (hne k hk).trans (hne1 k hk), hsync.trans hsync1, hfr.trans hfr1⟩

/-- A queue that has no page to work on has nothing to serve. -/
theorem serveKv_workEnded {s : State} {q : Nat} {r : Run} (hr : (getQ s q).run = some r) (hw : workEnded r.work = true) :
    serveKv s q = s := by
  unfold serveKv
  split
  · rfl
  · rw [hr]
    split
    · next r' p hr' _ =>
      cases hr'
      split
      · next hk => rw [hk] at hw; exact absurd hw Bool.false_ne_true
      · next hk => rw [hk] at hw; exact absurd hw Bool.false_ne_true
      · rfl
    · rfl

section
variable {s : State} {q : QueueId} {p : List Byte} {r : Run} (hd : devRuns s = true) (hr : (getQ s q).run = some r)
  (hp : curPacket s q = some p) (hw : workEnded r.work = true) (hc : r.collDone = true) (ha : acked s q = true)
include hd hr hp hw hc ha

theorem execPacketComplete_status (h : r.status ≠ 0) :
    execPacketComplete q s = .next (completePacket s q r.status.toNat) := by
  simp only [execPacketComplete, serveKv_workEnded hr hw, hr, hp, hd, hw, hc, ha, Bool.not_true, Bool.or_false, Bool.false_eq_true,
    if_false, if_pos h]

theorem execPacketComplete_sealed (h : r.status = 0) {u : State} (hu : sealAll s q (pkTag p) (sealsOf s p r) = .done u) :
    execPacketComplete q s = .next (completePacket u q 0) := by
  simp only [execPacketComplete, serveKv_workEnded hr hw, hr, hp, hd, hw, hc, ha, Bool.not_true, Bool.or_false, Bool.false_eq_true,
    if_false, h, ne_eq, not_true, hu]

end

/-- Settles O25: `acceptPacket` and the counted duplicate are the two outcomes of a fetch; a completion is `completePacket` after
sealing, which no queue's record, tally or freeze depends on. -/
theorem packetFetchAndCompletion : Obligations.PacketFetchAndCompletion := by
  refine ⟨fun q d s h => ?fetch,
    fun q p r s h hd hrun hp hw hc ha => ⟨fun hst => ?status, fun hst u hu => ?sealed⟩⟩
  case fetch =>
    have hw := wf_queues h
    dsimp only
    generalize hn : ((getQ s q).consumed.toNat + fetchSlots s q d) % sqSize s q = next
    intro hm hl hr
    have hx := execPacketFetch_ready hm hl hr
    simp only [hn] at hx
    refine ⟨fun hseq => ?accepted, fun hseq => ?duplicate⟩
    case accepted =>
      rw [if_neg (Nat.not_le.mpr hseq)] at hx
      have hq := getQ_acceptPacket_same (q := q) hw d next
      obtain ⟨hsync, hcomp, hacc, -⟩ := acceptPacket_frame s q d next
      refine ⟨_, hx, ⟨acceptedEntry s d, by rw [hq], rfl, rfl, rfl⟩, ?_, by rw [hq], by rw [hq],
        fun k hk => getQ_acceptPacket_ne hw d next hk, hacc, hsync, hcomp⟩
      rw [hq]
      exact Nat.mod_eq_of_lt (pkSeq_lt d)
    case duplicate =>
      rw [if_pos hseq] at hx
      have hq := getQ_duplicatePassed_same (q := q) hw next
      exact ⟨_, hx, by rw [hq], by rw [hq], by rw [hq], fun hd => by rw [hq, if_neg hd],
        fun k hk => getQ_duplicatePassed_ne hw next hk, rfl, rfl, rfl⟩
  case status =>
    exact ⟨_, execPacketComplete_status hd hrun hp hw hc ha hst, completePacket_packetDone (wf_queues h) hp _⟩
  case sealed =>
    refine ⟨_, execPacketComplete_sealed hd hrun hp hw hc ha hst hu, ?_⟩
    obtain ⟨m, f, kv, o, rfl⟩ := sealAll_keeps hu
    exact completePacket_packetDone (s := { s with mem := m, fab := f, kv := kv, out := o }) (wf_queues (s := s) h) hp 0

end Sys2Proof.Proofs
end

section
/-! PROOFS. Failed issue checks (R97, R98): what the failure of a packet's check leaves, and the checks of its row. -/

namespace Sys2Proof.Proofs
open Sys2Proof Sys2Proof.Machine Sys2Proof.Safety Sys2Proof.Laws

/-! ## What a failed check leaves (R97) -/

theorem qCtx_lt (s : State) (q : Nat) : qCtx s q < 64 := Nat.mod_lt _ (by decide)

/-- A queue that may issue a packet has none in execution. -/
theorem nextPacket_run {s : State} {q : Nat} {p : List Byte} (hp : nextPacket s q = some p) : (getQ s q).run = none := by
  unfold nextPacket at hp
  dsimp only at hp
  split at hp
  · next hgate =>
    simp only [Bool.and_eq_true, and_assoc] at hgate
    obtain ⟨-, hrun, -⟩ := hgate
    exact Option.isNone_iff_eq_none.mp hrun
  · cases hp

/-- The packet in front of queue q has not issued: the context is frozen, the journal is as before with nothing in execution, and no
tally, page, drover, engine or channel has changed. -/
def LeftUnissued (q : Nat) (s t : State) : Prop :=
  isFrozen t 1 (qCtx s q) = true ∧ (getQ t q).journal = (getQ s q).journal ∧ (getQ t q).run = none ∧
  t.sync = s.sync ∧ t.kv = s.kv ∧ t.comp = s.comp ∧ t.conv = s.conv

section
variable {s : State} {q : Nat} {p : List Byte}

theorem isFrozen_failIssue (s : State) (q : Nat) (p : List Byte) (f : CheckFail) :
    isFrozen (failIssue s q p f) 1 (qCtx s q) = true :=
  isFrozen_freeze _ _ _ _ _ (by decide) (Nat.lt_trans (qCtx_lt s q) (by decide))

/-- A failed check changes event queues, memory, the fabric side and the list of freezes, and sends messages: nothing else. -/
theorem failIssue_frame (s : State) (q : Nat) (p : List Byte) (f : CheckFail) :
    ∃ m b o e l v, failIssue s q p f = { s with
      mem := m, fab := b, out := s.out ++ o, host := { s.host with evqs := e }, frozen := l
      dev := { s.dev with frozenOverflow := v } } := by
  obtain ⟨m, b, o, e, hevent⟩ := raiseEvent_frame s f.code 2 (qCtx s q) (srcOf 3 q) (f.detail (pkTag p))
  unfold failIssue freezeCtx
  rw [hevent]
  obtain ⟨l, v, hfreeze, -⟩ := freeze_frame
    { s with mem := m, fab := b, out := s.out ++ o, host := { s.host with evqs := e } } 1 (qCtx s q)
    (partIdx (partOfCtx { s with mem := m, fab := b, out := s.out ++ o, host := { s.host with evqs := e } } (qCtx s q))) f.code
  exact ⟨m, b, o, e, l, v, hfreeze⟩

theorem failIssue_leftUnissued (hp : nextPacket s q = some p) (f : CheckFail) : LeftUnissued q s (failIssue s q p f) := by
  have hrun := nextPacket_run hp
  have hfrozen := isFrozen_failIssue s q p f
  obtain ⟨m, b, o, e, l, v, hframe⟩ := failIssue_frame s q p f
  rw [hframe] at hfrozen ⊢
  exact ⟨hfrozen, rfl, hrun, rfl, rfl, rfl, rfl⟩

theorem issueChecked_leftUnissued (hp : nextPacket s q = some p) {c : Option CheckFail} (hc : c ≠ none) (k : State) :
    LeftUnissued q s (issueChecked s q p c k) := by
  obtain ⟨f, rfl⟩ := Option.ne_none_iff_exists'.mp hc
  exact failIssue_leftUnissued hp f

/-- A row that names packet p and issues it after check c leaves it unissued where c fails. -/
theorem completes_of_failed_check {i : Instr} {test : List Byte → Bool} {f : List Byte → State} (hx : exec i s = onIssue s q test f)
    (hp : nextPacket s q = some p) (ht : test p = true) {c : Option CheckFail} {k : State} (hf : f p = issueChecked s q p c k)
    (hc : c ≠ none) : Completes i s (LeftUnissued q s) :=
  ⟨_, hx.trans (onIssue_taken hp ht f), hf ▸ issueChecked_leftUnissued hp hc k⟩

end

/-! ## The checks of the rows -/

section
variable {s : State} {q : QueueId} {p : List Byte}

/-- A packet with an opcode that is not listed fails the check of its header (R379). -/
theorem headerCheck_unlisted (ho : opLength (pkOp p) = none) : headerCheck p ≠ none := by
  simp [headerCheck, ho]

/-- A row that an opcode alone names. -/
theorem opRow_failed {i : Instr} {op : Nat} {f : List Byte → State} (hx : exec i s = onIssue s q (fun p => pkOp p = op) f)
    (hp : nextPacket s q = some p) (ho : pkOp p = op) {c : Option CheckFail} {k : State} (hf : f p = issueChecked s q p c k)
    (hc : c ≠ none) : Completes i s (LeftUnissued q s) :=
  completes_of_failed_check hx hp (decide_eq_true ho) hf hc

theorem planRows_failed {row : Instr × Nat} (hrow : row ∈ [(Instr.matmul q, 1), (.matmulBatched q, 2), (.matvec q, 4)])
    (hp : nextPacket s q = some p) (ho : pkOp p = row.2)
    (hc : planStatic s p (qCtx s q) (qLatency s q) (qBatched s q) none ≠ none) : Completes row.1 s (LeftUnissued q s) := by
  simp only [List.mem_cons, List.not_mem_nil, or_false] at hrow
  rcases hrow with rfl | rfl | rfl
  all_goals exact opRow_failed rfl hp ho rfl hc

theorem collRows_failed {row : (QueueId → Instr) × Nat} (hrow : row ∈ collRows) (hp : nextPacket s q = some p) (ho : pkOp p = 0x18)
    (hcop : (collOf p 104).cop = row.2) (hc : collHead p ≠ none) : Completes (row.1 q) s (LeftUnissued q s) := by
  simp only [collRows, List.mem_cons, List.not_mem_nil, or_false] at hrow
  rcases hrow with rfl | rfl | rfl | rfl | rfl | rfl | rfl | rfl | rfl | rfl
  all_goals exact completes_of_failed_check rfl hp (by simp [ho, hcop]) rfl hc

end

/-- Settles O20: every row issues through a check of its own, and a failed one ends in `failIssue`, which freezes the context and
reaches neither the queue's journal nor tallies, pages, channels or drovers. -/
theorem failedIssueCheckFreezes : Obligations.FailedIssueCheckFreezes := by
  intro q p s _ hp
  exact ⟨fun _ hrow ho hc => planRows_failed hrow hp ho hc,
    fun ho hc => opRow_failed (i := .conv q) rfl hp ho rfl hc,
    fun ho hc => opRow_failed (i := .attend q) rfl hp ho rfl hc,
    fun ho hc => opRow_failed (i := .transfer q) rfl hp ho rfl hc,
    fun ho hc => opRow_failed (i := .ringConfig q) rfl hp ho rfl hc,
    fun ho hc => opRow_failed (i := .droverLaunch q) rfl hp ho rfl hc,
    fun ho hc => opRow_failed (i := .syncDump q) rfl hp ho rfl hc,
    fun ho hc => opRow_failed (i := .snapshot q) rfl hp ho rfl hc,
    fun ho hc => opRow_failed (i := .freezeAt q) rfl hp ho rfl hc,
    fun _ hrow ho hcop hc => collRows_failed hrow hp ho hcop hc,
    fun ho => completes_of_failed_check rfl hp (by simp [ho]) rfl (headerCheck_unlisted ho)⟩

end Sys2Proof.Proofs
end

section
/-! PROOFS. Append units (R125 to R127): words of waybill entries, what page writes leave alone, stalls for a frame, and the unit. -/

namespace Sys2Proof.Proofs
open Sys2Proof Sys2Proof.Machine Sys2Proof.Safety Sys2Proof.Laws

/-! ## Words of waybill entries (R308) -/

/-- An entry with each field cut to its width in the waybill. -/
def cutEntry (e : WayEntry) : WayEntry :=
  ⟨e.slot % 4096, e.layer % 4096, e.head % 4096, e.page % 2 ^ 24, e.gen % 65536, e.kfmt % 256, e.fill % 512, e.state % 8,
    e.ships % 256, e.loc % 2 ^ 24⟩

theorem wayOf_wayWord {e : WayEntry} (h : e.state ≠ 0) : wayOf (wayWord e) = cutEntry e := by
  have htoNat : ∀ x : Nat, x < 2 ^ 128 → (BitVec.ofNat 128 x).toNat = x := fun _ hx => Nat.mod_eq_of_lt hx
  simp only [wayWord, if_neg h]
  unfold wayOf
  rw [htoNat _ (by omega)]
  simp only [bitsOf, cutEntry, WayEntry.mk.injEq]
  refine ⟨?_, ?_, ?_, ?_, ?_, ?_, ?_, ?_, ?_, ?_⟩ <;> omega

theorem cutEntry_getWay (s : State) (i : Nat) : cutEntry (getWay s i) = getWay s i := by
  simp [cutEntry, getWay, wayOf, bitsOf]

/-- A new fill count that fits its field leaves the rest of an entry as it was. -/
theorem cutEntry_fill (s : State) (i : Nat) {n : Nat} (hn : n < 512) :
    cutEntry { getWay s i with fill := n } = { getWay s i with fill := n } :=
  calc cutEntry { getWay s i with fill := n }
      = { cutEntry (getWay s i) with fill := n % 512 } := rfl
    _ = { getWay s i with fill := n } := by rw [cutEntry_getWay, Nat.mod_eq_of_lt hn]

theorem wf_waybill {s : State} (h : s.wf = true) : tabWf 0 s.kv.waybill = true := by
  obtain ⟨-, -, -, -, hk, -⟩ := wf_parts h
  simp only [Kv.wf, Bool.and_eq_true, and_assoc] at hk
  obtain ⟨hw, -⟩ := hk
  exact hw

/-! ## What leaves pages, stalls, tallies and queues alone -/

/-- No waybill entry, no stall, no tally and no queue differs. -/
structure PagesKept (s t : State) : Prop where
  waybill : t.kv.waybill = s.kv.waybill
  stalls : t.kv.stalls = s.kv.stalls
  sync : t.sync = s.sync
  queues : t.host.queues = s.host.queues

section
variable {s t u : State}

theorem PagesKept.refl (s : State) : PagesKept s s := ⟨rfl, rfl, rfl, rfl⟩

theorem PagesKept.trans (h : PagesKept s t) (h' : PagesKept t u) : PagesKept s u :=
  ⟨h'.waybill.trans h.waybill, h'.stalls.trans h.stalls, h'.sync.trans h.sync, h'.queues.trans h.queues⟩

theorem PagesKept.foldl {α : Type} {f : State → α → State} (hf : ∀ u x, PagesKept u (f u x)) (l : List α) (s : State) :
    PagesKept s (l.foldl f s) := by
  induction l generalizing s with
  | nil => exact .refl s
  | cons x l ih => exact (hf s x).trans (ih _)

theorem PagesKept.getWay (h : PagesKept s t) (i : Nat) : getWay t i = getWay s i := by
  rw [Machine.getWay, h.waybill]; rfl

theorem PagesKept.getQ (h : PagesKept s t) (q : Nat) : getQ t q = getQ s q := by
  rw [Machine.getQ, h.queues]; rfl

end

theorem gWrite_pagesKept (s : State) (a : Nat) (bs : List Byte) : PagesKept s (gWrite s a bs) := by
  obtain ⟨m, f, o, h⟩ := gWrite_frame s a bs
  rw [h]
  exact ⟨rfl, rfl, rfl, rfl⟩

theorem writePieces_pagesKept (l : List (Nat × Nat)) : ∀ (s : State) (bs : List Byte), PagesKept s (writePieces s l bs) := by
  induction l with
  | nil => exact fun s _ => .refl s
  | cons x l ih => exact fun s bs => (gWrite_pagesKept s x.1 (bs.take x.2)).trans (ih _ _)

theorem frameWrite_pagesKept (s : State) (p : Partition) (f a : Nat) (bs : List Byte) : PagesKept s (frameWrite s p f a bs) :=
  writePieces_pagesKept _ s bs

theorem putTrailer_pagesKept (s : State) (p : Partition) (i crc restore : Nat) : PagesKept s (putTrailer s p i crc restore) :=
  frameWrite_pagesKept s p _ _ _

theorem xWrite_pagesKept {s t : State} {ctx va : Nat} {bs : List Byte} (h : xWrite s ctx va bs = .ok t) : PagesKept s t := by
  unfold xWrite at h
  split at h
  · cases h
  · cases h
    exact PagesKept.trans (t := noteWalks s ctx va bs.length) ⟨rfl, rfl, rfl, rfl⟩ (writePieces_pagesKept _ _ bs)

theorem raiseEvent_pagesKept (s : State) (code sev ctx src : Nat) (detail : List Byte) :
    PagesKept s (raiseEvent s code sev ctx src detail) := by
  obtain ⟨m, f, o, e, h⟩ := raiseEvent_frame s code sev ctx src detail
  rw [h]
  exact ⟨rfl, rfl, rfl, rfl⟩

theorem freeze_pagesKept (s : State) (kind idx part code : Nat) : PagesKept s (freeze s kind idx part code) := by
  obtain ⟨l, o, h, -⟩ := freeze_frame s kind idx part code
  rw [h]
  exact ⟨rfl, rfl, rfl, rfl⟩

theorem accessFault_pagesKept (s : State) (ctx src tag : Nat) (f : AccFail) : PagesKept s (accessFault s ctx src tag f) := by
  cases f with
  | xlt c l va wr => exact (raiseEvent_pagesKept s _ _ _ _ _).trans (freeze_pagesKept _ _ _ _ _)
  | window ga wr => exact (raiseEvent_pagesKept s _ _ _ _ _).trans (freeze_pagesKept _ _ _ _ _)
  | bad b => exact .refl s

theorem waitFault_pagesKept (s : State) (ctx src tag : Nat) (f : AccFail) : PagesKept s (waitFault s ctx src tag f) := by
  unfold waitFault
  split
  · exact .refl s
  · exact (accessFault_pagesKept s ctx src tag f).trans ⟨rfl, rfl, rfl, rfl⟩

/-! ## Stalls for a frame (R316 to R319) -/

theorem startSwap_pagesKept (s : State) (p : Partition) (q i : Nat) : PagesKept s (startSwap s p q i) := by
  unfold startSwap
  split
  · exact .refl s
  · exact ⟨rfl, rfl, rfl, rfl⟩

theorem swapVictim_pagesKept (s : State) (p : Partition) (q v : Nat) : PagesKept s (swapVictim s p q v) :=
  PagesKept.trans (t := modSeq s v _) ⟨rfl, rfl, rfl, rfl⟩ (.foldl (fun u i => startSwap_pagesKept u p q i) _ _)

theorem exhausted_pagesKept (s : State) (q tag req outcome victim pages slot : Nat) :
    PagesKept s (exhausted s q tag req outcome victim pages slot) := raiseEvent_pagesKept s _ _ _ _ _

theorem exhausted_freeze_pagesKept (s : State) (q tag req pages slot idx part code : Nat) :
    PagesKept s (freeze (exhausted s q tag req 1 0xFFFF pages slot) 8 idx part code) :=
  (exhausted_pagesKept s _ _ _ _ _ _ _).trans (freeze_pagesKept _ _ _ _ _)

theorem relieve_pagesKept (s : State) (p : Partition) (q tag kind own : Nat) :
    PagesKept s (relieve s p q tag kind own true) := by
  unfold relieve
  split
  · next v _ =>
    have hswap := (exhausted_pagesKept s q tag kind 0 v
      ((seqPages s v).filter (fun y => swappable s y.1 y.2)).length own).trans (swapVictim_pagesKept _ p q v)
    simp only [↓reduceIte]
    split
    · exact hswap
    · exact hswap.trans (exhausted_freeze_pagesKept _ _ _ _ _ _ _ _ _)
  · split
    · exact exhausted_pagesKept s _ _ _ _ _ _ _
    · exact exhausted_freeze_pagesKept s _ _ _ _ _ _ _ _

section
variable {s : State} {p : Partition} (q tag kind i own : Nat)

theorem takeFrame_given (hs : s.kv.stalls = []) (hf : framesFree s p ≠ 0) :
    ∃ f, takeFrame s p q tag kind i own = (some f, drawn s) := by
  obtain ⟨f, hpick⟩ : ∃ f, pickFree s p.frames (usedFrames s p) = some f := ⟨_, if_neg hf⟩
  exact ⟨f, by simp [takeFrame, hs, hpick]⟩

theorem takeFrame_stalls (hs : s.kv.stalls.any (fun x => x.queue = q && x.kind = kind && x.index = i) = false)
    (hf : framesFree s p = 0) :
    takeFrame s p q tag kind i own =
      (none, relieve { s with kv := { s.kv with stalls := s.kv.stalls ++ [⟨q, kind, i, own, p.part, none⟩] } } p q tag kind own true) := by
  have hfind : s.kv.stalls.find? (fun x => x.queue = q && x.kind = kind && x.index = i) = none :=
    List.find?_eq_none.mpr (List.any_eq_false.mp hs)
  have hpick : pickFree s p.frames (usedFrames s p) = none := if_pos hf
  simp [takeFrame, hfind, hpick]

end

/-! ## Pages written, filled and allocated -/

/-- Waybill entry i is written with e; no other entry, no tally and no queue differs. -/
structure EntrySet (i : Nat) (e : WayEntry) (s t : State) : Prop where
  waybill : t.kv.waybill = tabPut 0 s.kv.waybill i (wayWord e)
  sync : t.sync = s.sync
  queues : t.host.queues = s.host.queues

section
variable {s t u : State} {i : Nat} {e : WayEntry}

theorem PagesKept.setWay (h : PagesKept s t) (i : Nat) (e : WayEntry) : EntrySet i e s (setWay t i e) :=
  ⟨congrArg (fun w => tabPut 0 w i (wayWord e)) h.waybill, h.sync, h.queues⟩

theorem EntrySet.kept (h : EntrySet i e s t) (h' : PagesKept t u) : EntrySet i e s u :=
  ⟨h'.waybill.trans h.waybill, h'.sync.trans h.sync, h'.queues.trans h.queues⟩

theorem EntrySet.waybill_wf (h : EntrySet i e s t) (hw : tabWf 0 s.kv.waybill = true) : tabWf 0 t.kv.waybill = true :=
  h.waybill ▸ tabWf_tabPut i _ hw

theorem EntrySet.getWay_same (h : EntrySet i e s t) (hw : tabWf 0 s.kv.waybill = true) (he : e.state ≠ 0) :
    getWay t i = cutEntry e := by
  rw [getWay, h.waybill, tabGet_tabPut_same i _ hw, wayOf_wayWord he]

theorem EntrySet.getWay_ne (h : EntrySet i e s t) (hw : tabWf 0 s.kv.waybill = true) {k : Nat} (hk : k ≠ i) :
    getWay t k = getWay s k := by
  rw [getWay, h.waybill, tabGet_tabPut_ne _ hw hk]; rfl

end

/-- Page i with the bytes of an append written, its fill count at n, and its trailer following (R127). -/
def fillPage (s : State) (p : Partition) (i n : Nat) (ws : List (Nat × List Byte)) : State :=
  putTrailer (setWay (ws.foldl (fun t w => frameWrite t p (getWay s i).loc w.1 w.2) s) i { getWay s i with fill := n }) p i 0 0

theorem fillPage_entrySet (s : State) (p : Partition) (i n : Nat) (ws : List (Nat × List Byte)) :
    EntrySet i { getWay s i with fill := n } s (fillPage s p i n ws) :=
  have hbytes := PagesKept.foldl (fun u (w : Nat × List Byte) => frameWrite_pagesKept u p (getWay s i).loc w.1 w.2) ws s
  (hbytes.setWay i _).kept (putTrailer_pagesKept _ p i 0 0)

theorem allocPage_entrySet {s t : State} (h : PagesKept s t) (p : Partition) (i frame : Nat) (e : WayEntry) :
    EntrySet i { e with fill := 0, state := 1, ships := 0, loc := frame } s (allocPage t p i frame e) :=
  ((h.trans (frameWrite_pagesKept t p frame 0 _)).setWay i _).kept (putTrailer_pagesKept _ p i 0 0)

/-- Page i is FILLING; no other waybill entry and no tally differs. -/
structure PageFilling (i : Nat) (s t : State) : Prop where
  state : (getWay t i).state = 1
  others : ∀ k, k ≠ i → getWay t k = getWay s k
  sync : t.sync = s.sync

section
variable {s t u : State} {i : Nat} {e : WayEntry}

theorem PageFilling.trans (h : PageFilling i s t) (h' : PageFilling i t u) : PageFilling i s u :=
  ⟨h'.state, fun k hk => (h'.others k hk).trans (h.others k hk), h'.sync.trans h.sync⟩

theorem PagesKept.pageFilling (h : PagesKept s t) (hi : (Machine.getWay s i).state = 1) : PageFilling i s t :=
  ⟨h.getWay i ▸ hi, fun k _ => h.getWay k, h.sync⟩

theorem EntrySet.pageFilling (h : EntrySet i e s t) (hw : tabWf 0 s.kv.waybill = true) (he : e.state = 1) : PageFilling i s t := by
  refine ⟨?_, fun _ hk => h.getWay_ne hw hk, h.sync⟩
  rw [h.getWay_same hw (by omega)]
  simp only [cutEntry, he]

end

/-! ## The unit leaves the list (R125) -/

section
variable {s : State} {q u i : Nat}

/-- The run of queue q goes on without unit u of l, and page i is among those it may seal. -/
def UnitLeft (q u i : Nat) (l todo : List Nat) (n : Nat) (t : State) : Prop :=
  ∃ r : Run, (getQ t q).run = some r ∧ r.work = .attend (l.filter (· ≠ u)) todo n ∧ i ∈ r.seals

theorem mem_noted_seals (i : Nat) (l : List Nat) : i ∈ (if l.contains i then l else l ++ [i]) := by
  split
  · next h => exact List.contains_iff_mem.mp h
  · exact List.mem_append_right l (List.mem_singleton.mpr rfl)

theorem unitDone_left (hw : tabWf {} s.host.queues = true) {r : Run} (hr : (getQ s q).run = some r) {l todo : List Nat} {n : Nat}
    (hwork : r.work = .attend l todo n) : UnitLeft q u i l todo n (unitDone s q u i) := by
  have hrun : (getQ (unitDone s q u i) q).run = (getQ s q).run.map _ := congrArg Queue.run (getQ_modRun_same _ hw)
  rw [hr] at hrun
  exact ⟨_, hrun, by simp only [hwork], mem_noted_seals i r.seals⟩

end

/-! ## One append unit (R125 to R127) -/

section
variable {s : State} {q ctx tag : Nat} {a : Attn} {qpos nq u h i : Nat} {d : List Byte}

theorem appendWrite_nothing
    (hfull : (getWay s i).state ≠ 1 ∨ (appendRange qpos nq d).2 - dPos d ≤ (getWay s i).fill) :
    appendWrite s q ctx tag a qpos nq u h i d = unitDone s q u i := if_pos hfull

theorem appendWrite_fills (hstate : (getWay s i).state = 1) (hfill : (getWay s i).fill < (appendRange qpos nq d).2 - dPos d)
    {p : Partition} (hp : poolOf s i = some p) {tab : List Nat} (htab : ropeTable s ctx a = .ok tab)
    {kv : List (List FpVal) × List (List FpVal)} (hkv : newRows s ctx a tab qpos h (appendRange qpos nq d).1
      ((appendRange qpos nq d).2 - (appendRange qpos nq d).1) = .ok kv) :
    appendWrite s q ctx tag a qpos nq u h i d = unitDone (fillPage s p i ((appendRange qpos nq d).2 - dPos d)
      (appendWrites a ((appendRange qpos nq d).1 - dPos d) kv.1 kv.2)) q u i := by
  have hnew : ¬ ((getWay s i).state ≠ 1 ∨ (appendRange qpos nq d).2 - dPos d ≤ (getWay s i).fill) := by omega
  simp only [appendWrite, if_neg hnew, hp, htab, hkv]
  rfl

/-- Whatever becomes of the unit, its page is still FILLING. -/
theorem appendWrite_pageFilling (hw : tabWf 0 s.kv.waybill = true) (hstate : (getWay s i).state = 1) :
    PageFilling i s (appendWrite s q ctx tag a qpos nq u h i d) := by
  have hdone : ∀ {t}, PageFilling i s t → PageFilling i s (unitDone t q u i) := fun ht => ⟨ht.state, ht.others, ht.sync⟩
  have hkept := (PagesKept.refl s).pageFilling hstate
  by_cases hfull : (getWay s i).state ≠ 1 ∨ (appendRange qpos nq d).2 - dPos d ≤ (getWay s i).fill
  · rw [appendWrite_nothing hfull]
    exact hdone hkept
  · simp only [appendWrite, if_neg hfull]
    split
    · exact hkept
    · next p _ =>
      split
      · exact (waitFault_pagesKept s _ _ _ _).pageFilling hstate
      · split
        · exact (waitFault_pagesKept s _ _ _ _).pageFilling hstate
        · exact hdone ((fillPage_entrySet s p i _ _).pageFilling hw hstate)

/-- With its index written, the unit goes on from a state with the same pages; otherwise its write has failed. -/
theorem writeIndex_cases (s : State) (q ctx tag : Nat) (a : Attn) (nkb u i : Nat) (k : State → State) :
    PagesKept s (writeIndex s q ctx tag a nkb u i k) ∨ ∃ t, PagesKept s t ∧ writeIndex s q ctx tag a nkb u i k = k t := by
  unfold writeIndex
  split
  · exact .inl (waitFault_pagesKept s _ _ _ _)
  · next s1 hx => exact .inr ⟨tagSent s s1 (.queue q), (xWrite_pagesKept hx).trans ⟨rfl, rfl, rfl, rfl⟩, rfl⟩

theorem writeIndex_pageFilling (hstate : (getWay s i).state = 1) {nkb : Nat} {k : State → State}
    (hk : ∀ t, PagesKept s t → PageFilling i t (k t)) : PageFilling i s (writeIndex s q ctx tag a nkb u i k) := by
  obtain hfail | ⟨t, ht, heq⟩ := writeIndex_cases s q ctx tag a nkb u i k
  · exact hfail.pageFilling hstate
  · rw [heq]
    exact (ht.pageFilling hstate).trans (hk t ht)

end

section
variable {s : State} {q u i : Nat} {p d : List Byte} {r : Run}

/-- A unit whose page is there already writes its tokens. -/
theorem appendUnit_placed (hheld : heldBack s (qCtx s q) (srcOf 3 q) (pkTag p) = false)
    (hidx : descIdx s (attnOf p) (u / nth0 r.bounds 2) (nthL r.descs u) = some i) (halloc : dAlloc (nthL r.descs u) = false) :
    appendUnit s q p r u = appendWrite s q (qCtx s q) (pkTag p) (attnOf p) (nth0 r.bounds 0) (nth0 r.bounds 1) u
      (u / nth0 r.bounds 2) i (nthL r.descs u) := by
  simp [appendUnit, hheld, hidx, halloc]

section
variable {pt : Partition} {sq : Nat × Sequence} (hheld : heldBack s (qCtx s q) (srcOf 3 q) (pkTag p) = false)
  (hidx : descIdx s (attnOf p) (u / nth0 r.bounds 2) (nthL r.descs u) = some i) (halloc : dAlloc (nthL r.descs u) = true)
  (hfree : (getWay s i).state = 0) (hpool : poolOf s i = some pt) (hseq : seqOf s (attnOf p).handle = some sq)
include hheld hidx halloc hfree hpool hseq

theorem appendUnit_allocates (hw : tabWf 0 s.kv.waybill = true) (hframes : framesFree s pt ≠ 0) (hstalls : s.kv.stalls = []) :
    PageFilling i s (appendUnit s q p r u) := by
  obtain ⟨f, htake⟩ := takeFrame_given q (pkTag p) 1 i sq.1 hstalls hframes
  have hnew := allocPage_entrySet (s := s) (t := drawn s) ⟨rfl, rfl, rfl, rfl⟩ pt i f
    ⟨sq.1, (attnOf p).layer, (attnOf p).kvHead0 + u / nth0 r.bounds 2, dPos (nthL r.descs u) / 256, 0, (attnOf p).kfmt, 0, 1, 0, f⟩
  have hfilling := hnew.pageFilling hw rfl
  simp only [appendUnit, hheld, hidx, halloc, hfree, hpool, hseq, htake]
  refine hfilling.trans (writeIndex_pageFilling hfilling.state fun t ht => appendWrite_pageFilling ?_ ?_)
  · exact ht.waybill ▸ hnew.waybill_wf hw
  · exact ht.getWay i ▸ hfilling.state

theorem appendUnit_stalls (hframes : framesFree s pt = 0)
    (hstalls : s.kv.stalls.any (fun x => x.queue = q && x.kind = 1 && x.index = i) = false) :
    PagesKept { s with kv := { s.kv with stalls := s.kv.stalls ++ [⟨q, 1, i, sq.1, pt.part, none⟩] } } (appendUnit s q p r u) := by
  simp only [appendUnit, hheld, hidx, halloc, hfree, hpool, hseq, takeFrame_stalls q (pkTag p) 1 i sq.1 hstalls hframes]
  exact relieve_pagesKept _ pt q (pkTag p) 1 sq.1

end

end

theorem execAppendUnit_next {s : State} {q : QueueId} {p : List Byte} {r : Run} {u : Nat} {us todo : List Nat} {n : Nat}
    (hruns : devRuns s = true) (hr : (getQ s q).run = some r) (hp : curPacket s q = some p)
    (hwork : r.work = .attend (u :: us) todo n) : exec (.appendUnit q) s = .next (appendUnit s q p r u) := by
  show execAppendUnit q s = _
  simp [execAppendUnit, hruns, hr, hp, hwork]

/-- Settles O28: the front unit of an ATTEND has four outcomes. With nothing to write it only leaves the list; with new tokens its
page gets them with their fill count; with a page to allocate it takes a frame, or stalls for one. -/
theorem appendUnitsWriteTokens : Obligations.AppendUnitsWriteTokens := by
  intro q p r u i us todo n s h hruns hr hp hwork hheld a d rg off hidx
  have hnext := execAppendUnit_next hruns hr hp hwork
  have hw := wf_waybill h
  have hleft : ∀ t, t.host.queues = s.host.queues → off (unitDone t q u i) := fun t hq =>
    have hrun : (getQ t q).run = some r := by rw [getQ, hq]; exact hr
    unitDone_left (hq ▸ wf_queues h) hrun hwork
  refine ⟨fun halloc hfull => ?_, fun halloc hstate hfill hmax hpool tab kv htab hkv => ?_,
    fun pt sq halloc hfree hpool hseq hframes hstalls => ?_, fun pt sq halloc hfree hpool hseq hframes hstalls => ?_⟩
  · refine ⟨_, hnext, ?_⟩
    rw [appendUnit_placed hheld hidx halloc, appendWrite_nothing hfull]
    exact ⟨hleft s rfl, rfl, rfl, rfl⟩
  · refine ⟨_, hnext, ?_⟩
    obtain ⟨pt, hpt⟩ := Option.isSome_iff_exists.mp hpool
    have hset := fillPage_entrySet s pt i (rg.2 - dPos d) (appendWrites a (rg.1 - dPos d) kv.1 kv.2)
    rw [appendUnit_placed hheld hidx halloc, appendWrite_fills hstate hfill hpt htab hkv]
    refine ⟨hleft _ hset.queues, ?_, fun k hk => hset.getWay_ne hw hk, hset.sync⟩
    calc getWay (fillPage s pt i (rg.2 - dPos d) (appendWrites a (rg.1 - dPos d) kv.1 kv.2)) i
        = cutEntry { getWay s i with fill := rg.2 - dPos d } := hset.getWay_same hw (by simp [hstate])
      _ = { getWay s i with fill := rg.2 - dPos d } := cutEntry_fill s i (by omega)
  · obtain ⟨hstate, hothers, hsync⟩ := appendUnit_allocates hheld hidx halloc hfree hpool hseq hw hframes hstalls
    exact ⟨_, hnext, hstate, hothers, hsync⟩
  · have hkept := appendUnit_stalls hheld hidx halloc hfree hpool hseq hframes hstalls
    refine ⟨_, hnext, (congrArg Queue.run (hkept.getQ q)).trans hr, (congrArg WayEntry.state (hkept.getWay i)).trans hfree,
      ⟨q, 1, i, sq.1, pt.part, none⟩, ?_, rfl, rfl, rfl, rfl⟩
    rw [hkept.stalls]
    exact List.mem_append_right _ (List.mem_singleton.mpr rfl)

end Sys2Proof.Proofs
end

section
/-! PROOFS. Transfer channels and rings (R213, R222): their tables, reads after writes, and whether a channel goes on or is freed. -/

namespace Sys2Proof.Proofs
open Sys2Proof Sys2Proof.Machine Sys2Proof.Safety Sys2Proof.Laws

/-! ## Tables -/

theorem wf_channels_rings {s : State} (h : s.wf = true) : tabRising s.comp.chans = true ∧ tabWf {} s.comp.rings = true := by
  obtain ⟨-, -, hc, -⟩ := wf_parts h
  simp only [Compute.wf, Bool.and_eq_true, and_assoc] at hc
  obtain ⟨-, -, hrings, hchans, -⟩ := hc
  exact ⟨hchans, hrings⟩

section
variable {s : State} {x k : Nat} {c : Chan}

theorem getChan_setChan_same (v : Option Chan) (hw : tabRising s.comp.chans = true) : getChan (setChan s x v) x = v :=
  tabFind_tabSet_same x v hw

theorem getChan_setChan_ne (v : Option Chan) (hk : k ≠ x) : getChan (setChan s x v) k = getChan s k := tabFind_tabSet_ne v hk

theorem getChan_modChan_same (f : Chan → Chan) (hw : tabRising s.comp.chans = true) (hc : getChan s x = some c) :
    getChan (modChan s x f) x = some (f c) := by
  rw [modChan, getChan_setChan_same _ hw, hc]
  rfl

theorem getChan_modChan_ne (f : Chan → Chan) (hk : k ≠ x) : getChan (modChan s x f) k = getChan s k := getChan_setChan_ne _ hk

theorem modChan_chans_rising (f : Chan → Chan) (hw : tabRising s.comp.chans = true) :
    tabRising (modChan s x f).comp.chans = true := tabRising_tabSet x _ hw

theorem getRing_modRing_same {e n : Nat} (f : Ring → Ring) (hw : tabWf {} s.comp.rings = true) :
    getRing (modRing s e n f) e n = f (getRing s e n) := tabGet_tabMod_same _ f hw

theorem modRing_rings_wf {e n : Nat} (f : Ring → Ring) (hw : tabWf {} s.comp.rings = true) :
    tabWf {} (modRing s e n f).comp.rings = true := tabWf_tabMod _ f hw

theorem getRing_modRing_ne {d m e n : Nat} (f : Ring → Ring) (hw : tabWf {} s.comp.rings = true) (hk : 16 * d + m ≠ 16 * e + n) :
    getRing (modRing s e n f) d m = getRing s d m := tabGet_tabMod_ne f hw hk

/-! ## The end of a manifest (R213, R222) -/

/-- A channel with units left goes on. -/
theorem endXfer_unfinished (hc : getChan s x = some c) (he : cursorEnd (xferOf c.bytes (ownerLaunch c.owner)) c.cursor = false) :
    endXfer s x = s := by
  simp [endXfer, hc, he]

theorem serveXfers_nobody (hw : s.comp.xferWait = []) (cluster : Nat) : serveXfers s cluster = s := by
  simp [serveXfers, hw]

/-- Channel x is free, and the transfer of queue q's packet is done. -/
def chanFreed (s : State) (x q : Nat) : State := modRun (setChan s x none) q (fun r => { r with work := .xfer none true })

/-- A channel that has delivered everything is freed; no other TRANSFER waits for it here. -/
theorem endXfer_finished {q : Nat} (hc : getChan s x = some c) (howner : c.owner = .queue q)
    (he : cursorEnd (xferOf c.bytes none) c.cursor = true) (hslot : c.inSlot = false) (hsig : c.signals = 0)
    (hsent : s.fab.sent.any (fun m => m.who = some (.chan x)) = false) (hwait : s.comp.xferWait = []) :
    endXfer s x = chanFreed s x q := by
  have hserve : serveXfers (chanFreed s x q) (x / 64) = chanFreed s x q := serveXfers_nobody (s := chanFreed s x q) hwait _
  rw [← hserve]
  simp only [endXfer, hc, howner, ownerLaunch, he, hslot, hsig, hsent]
  rfl

theorem getQ_chanFreed_same {q : Nat} (hw : tabWf {} s.host.queues = true) : getQ (chanFreed s x q) q =
    { getQ s q with run := (getQ s q).run.map (fun r => { r with work := .xfer none true }) } :=
  getQ_modRun_same (s := setChan s x none) _ hw

theorem run_chanFreed {q : Nat} {r : Run} (hw : tabWf {} s.host.queues = true) (hr : (getQ s q).run = some r) :
    (getQ (chanFreed s x q) q).run = some { r with work := .xfer none true } := by
  rw [getQ_chanFreed_same hw, hr]
  rfl

theorem getQ_chanFreed_ne {q : Nat} (hw : tabWf {} s.host.queues = true) (hk : k ≠ q) : getQ (chanFreed s x q) k = getQ s k :=
  getQ_modRun_ne (s := setChan s x none) _ hw hk

theorem getChan_chanFreed_same {q : Nat} (hw : tabRising s.comp.chans = true) : getChan (chanFreed s x q) x = none :=
  getChan_setChan_same none hw

theorem getChan_chanFreed_ne {q : Nat} (hk : k ≠ x) : getChan (chanFreed s x q) k = getChan s k := getChan_setChan_ne none hk

end

end Sys2Proof.Proofs
end

section
/-! PROOFS. TRANSFER packets (R213, R222, R278): the start of a manifest at issue, alone or with a collective, and the completion. -/

namespace Sys2Proof.Proofs
open Sys2Proof Sys2Proof.Machine Sys2Proof.Safety Sys2Proof.Laws

/-! ## The start of a manifest (R213) -/

/-- A change of the run of the packet in execution. -/
theorem issued_modRun {s t : State} {q : QueueId} {p : List Byte} {r : Run} (h : Issued q p r s t)
    (hw : tabWf {} t.host.queues = true) (f : Run → Run) : Issued q p (f r) s (modRun t q f) := by
  obtain ⟨hp, hr, hne, hregs⟩ := h
  have hq := getQ_modRun_same (q := q) f hw
  exact ⟨by rw [curPacket, hq]; exact hp, by rw [hq, hr]; rfl, fun k hk => (getQ_modRun_ne f hw hk).trans (hne k hk), hregs⟩

/-- The channel of queue q's TRANSFER p at the start of its manifest. -/
def newChan (s : State) (q : Nat) (p : List Byte) : Chan :=
  let x := xferOf p none
  { owner := .queue q, ctx := qCtx s q, tag := BitVec.ofNat 32 (pkTag p), bytes := p, cursor := [0, 0, 0, 0, 0], state := 1, cause := 0
    req := none, inSlot := false, waiting := 0, startFilled := (getRing s (16 * x.cluster + x.engine) x.ring).filled, signals := 0 }

/-- Queue q's TRANSFER p takes channel ch. -/
def chanTaken (s : State) (q : Nat) (p : List Byte) (ch : Nat) : State :=
  drawn (modRun (setChan s ch (some (newChan s q p))) q (fun r => { r with work := .xfer (some ch) false }))

section
variable {u : State} {q : Nat} {p : List Byte} (hp : curPacket u q = some p)
include hp

theorem ownerBytes_queue : ownerBytes u (.queue q) = p := by simp [ownerBytes, hp]

theorem startXfer_empty (he : (xferOf p none).empty = true) :
    startXfer u (.queue q) = modRun u q (fun r => { r with work := .xfer none true }) := by
  simp only [startXfer, ownerBytes_queue hp, ownerLaunch, he]
  rfl

section
variable (he : (xferOf p none).empty = false)
include he

theorem startXfer_waits (hf : freeChans u (xferOf p none).cluster = []) :
    startXfer u (.queue q) = { u with comp := { u.comp with xferWait := u.comp.xferWait ++ [.queue q] } } := by
  simp only [startXfer, ownerBytes_queue hp, ownerLaunch, he, hf]
  rfl

theorem startXfer_takes (hf : freeChans u (xferOf p none).cluster ≠ []) :
    ∃ ch, ch ∈ freeChans u (xferOf p none).cluster ∧ startXfer u (.queue q) = chanTaken u q p ch := by
  have hlt := Nat.mod_lt (Config.choice u.fresh) (List.length_pos_iff.mpr hf)
  refine ⟨nth0 (freeChans u (xferOf p none).cluster) (Config.choice u.fresh % (freeChans u (xferOf p none).cluster).length), ?_, ?_⟩
  · rw [nth0, List.getElem?_eq_getElem hlt]
    exact List.getElem_mem hlt
  · simp only [startXfer, ownerBytes_queue hp, ownerLaunch, he]
    rfl

end

/-- Whichever way it starts, the packet stays in execution and only the work of its run is set. -/
theorem startXfer_keeps {r : Run} (hw : tabWf {} u.host.queues = true) (hr : (getQ u q).run = some r) :
    let t := startXfer u (.queue q)
    tabWf {} t.host.queues = true ∧ t.conv = u.conv ∧ (getQ t q).journal = (getQ u q).journal ∧
      ∃ w, (getQ t q).run = some { r with work := w } ∧ ((xferOf p none).empty = true → w = .xfer none true) := by
  have hmod : ∀ (v : State) (w : Work), v.host = u.host →
      let t := modRun v q (fun r => { r with work := w })
      tabWf {} t.host.queues = true ∧ (getQ t q).journal = (getQ u q).journal ∧ (getQ t q).run = some { r with work := w } := by
    intro v w hv
    have hwv : tabWf {} v.host.queues = true := hv ▸ hw
    have hqv : getQ v q = getQ u q := by rw [getQ, hv]; rfl
    have hq := getQ_modRun_same (q := q) (fun r => { r with work := w }) hwv
    rw [hqv] at hq
    exact ⟨modQ_queues_wf _ hwv, by rw [hq], by rw [hq, hr]; rfl⟩
  dsimp only
  cases he : (xferOf p none).empty with
  | true =>
    rw [startXfer_empty hp he]
    obtain ⟨hwt, hj, hrun⟩ := hmod u (.xfer none true) rfl
    exact ⟨hwt, rfl, hj, _, hrun, fun _ => rfl⟩
  | false =>
    by_cases hf : freeChans u (xferOf p none).cluster = []
    · rw [startXfer_waits hp he hf]
      exact ⟨hw, rfl, rfl, r.work, hr, Bool.noConfusion⟩
    · obtain ⟨ch, -, hx⟩ := startXfer_takes hp he hf
      rw [hx]
      obtain ⟨hwt, hj, hrun⟩ := hmod (setChan u ch (some (newChan u q p))) (.xfer (some ch) false) rfl
      exact ⟨hwt, rfl, hj, _, hrun, Bool.noConfusion⟩

end

/-! ## Issue (R213, R278) -/

section
variable {s : State} {q : QueueId} {p : List Byte}

theorem execTransfer_ok (hp : nextPacket s q = some p) (ho : pkOp p = 8) (hx : xferCheck s p (qCtx s q) none = none) :
    exec (.transfer q) s = .next (issueFused s q p 0 (xferRegion (xferOf p none)) (newRun s (.xfer none false))
      (fun u => startXfer u (.queue q))) := by
  show execTransfer q s = _
  rw [execTransfer, onIssue_taken hp (decide_eq_true ho)]
  simp only [hx]

/-- Without a collective the manifest starts in the state in which the packet has issued. -/
theorem execTransfer_alone (hp : nextPacket s q = some p) (ho : pkOp p = 8) (hx : xferCheck s p (qCtx s q) none = none)
    (hz : (collOf p 232).zero = true) :
    exec (.transfer q) s = .next (startXfer (startRun s q (newRun s (.xfer none false))) (.queue q)) := by
  have hoff : collOffset (pkOp p) = 232 := by rw [ho]; rfl
  rw [execTransfer_ok hp ho hx]
  simp only [issueFused, hoff, hz, if_true]

/-- With one, the collective starts after the manifest. -/
theorem execTransfer_fused (hp : nextPacket s q = some p) (ho : pkOp p = 8) (hx : xferCheck s p (qCtx s q) none = none)
    (hz : (collOf p 232).zero = false) (hh : handing s 21 = false) {n : Nat} (hn : readBound s q (qCtx s q) 0 (collOf p 232).count = .ok n)
    (hc : collCheck s (qCtx s q) p n (some (xferRegion (xferOf p none))) = none) :
    exec (.transfer q) s = .next (startColl lseMerge (startXfer (startRun s q (newRun s (.xfer none false))) (.queue q)) q p n
      (some (xferRegion (xferOf p none))) [] []) := by
  have hoff : collOffset (pkOp p) = 232 := by rw [ho]; rfl
  rw [execTransfer_ok hp ho hx]
  simp only [issueFused, hoff, hz, hh, hn, hc, Bool.false_eq_true, if_false]

/-- The manifest that has a channel stands at its start. -/
theorem chanTaken_channelTaken {u : State} {ch : Nat} (hu : Issued q p (newRun s (.xfer none false)) s u)
    (hw : tabWf {} u.host.queues = true) (hcw : tabRising s.comp.chans = true) (hcomp : u.comp = s.comp) (hmem : u.mem = s.mem)
    (hsync : u.sync = s.sync) (hch : ch ∈ freeChans s (xferOf p none).cluster) : ChannelTaken q p s (chanTaken u q p ch) := by
  obtain ⟨hcur, hrun, hne, hregs⟩ := hu
  have hctx : qCtx u q = qCtx s q := by simp only [qCtx, regField, regWord, hregs]
  have hset : Issued q p (newRun s (.xfer none false)) s (setChan u ch (some (newChan u q p))) := ⟨hcur, hrun, hne, hregs⟩
  refine ⟨ch, newChan u q p, hch, issued_modRun hset hw (fun r => { r with work := .xfer (some ch) false }),
    getChan_setChan_same _ (hcomp ▸ hcw), rfl, hctx, rfl, rfl, rfl, rfl, rfl, rfl, fun k hk => ?_, hmem, hsync⟩
  exact (getChan_setChan_ne _ hk).trans (by rw [getChan, hcomp]; rfl)

/-- The collective of packet p starts in a state u in which p is in execution with run r, and p waits for it. -/
theorem startColl_running {u : State} {b : CollBlock} {g : GroupEntry} {n : Nat} {region : Region} {r : Run} {e : JEntry}
    (h : s.wf = true) (hi : ChannelIdle s q b g) (hb : collOf p (collOffset (pkOp p)) = b) (hw : tabWf {} u.host.queues = true)
    (hu : u.conv = s.conv) (he : (getQ u q).journal.find? (fun e => e.life = .issued) = some e) (hp : e.bytes = p) (hs : e.seqs = [])
    (hc : e.coll = none) (hr : (getQ u q).run = some r) :
    let t := startColl lseMerge u q p n (some region) [] []
    CollStarted q b g n s t ∧ curPacket t q = some p ∧
      (getQ t q).run = some { r with coll := some (b.group % 32), collDone := false } := by
  obtain ⟨hg, hm, ho, hpr, hy, -⟩ := hi
  obtain ⟨hgr, hcw⟩ := wf_convoy_tables h
  obtain ⟨c, ht, hops, hprog⟩ := startColl_chanIs (n := n) (region := region) lseMerge hw (hu ▸ hcw) (hu ▸ hgr) hb
    (by rw [getGroup, hu]; exact hg) hm (by rw [getConv, hu]; exact ho) (by rw [getConv, hu]; exact hpr)
    (by rw [getConv, hu]; exact hy) he hs hc
  intro t
  obtain ⟨hhost, -⟩ := ht.frame
  have hqt : getQ t q = getQ (collNoted u q b g) q := by rw [getQ, hhost]; rfl
  refine ⟨ht.collStarted hops hprog hu hgr, ?_, ?_⟩
  · rw [curPacket, hqt, find_issued_collNoted hw he]
    exact congrArg some hp
  · rw [hqt, getQ_collNoted_same hw, hr]
    rfl

/-- The packet whose manifest and collective have started waits for both. -/
theorem startColl_startXfer {b : CollBlock} {g : GroupEntry} {n : Nat} {region : Region} (h : s.wf = true) (hp : nextPacket s q = some p)
    (hi : ChannelIdle s q b g) (hb : collOf p (collOffset (pkOp p)) = b) (r : Run) :
    let t := startColl lseMerge (startXfer (startRun s q r) (.queue q)) q p n (some region) [] []
    CollStarted q b g n s t ∧ curPacket t q = some p ∧ ∃ r : Run, (getQ t q).run = some r ∧ r.coll = some (b.group % 32) ∧
      r.collDone = false ∧ ((xferOf p none).empty = true → r.work = .xfer none true) := by
  obtain ⟨e, l, hj, he, rfl⟩ := nextPacket_front hp
  obtain ⟨-, -, -, -, -, e', l', hj', hes, hec⟩ := id hi
  obtain ⟨rfl, -⟩ := List.cons.inj (hj.symm.trans hj')
  have hw := wf_queues h
  have hq := getQ_startRun_same (r := r) hw hj
  obtain ⟨⟨hcur, hrun, -⟩, -⟩ := startRun_issuedAlone h hp r false
  obtain ⟨hwu, hconv, hju, w, hru, hwork⟩ := startXfer_keeps hcur (modQ_queues_wf _ hw) hrun
  obtain ⟨hcoll, hct, hrt⟩ := startColl_running (n := n) (region := region) (e := { e with life := .issued }) h hi hb hwu hconv
    (by rw [hju, hq]; rfl) rfl hes hec hru
  exact ⟨hcoll, hct, _, hrt, rfl, rfl, hwork⟩

end

/-! ## The channels at a completion

Signals and records of a completing packet reach no transfer channel. -/

section
variable (s : State)

@[simp] theorem raiseEvent_comp (code sev ctx src : Nat) (detail : List Byte) : (raiseEvent s code sev ctx src detail).comp = s.comp := by
  obtain ⟨m, f, o, e, h⟩ := raiseEvent_frame s code sev ctx src detail
  rw [h]

@[simp] theorem freeze_comp (kind idx part code : Nat) : (freeze s kind idx part code).comp = s.comp := by
  obtain ⟨l, o, h, -⟩ := freeze_frame s kind idx part code
  rw [h]

@[simp] theorem noteFaulter_chans (i : Issuer) : (noteFaulter s i).comp.chans = s.comp.chans := by
  unfold noteFaulter
  split <;> rfl

@[simp] theorem chargeIssuer_chans (o : TallyOp) (code : Nat) (detail : List Byte) (soft : Bool) :
    (chargeIssuer s o code detail soft).comp.chans = s.comp.chans := by
  cases soft <;> simp [chargeIssuer]

@[simp] theorem tallyFault_chans (o : TallyOp) (y : Tally) (k : TallyFault) : (tallyFault s o y k).comp.chans = s.comp.chans := by
  simp [tallyFault]

@[simp] theorem noteOp_chans (o : TallyOp) (w : Word) : (noteOp s o w).comp.chans = s.comp.chans := by
  unfold noteOp
  split <;> rfl

@[simp] theorem wakeEng_chans (i : Issuer) : (wakeEng s i).comp.chans = s.comp.chans := by
  unfold wakeEng
  split <;> rfl

theorem foldl_chans {α : Type} {f : State → α → State} (hf : ∀ u x, (f u x).comp.chans = u.comp.chans) (l : List α) :
    (l.foldl f s).comp.chans = s.comp.chans := by
  induction l generalizing s with
  | nil => rfl
  | cons x l ih => exact (ih _).trans (hf s x)

@[simp] theorem releaseAll_chans (ctx vid : Nat) : (releaseAll s ctx vid).comp.chans = s.comp.chans := by
  unfold releaseAll
  split
  · rfl
  · refine (foldl_chans _ (fun u w => wakeEng_chans u _) _).trans ((foldl_chans _ (fun u w => noteOp_chans u _ _) _).trans ?_)
    rfl

@[simp] theorem followFree_chans (ctx vid v : Nat) : (followFree s ctx vid v).comp.chans = s.comp.chans := by
  unfold followFree
  split <;> rfl

@[simp] theorem arrive_chans (o : TallyOp) (y : Tally) (a : Nat) : (arrive s o y a).comp.chans = s.comp.chans := by
  unfold arrive phaseDone
  dsimp only
  split
  · split
    · rfl
    · simp
  · rfl

section
variable {o : TallyOp} {k : Nat} (ha : isAdd o.code = true) (ho : o.issuer = .word k)
include ha ho

theorem onCounter_word_chans (y : Tally) : (onCounter s o y).comp.chans = s.comp.chans := by
  unfold onCounter
  simp only [ha, if_true, resumeIssuer_word ho]
  split <;> simp

theorem onBarrier_word_chans (y : Tally) : (onBarrier s o y).comp.chans = s.comp.chans := by
  unfold onBarrier
  simp only [ha, if_true, resumeIssuer_word ho]
  split <;> simp

theorem applyOp_word_chans : (applyOp s o).comp.chans = s.comp.chans := by
  unfold applyOp
  split
  · exact chargeIssuer_chans s o _ _ _
  · next y _ =>
    split
    · exact tallyFault_chans s o y _
    · split
      · exact tallyFault_chans s o y _
      · split
        · exact onBarrier_word_chans s ha ho y
        · exact onCounter_word_chans s ha ho y

end

theorem doSignal_chans (ctx tag w k : Nat) : (doSignal s ctx tag w (.word k)).comp.chans = s.comp.chans := by
  unfold doSignal
  split
  · exact applyOp_word_chans s rfl rfl
  · rfl

theorem doSignals_chans (ctx : Nat) (p : List Byte) (k : Nat) : (doSignals s ctx p (.word k)).comp.chans = s.comp.chans := by
  unfold doSignals
  dsimp only
  split
  · rfl
  · exact (doSignal_chans _ _ _ _ k).trans (doSignal_chans s _ _ _ k)

theorem coalesce_comp (q status : Nat) : (coalesce s q status).comp = s.comp := by
  unfold coalesce
  split
  · rfl
  · dsimp only
    split <;> rfl

theorem writeRecord_comp (q : Nat) (r : List Byte) : (writeRecord s q r).comp = s.comp := by
  obtain ⟨m, f, o, h⟩ := gWrite_frame s (regAddr s (hqOff q + 8) 12 + 16 * (getQ s q).cqTail.toNat) (withPhase r (getQ s q).phase)
  simp only [writeRecord, coalesce_comp, h, modQ_comp]

theorem postRecord_comp (q : Nat) (r : List Byte) : (postRecord s q r).comp = s.comp := by
  unfold postRecord
  split
  · exact modQ_comp s q _
  · exact writeRecord_comp s q r

theorem completePacket_chans (q status : Nat) : (completePacket s q status).comp.chans = s.comp.chans := by
  cases hp : curPacket s q with
  | none => simp [completePacket, hp]
  | some p =>
    rw [completePacket_eq hp]
    obtain ⟨kv, f, n, hended⟩ := packetEnded_frame s q status
    have hc : (packetEnded s q status).comp = s.comp := by rw [hended]; rfl
    have hsig : (if status = 0 then doSignals (packetEnded s q status) (qCtx (packetEnded s q status) q) p (.word q)
        else packetEnded s q status).comp.chans = s.comp.chans := by
      rw [← hc]
      split
      · exact doSignals_chans _ _ p q
      · rfl
    dsimp only
    split
    · exact hsig
    · rw [postRecord_comp]
      exact hsig

end

/-! ## Completion (R222) -/

section
variable {s : State} {q : QueueId} {p : List Byte} {r : Run} {x : Nat} {c : Chan}

/-- A packet whose channel is freed has no more accesses on their way than before. -/
theorem acked_chanFreed (hw : tabRising s.comp.chans = true) (ha : acked s q = true) : acked (chanFreed s x q) q = true := by
  have hq : ∀ i, issuerQueue (chanFreed s x q) i = some q.val → issuerQueue s i = some q.val := by
    intro i hi
    cases i with
    | chan k =>
      by_cases hk : k = x
      · rw [hk, issuerQueue, getChan_chanFreed_same hw] at hi
        cases hi
      · rw [issuerQueue, getChan_chanFreed_ne hk] at hi
        exact hi
    | _ => exact hi
  simp only [acked, Bool.not_eq_true', List.any_eq_false] at ha ⊢
  intro m hm
  specialize ha m hm
  cases hwho : m.who with
  | none => simp
  | some i =>
    simp only [hwho, decide_eq_true_eq] at ha ⊢
    exact fun hi => ha (hq i hi)

theorem execTransferComplete_delivered (hd : devRuns s = true) (hr : (getQ s q).run = some r) (hc : r.collDone = true)
    (ha : acked s q = true) (hw : r.work = .xfer none true) :
    exec (.transferComplete q) s = .next (completePacket s q r.status.toNat) := by
  show execTransferComplete q s = _
  simp [execTransferComplete, hd, hr, hc, ha, hw]

theorem execTransferComplete_frees (hw : tabWf {} s.host.queues = true) (hcw : tabRising s.comp.chans = true) (hd : devRuns s = true)
    (hr : (getQ s q).run = some r) (hc : r.collDone = true) (ha : acked s q = true) (hwork : r.work = .xfer (some x) false)
    (hend : endXfer s x = chanFreed s x q) :
    exec (.transferComplete q) s = .next (completePacket (chanFreed s x q) q r.status.toNat) := by
  have hrun := run_chanFreed (x := x) hw hr
  have hacked := acked_chanFreed (x := x) hcw ha
  show execTransferComplete q s = _
  simp [execTransferComplete, hd, hr, hc, hwork, hend, hrun, hacked]

/-- A completion from the state in which the channel has been freed is one from the state before. -/
theorem packetDone_chanFreed {t : State} {status : Nat} {j : List JEntry} (hw : tabWf {} s.host.queues = true)
    (h : PacketDone q p status j (chanFreed s x q) t) : PacketDone q p status j s t := by
  obtain ⟨hrun, hj, hst, hposted, hregs, hkept⟩ := h
  rw [getQ_chanFreed_same hw] at hst hposted
  refine ⟨hrun, hj, hst, hposted, hregs, fun hs => ?_⟩
  obtain ⟨hne, hsync, hfrozen⟩ := hkept hs
  exact ⟨fun k hk => (hne k hk).trans (getQ_chanFreed_ne hw hk), hsync, hfrozen⟩

theorem completePacket_chanFreed (hw : tabWf {} s.host.queues = true) (hcw : tabRising s.comp.chans = true)
    (hp : curPacket s q = some p) (status : Nat) :
    let t := completePacket (chanFreed s x q) q status
    PacketDone q p status (unissued s q) s t ∧ getChan t x = none ∧ ∀ k, k ≠ x → getChan t k = getChan s k := by
  have hq := getQ_chanFreed_same (x := x) (q := q) hw
  have hj : unissued (chanFreed s x q) q = unissued s q := by rw [unissued, hq]; rfl
  have hcur : curPacket (chanFreed s x q) q = some p := by rw [curPacket, hq]; exact hp
  have hchan : ∀ k, getChan (completePacket (chanFreed s x q) q status) k = getChan (chanFreed s x q) k := fun k => by
    rw [getChan, completePacket_chans]; rfl
  refine ⟨packetDone_chanFreed (x := x) hw ?_, (hchan x).trans (getChan_chanFreed_same hcw),
    fun k hk => (hchan k).trans (getChan_chanFreed_ne hk)⟩
  rw [← hj]
  exact completePacket_packetDone (s := chanFreed s x q) (modQ_queues_wf _ hw) hcur status

end

/-- Settles O32: at issue a manifest is empty, takes a channel or waits for one, and a collective starts after it; at the end
`endXfer` frees the channel and the packet completes. -/
theorem transfersRun : Obligations.TransfersRun := by
  refine ⟨fun q p s h hp ho hx => ?issue,
    fun q p r s h hd hp hr hc ha hwait => ⟨fun hw => ?delivered, fun ch c hw hch howner hslot hsig hend hsent => ?frees⟩⟩
  case issue =>
    have hw : tabWf {} (startRun s q (newRun s (.xfer none false))).host.queues = true := modQ_queues_wf _ (wf_queues h)
    obtain ⟨hcw, -⟩ := wf_channels_rings h
    obtain ⟨hissued, hframe, hreaders⟩ := startRun_issuedAlone h hp (newRun s (.xfer none false)) false
    obtain ⟨hcur, -⟩ := id hissued
    have halone := fun hz => execTransfer_alone hp ho hx hz
    refine ⟨fun hz he => ⟨_, halone hz, ?empty⟩, fun hz he hf => ⟨_, halone hz, ?takes⟩,
      fun hz he hf => ⟨_, halone hz, ?waits⟩,
      fun hz hh n g hn hc hi => ⟨_, execTransfer_fused hp ho hx hz hh hn hc, ?fused⟩⟩
    case empty =>
      rw [startXfer_empty hcur he]
      exact ⟨issued_modRun hissued hw _, rfl, hreaders⟩
    case takes =>
      obtain ⟨ch, hch, hstart⟩ := startXfer_takes hcur he hf
      rw [hstart]
      exact chanTaken_channelTaken hissued hw hcw rfl rfl rfl hch
    case waits =>
      rw [startXfer_waits hcur he hf]
      exact ⟨hissued, rfl, rfl, rfl⟩
    case fused =>
      exact startColl_startXfer h hp hi (by rw [ho]; rfl) _
  case delivered =>
    exact ⟨_, execTransferComplete_delivered hd hr hc ha hw, completePacket_packetDone (wf_queues h) hp _⟩
  case frees =>
    obtain ⟨hcw, -⟩ := wf_channels_rings h
    have hfreed := endXfer_finished hch howner hend hslot hsig hsent hwait
    exact ⟨_, execTransferComplete_frees (wf_queues h) hcw hd hr hc ha hw hfreed, completePacket_chanFreed (wf_queues h) hcw hp _⟩

end Sys2Proof.Proofs
end

section
/-! PROOFS. Deliveries (R220, R227, R229, R231): what writing a unit changes, the cursor past it, and slots of rings. -/

namespace Sys2Proof.Proofs
open Sys2Proof Sys2Proof.Machine Sys2Proof.Safety Sys2Proof.Laws

/-! ## What writing a unit changes -/

/-- Nothing but memory, the fabric side and the outputs differs. -/
def WritesOnly (s t : State) : Prop := ∃ m f o, t = { s with mem := m, fab := f, out := o }

theorem WritesOnly.refl (s : State) : WritesOnly s s := ⟨s.mem, s.fab, s.out, rfl⟩

theorem WritesOnly.trans {s t u : State} (h : WritesOnly s t) (h' : WritesOnly t u) : WritesOnly s u := by
  obtain ⟨m, f, o, rfl⟩ := h
  obtain ⟨m', f', o', rfl⟩ := h'
  exact ⟨m', f', o', rfl⟩

theorem WritesOnly.foldl {α : Type} {f : State → α → State} (hf : ∀ u x, WritesOnly u (f u x)) (l : List α) (s : State) :
    WritesOnly s (l.foldl f s) := by
  induction l generalizing s with
  | nil => exact .refl s
  | cons x l ih => exact (hf s x).trans (ih _)

theorem memWrite_writesOnly (s : State) (a : Nat) (bs : List Byte) : WritesOnly s (memWrite s a bs) := by
  obtain ⟨m, f, h⟩ := memWrite_frame s a bs
  exact ⟨m, f, s.out, h⟩

theorem writePieces_writesOnly (l : List (Nat × Nat)) : ∀ (s : State) (bs : List Byte), WritesOnly s (writePieces s l bs) := by
  induction l with
  | nil => exact fun s _ => .refl s
  | cons x l ih =>
    intro s bs
    obtain ⟨m, f, o, h⟩ := gWrite_frame s x.1 (bs.take x.2)
    exact WritesOnly.trans ⟨m, f, _, h⟩ (ih _ _)

theorem xWrite_writesOnly {s t : State} {ctx va : Nat} {bs : List Byte} (h : xWrite s ctx va bs = .ok t) : WritesOnly s t := by
  unfold xWrite at h
  split at h
  · cases h
  · cases h
    exact WritesOnly.trans (t := noteWalks s ctx va bs.length) ⟨_, _, _, rfl⟩ (writePieces_writesOnly _ _ bs)

theorem putPiece_writesOnly (s : State) (ctx : Nat) (p : Piece) : WritesOnly s (putPiece s ctx p) := by
  unfold putPiece
  dsimp only
  split
  · next h => exact xWrite_writesOnly h
  · exact .refl s

theorem putRing_writesOnly (s : State) (r : Ring) (e start pos : Nat) (p : Piece) : WritesOnly s (putRing s r e start pos p) :=
  WritesOnly.foldl (fun u (z : Nat × Byte) => memWrite_writesOnly u z.1 [z.2]) _ s

/-! ## The unit at the cursor -/

section
variable {s : State} {x : Nat} {c : Chan} {f : Xfer} {hit : Bool} {l : List Piece}

/-- No mirrored register stands where a skewed unit goes to or comes from, nor where none is found (R187). -/
theorem no_mirror {o : Option Nat} (h : f.skew = true ∨ o = none) : (if f.skew then none else o) = none := by
  rcases h with h | h <;> simp [h]

theorem unitAt_pieces (hm : f.skew = true ∨ mirrorAt s c.ctx (strided f.src c.cursor f.ss) f false = none)
    (hl : unitPieces (ownGot s x) c.ctx hit f c.cursor = .ok l) : unitAt s x c f hit = .ok (l, s) := by
  simp only [unitAt, no_mirror hm, hl]

/-- Channel x is c in t, the channels are in canonical form and the memory is m; beyond the fabric side and the outputs nothing else
differs from s. -/
def ChanPasses (x : Nat) (c : Chan) (m : Memory) (s t : State) : Prop :=
  tabRising t.comp.chans = true ∧ getChan t x = some c ∧ (∀ k, k ≠ x → getChan t k = getChan s k) ∧
    ∃ ch b o, t = { s with comp := { s.comp with chans := ch }, mem := m, fab := b, out := o }

/-- Once the unit has been written the cursor passes it. -/
theorem passUnit_passes {u : State} (hu : WritesOnly s u) (hw : tabRising s.comp.chans = true) (hc : getChan s x = some c) (bytes : Nat) :
    ChanPasses x { c with cursor := nextCursor f c.cursor, cause := 0 } u.mem s (passUnit u x f bytes) := by
  obtain ⟨m, b, o, rfl⟩ := hu
  exact ⟨modChan_chans_rising _ hw, getChan_modChan_same (fun c => { c with cursor := nextCursor f c.cursor, cause := 0 }) hw hc,
    fun k hk => getChan_modChan_ne (s := s) _ hk, _, _, _, rfl⟩

/-! ## Into memory (R231) -/

theorem deliver_memory (hc : getChan s x = some c) (hg : chanGoes s x c = true)
    (he : cursorEnd (xferOf c.bytes (ownerLaunch c.owner)) c.cursor = false) (hr : chanRing c = none) :
    deliver s x hit = endXfer (deliverMem s x c (xferOf c.bytes (ownerLaunch c.owner)) hit) x := by
  simp [deliver, hc, hg, he, hr]

/-- The pieces l written, and the cursor past them. -/
def piecesDelivered (s : State) (x : Nat) (c : Chan) (f : Xfer) (l : List Piece) : State :=
  passUnit (tagSent s (l.foldl (fun t p => putPiece t c.ctx p) s) (.chan x)) x f (listSum (l.map pieceLen))

theorem deliverMem_pieces (hm : f.skew = true ∨ (mirrorAt s c.ctx (strided f.src c.cursor f.ss) f false = none ∧
      mirrorAt s c.ctx (strided f.dst c.cursor f.ds) f true = none))
    (hl : unitPieces (ownGot s x) c.ctx hit f c.cursor = .ok l) (hd : destFail s c.ctx hit l = none)
    (hf : l.any (toFabric s c.ctx) = false) : deliverMem s x c f hit = piecesDelivered s x c f l := by
  have hu := unitAt_pieces (hm.imp_right And.left) hl
  have hn := no_mirror (hm.imp_right And.right)
  simp only [deliverMem, hu, hn, hd, hf, Bool.false_and, Bool.false_eq_true, if_false]
  rfl

theorem piecesDelivered_passes (hw : tabRising s.comp.chans = true) (hc : getChan s x = some c) :
    ChanPasses x { c with cursor := nextCursor f c.cursor, cause := 0 } (l.foldl (fun t p => putPiece t c.ctx p) s).mem s
      (piecesDelivered s x c f l) :=
  have hu := WritesOnly.foldl (fun u p => putPiece_writesOnly u c.ctx p) l s
  passUnit_passes (hu.trans ⟨_, _, _, rfl⟩) hw hc _

/-- Where no piece went to another device, no access is on its way that was not before. -/
theorem piecesDelivered_sent (hs : (l.foldl (fun t p => putPiece t c.ctx p) s).fab.sent = s.fab.sent) :
    (piecesDelivered s x c f l).fab.sent = s.fab.sent := by
  simp [piecesDelivered, passUnit, tagSent, modChan, addCtr, hs]

/-! ## Into a ring (R220, R227, R229) -/

section
variable {e n : Nat}

theorem deliver_slot (hc : getChan s x = some c) (hg : chanGoes s x c = true)
    (he : cursorEnd (xferOf c.bytes (ownerLaunch c.owner)) c.cursor = false) (hr : chanRing c = some (e, n)) (hs : c.inSlot = true) :
    deliver s x hit = endXfer (deliverRing s x c (xferOf c.bytes (ownerLaunch c.owner)) e n hit) x := by
  simp [deliver, hc, hg, he, hr, hs]

/-- The pieces l written into the ring, and the cursor past them. -/
def slotDelivered (s : State) (x : Nat) (c : Chan) (f : Xfer) (e n : Nat) (l : List Piece) : State :=
  passUnit (l.foldl (fun t p => putRing t (getRing s e n) e c.startFilled (piecePos f (getRing s e n) c.cursor p) p) s) x f
    (listSum (l.map pieceLen))

theorem deliverRing_pieces (hslot : (unitSlot f (getRing s e n).slotBytes c.cursor).1 ≤ slotNo s c e n)
    (hm : f.skew = true ∨ mirrorAt s c.ctx (strided f.src c.cursor f.ss) f false = none)
    (hl : unitPieces (ownGot s x) c.ctx hit f c.cursor = .ok l)
    (ho : slotsOpen (getRing s e n) c.startFilled (slotNo s c e n)
      (l.map (fun p => piecePos f (getRing s e n) c.cursor p + pieceLen p - 1)) = true) :
    deliverRing s x c f e n hit = afterUnit (slotDelivered s x c f e n l) x e n f := by
  simp only [deliverRing, if_neg (Nat.not_lt.mpr hslot), unitAt_pieces hm hl, ho]
  rfl

theorem slotDelivered_passes (hw : tabRising s.comp.chans = true) (hc : getChan s x = some c) :
    ∃ m, ChanPasses x { c with cursor := nextCursor f c.cursor, cause := 0 } m s (slotDelivered s x c f e n l) :=
  have hu := WritesOnly.foldl (fun u p => putRing_writesOnly u (getRing s e n) e c.startFilled
    (piecePos f (getRing s e n) c.cursor p) p) l s
  ⟨_, passUnit_passes hu hw hc _⟩

/-- While the cursor stands in the slot being filled, the mark follows it (R228). -/
theorem afterUnit_marks (hc : getChan s x = some c) (he : cursorEnd f c.cursor = false)
    (hslot : (unitSlot f (getRing s e n).slotBytes c.cursor).1 ≤ slotNo s c e n) : afterUnit s x e n f =
      modRing s e n (fun r => { r with mark := BitVec.ofNat 12 ((unitSlot f (getRing s e n).slotBytes c.cursor).2 / 4096) }) := by
  simp [afterUnit, hc, he, Nat.not_lt.mpr hslot]

/-- Channel x has started the next slot of the ring: FILLING, with nothing delivered in it. -/
def slotStarted (s : State) (x e n : Nat) : State :=
  modChan (modRing (setSlotState s e n 1) e n (fun r => { r with head := r.head + 1, mark := 0 })) x
    (fun c => { c with inSlot := true, waiting := 0 })

/-- A slot that is EMPTY and follows the last one filled is started (R227). -/
theorem execChannelSlotStart_free {x : XferId} (hc : getChan s x = some c) (hg : chanGoes s x c = true)
    (he : cursorEnd (xferOf c.bytes (ownerLaunch c.owner)) c.cursor = false) (hr : chanRing c = some (e, n)) (hs : c.inSlot = false)
    (hnext : (getRing s e n).filled < (getRing s e n).slots ∨ c.waiting = 2) (hf : slotFree (getRing s e n) = true) :
    exec (.channelSlotStart x) s = .next (slotStarted s x e n) := by
  have hstart : nextSlot s x c e n = startSlot s x e n := if_pos hnext
  show execChannelSlotStart x s = _
  simp only [execChannelSlotStart, hc, hr, hg, hs, he, hstart, startSlot, if_pos hf]
  rfl

theorem getRing_slotStarted (hw : tabWf {} s.comp.rings = true) : getRing (slotStarted s x e n) e n = { getRing s e n with
    head := (getRing s e n).head + 1, mark := 0
    states := listSet (getRing s e n).states ((getRing s e n).filled % max 1 (getRing s e n).slots) 1 } := by
  have hset : getRing (setSlotState s e n 1) e n = { getRing s e n with
      states := listSet (getRing s e n).states ((getRing s e n).filled % max 1 (getRing s e n).slots) 1 } :=
    getRing_modRing_same _ hw
  have hhead := getRing_modRing_same (s := setSlotState s e n 1) (e := e) (n := n) (fun r => { r with head := r.head + 1, mark := 0 })
    (modRing_rings_wf _ hw)
  rw [hset] at hhead
  exact hhead

end

end

/-- Settles O33: a unit's writes reach memory, the fabric side and the outputs alone, so the channel and the ring are those of the
state before with the cursor past the unit; `endXfer` frees the channel only where the cursor has passed the last one. -/
theorem channelsDeliver : Obligations.ChannelsDeliver := by
  intro x hit c s h hc hg f he
  obtain ⟨hcw, hrw⟩ := wf_channels_rings h
  refine ⟨fun l hr hslot hm hl hd hf => ?memory, fun e n l hr hs hslot hm hl ho hmore hz => ?ring, fun e n hr hs hnext hf => ?start⟩
  case memory =>
    have hx : exec (.transferDelivery x hit) s = .next (endXfer (piecesDelivered s x c f l) x) :=
      congrArg Host.Outcome.next ((deliver_memory hc hg he hr).trans (by rw [deliverMem_pieces hm hl hd hf]))
    have hsent := piecesDelivered_sent (s := s) (x := x) (c := c) (f := f) (l := l)
    obtain ⟨hcv, hsame, hne, ch, b, o, hframe⟩ := piecesDelivered_passes (f := f) (l := l) hcw hc
    generalize piecesDelivered s x c f l = v at hx hsent hcv hsame hne hframe
    refine ⟨fun hmore => ⟨_, hx, ?_⟩, fun q r hfab hend howner hrun hsig hwho hwait => ⟨_, hx, ?_⟩⟩
    · rw [endXfer_unfinished hsame hmore]
      exact ⟨hsame, hne, by rw [hframe], by rw [hframe], by rw [hframe], by rw [hframe]⟩
    · have hlaunch : xferOf c.bytes none = f := by rw [show f = xferOf c.bytes (ownerLaunch c.owner) from rfl, howner]; rfl
      have hqv : getQ v q = getQ s q := by rw [getQ, hframe]; rfl
      rw [endXfer_finished hsame howner (hlaunch ▸ hend) hslot hsig (by rw [hsent hfab]; exact hwho) (by rw [hframe]; exact hwait)]
      refine ⟨getChan_chanFreed_same hcv, run_chanFreed (by rw [hframe]; exact wf_queues (s := s) h) (hqv ▸ hrun), ?_, ?_⟩
      · rw [hframe]; rfl
      · rw [hframe]; rfl
  case ring =>
    have hx : exec (.transferDelivery x hit) s = .next (endXfer (afterUnit (slotDelivered s x c f e n l) x e n f) x) :=
      congrArg Host.Outcome.next ((deliver_slot hc hg he hr hs).trans (by rw [deliverRing_pieces hslot hm hl ho]))
    obtain ⟨m, -, hsame, hne, ch, b, o, hframe⟩ := slotDelivered_passes (e := e) (n := n) (f := f) (l := l) hcw hc
    generalize slotDelivered s x c f e n l = v at hx hsame hne hframe
    have hring : getRing v e n = getRing s e n := by rw [hframe]; rfl
    rw [afterUnit_marks hsame hmore (by rw [slotNo, hring]; exact hz), endXfer_unfinished (s := modRing v e n _) hsame hmore, hring] at hx
    refine ⟨_, hx, hsame, ?_, by rw [hframe]; rfl, by rw [hframe]; rfl⟩
    rw [getRing_modRing_same _ (by rw [hframe]; exact hrw), hring]
  case start =>
    refine ⟨_, execChannelSlotStart_free hc hg he hr hs hnext hf, getChan_modChan_same _ hcw hc, ?_⟩
    rw [getRing_slotStarted hrw]
    exact ⟨rfl, rfl, rfl, rfl, rfl, rfl, rfl⟩

end Sys2Proof.Proofs
end

section
/-! PROOFS. Ring configurations (R224, R225) and page requests (R232, R234, R235). -/

namespace Sys2Proof.Proofs
open Sys2Proof Sys2Proof.Machine Sys2Proof.Safety Sys2Proof.Laws

/-! ## Tallies that start from zero (R225) -/

theorem wf_tallies {s : State} (h : s.wf = true) : tabRising s.sync.tallies = true := by
  obtain ⟨-, -, -, hs, -⟩ := wf_parts h
  exact hs

section
variable {s : State} {ctx vid v : Nat} {y : Tally}

theorem zeroTally_frame (s : State) (ctx vid : Nat) : ∃ m, zeroTally s ctx vid = { s with sync := m } := by
  unfold zeroTally
  split
  · exact ⟨s.sync, rfl⟩
  · exact ⟨_, rfl⟩

theorem zeroTally_tallies_rising (hw : tabRising s.sync.tallies = true) : tabRising (zeroTally s ctx vid).sync.tallies = true := by
  unfold zeroTally
  split
  · exact hw
  · exact tabRising_tabSet _ _ hw

/-- A tally that is found after one of its context was set to zero is that one, or is as before. -/
theorem zeroTally_found (hw : tabRising s.sync.tallies = true) (hy : getTally (zeroTally s ctx vid) ctx v = some y) :
    if v = vid then y.value = 0 else getTally s ctx v = some y := by
  unfold zeroTally at hy
  split at hy
  · next hn =>
    split
    · next hv => rw [hv, hn] at hy; cases hy
    · exact hy
  · next t ht =>
    have hv0 : v ≠ 0 := fun h0 => by rw [getTally, if_pos h0] at hy; cases hy
    rw [getTally, if_neg hv0] at hy
    split
    · next hv =>
      rw [hv] at hy
      obtain rfl := Option.some.inj ((tabFind_tabSet_same _ _ hw).symm.trans hy)
      rfl
    · next hv =>
      have hkey : tallyKey ctx v ≠ tallyKey ctx vid := fun hk => hv (Nat.add_left_cancel hk)
      rw [getTally, if_neg hv0]
      exact (tabFind_tabSet_ne _ hkey).symm.trans hy

/-- The tallies of ring g, where it signals any, at zero. -/
def ringTalliesZero (s : State) (g : Ring) : State :=
  if g.sw then zeroTally (zeroTally s g.ctx g.fillTally.toNat) g.ctx g.freeTally.toNat else s

theorem ringTalliesZero_frame (s : State) (g : Ring) :
    (∃ m, ringTalliesZero s g = { s with sync := m }) ∧ (g.sw = false → ringTalliesZero s g = s) := by
  unfold ringTalliesZero
  obtain ⟨m, h⟩ := zeroTally_frame s g.ctx g.fillTally.toNat
  obtain ⟨m', h'⟩ := zeroTally_frame (zeroTally s g.ctx g.fillTally.toNat) g.ctx g.freeTally.toNat
  split
  · next hsw => exact ⟨⟨m', by rw [h', h]⟩, fun hn => absurd (hsw.symm.trans hn) Bool.noConfusion⟩
  · exact ⟨⟨s.sync, rfl⟩, fun _ => rfl⟩

theorem ringTalliesZero_found {g : Ring} (hw : tabRising s.sync.tallies = true) (hsw : g.sw = true)
    (hv : v = g.fillTally.toNat ∨ v = g.freeTally.toNat) (hy : getTally (ringTalliesZero s g) g.ctx v = some y) : y.value = 0 := by
  rw [ringTalliesZero, if_pos hsw] at hy
  have hfree := zeroTally_found (zeroTally_tallies_rising hw) hy
  split at hfree
  · exact hfree
  · next hn =>
    have hfill := zeroTally_found hw hfree
    rwa [if_pos (hv.resolve_right hn)] at hfill

end

/-! ## Ring configurations (R224, R225) -/

section
variable {s : State} {q : QueueId} {e : EngineId} {p : List Byte} {r : Run} {left : List Nat}

/-- A ring that signals tallies has those of the queue's context. -/
theorem ringOf_ctx (hsw : (ringOf s q p).sw = true) : (ringOf s q p).ctx = qCtx s q := by
  unfold ringOf at hsw ⊢
  split at hsw
  · cases hsw
  · next hm =>
    rw [if_neg hm]
    exact if_pos hsw

/-- Ring n of engine e is g, and the engine has left the list of queue q's packet. -/
def ringApplied (s : State) (q e n : Nat) (g : Ring) (left : List Nat) : State :=
  modRun (modRing s e n (fun _ => g)) q (fun r => { r with work := .ringCfg (left.filter (· ≠ e)) })

theorem execRingConfigApply_idle (hd : devRuns s = true) (hr : (getQ s q).run = some r) (hp : curPacket s q = some p)
    (hw : r.work = .ringCfg left) (he : e.val ∈ left) (hi : ringIdle s e (fieldAt p 22 1 % 16) = true) :
    exec (.ringConfigApply q e) s =
      .next (ringTalliesZero (ringApplied s q e (fieldAt p 22 1 % 16) (ringOf s q p) left) (ringOf s q p)) := by
  have hn : bitsOf (fieldAt p 22 1) 3 0 = fieldAt p 22 1 % 16 := by simp [bitsOf]
  have hl : left.contains e.val = true := List.contains_iff_mem.mpr he
  show execRingConfigApply q e s = _
  simp only [execRingConfigApply, hr, hp, hw, hn, hd, hl, hi, Bool.and_self, if_true]
  rfl

theorem getRing_ringApplied (hw : tabWf {} s.comp.rings = true) {n : Nat} (g : Ring) (hn : n < 16) :
    getRing (ringApplied s q e n g left) e n = g ∧
      ∀ d m, d < 1280 → m < 16 → (d, m) ≠ (e.val, n) → getRing (ringApplied s q e n g left) d m = getRing s d m := by
  refine ⟨getRing_modRing_same (fun _ => g) hw, fun d m _ hm hne => getRing_modRing_ne (fun _ => g) hw fun hk => hne ?_⟩
  obtain rfl : m = n := by omega
  obtain rfl : d = e.val := by omega
  rfl

theorem getQ_ringApplied (hw : tabWf {} s.host.queues = true) (hr : (getQ s q).run = some r) (n : Nat) (g : Ring) :
    (getQ (ringApplied s q e n g left) q).run = some { r with work := .ringCfg (left.filter (· ≠ e.val)) } ∧
      ∀ k, k ≠ q.val → getQ (ringApplied s q e n g left) k = getQ s k := by
  refine ⟨?_, fun k hk => getQ_modRun_ne (s := modRing s e n (fun _ => g)) _ hw hk⟩
  rw [ringApplied, getQ_modRun_same (s := modRing s e n (fun _ => g)) _ hw]
  exact congrArg (Option.map _) hr

end

/-! ## Channels that stop and go on (R232 to R234) -/

section
variable {s : State} {x : Nat} {c : Chan}

theorem stopChan_eq (hc : getChan s x = some c) (state : BitVec 2) (cause : BitVec 4) : ∃ rings, stopChan s x state cause =
    let u := modChan s x (fun y => { y with state := state, cause := cause })
    { u with comp := { u.comp with rings := rings } } := by
  simp only [stopChan, hc]
  split
  · split <;> exact ⟨_, rfl⟩
  · exact ⟨_, rfl⟩

theorem runChan_eq (hc : getChan s x = some c) : ∃ rings, runChan s x =
    let u := modChan s x (fun y => { y with state := 1, cause := 0, req := none })
    { u with comp := { u.comp with rings := rings } } := by
  simp only [runChan, hc]
  split
  · split <;> exact ⟨_, rfl⟩
  · exact ⟨_, rfl⟩

/-- An event and a freeze of a context leave channels, tallies and pages as they are. -/
theorem raiseEvent_freezeCtx_keeps (s : State) (code sev ctx src : Nat) (detail : List Byte) :
    let t := freezeCtx (raiseEvent s code sev ctx src detail) ctx code
    t.comp = s.comp ∧ t.sync = s.sync ∧ t.kv = s.kv := by
  obtain ⟨m, f, o, e, hevent⟩ := raiseEvent_frame s code sev ctx src detail
  unfold freezeCtx
  rw [hevent]
  dsimp only
  generalize partIdx _ = part
  obtain ⟨l, v, hfreeze, -⟩ := freeze_frame
    { s with mem := m, fab := f, out := s.out ++ o, host := { s.host with evqs := e } } 1 ctx part code
  rw [hfreeze]
  exact ⟨rfl, rfl, rfl⟩

/-- Channel x has stopped for a page request that failed, with context ctx frozen; no other channel, no tally and no page differs. -/
def ChanStopped (x ctx : Nat) (s t : State) : Prop :=
  isFrozen t 1 ctx = true ∧ (∃ d, getChan t x = some d ∧ d.state = 3 ∧ d.cause = 2) ∧
    (∀ k, k ≠ x → getChan t k = getChan s k) ∧ t.sync = s.sync ∧ t.kv = s.kv

theorem stopChan_stopped {u : State} {ctx : Nat} (hfrozen : isFrozen u 1 ctx = true) (hcomp : u.comp = s.comp) (hsync : u.sync = s.sync)
    (hkv : u.kv = s.kv) (hw : tabRising s.comp.chans = true) (hc : getChan s x = some c) (r : Option PageReq) :
    ChanStopped x ctx s (modChan (stopChan u x 3 2) x (fun y => { y with req := r })) := by
  have hget : ∀ k, getChan u k = getChan s k := fun k => by rw [getChan, hcomp]; rfl
  have hwu : tabRising u.comp.chans = true := hcomp ▸ hw
  have hcu := (hget x).trans hc
  have hstop := getChan_modChan_same (fun y => { y with state := 3, cause := 2 }) hwu hcu
  obtain ⟨rings, heq⟩ := stopChan_eq hcu 3 2
  rw [heq]
  refine ⟨hfrozen, ⟨_, getChan_modChan_same _ (modChan_chans_rising _ hwu) hstop, rfl, rfl⟩, fun k hk => ?_, hsync, hkv⟩
  exact (getChan_modChan_ne _ hk).trans ((getChan_modChan_ne _ hk).trans (hget k))

theorem pageFailed_stopped (hw : tabRising s.comp.chans = true) (hc : getChan s x = some c) (hctx : c.ctx < 64) (r : PageReq)
    (response : Nat) : ChanStopped x c.ctx s (pageFailed s x c r response) := by
  obtain ⟨hcomp, hsync, hkv⟩ := raiseEvent_freezeCtx_keeps (addCtr s 7 r.port 3 1) 0x0302 2 c.ctx (srcOf 4 x)
    (leBytes 4 c.tag.toNat ++ leBytes 1 (x % 64) ++ leBytes 1 r.role ++ leBytes 1 r.port ++ leBytes 1 response ++
      leBytes 8 (r.iova % 2 ^ 54))
  exact stopChan_stopped (isFrozen_freeze _ _ _ _ _ (by decide) (Nat.lt_trans hctx (by decide))) hcomp hsync hkv hw hc _

end

/-! ## Answers to page requests (R232, R234, R235) -/

/-- The translation of a host page has come into the cache. -/
def pageCached (s : State) (page : Nat × Nat × Nat) : State :=
  { s with mem := { s.mem with atsCache := s.mem.atsCache.filter (fun g => decide (g ≠ page)) ++ [page] } }

section
variable {s : State} {x : XferId} {c : Chan} {r : PageReq} (hd : devRuns s = true) (hc : getChan s x = some c) (hr : c.req = some r)
  (hs : c.state = 2)
include hd hc hr hs

theorem execPageRequestResponse_success :
    exec (.pageRequestResponse x 0) s = .next (runChan (pageCached s (c.ctx, r.port, r.iova / 4096)) x) := by
  show execPageRequestResponse x 0 s = _
  simp [execPageRequestResponse, hd, hc, hr, hs, pageCached]

theorem execPageRequestResponse_failure {code : BitVec 4} (hcode : code = 1 ∨ code = 15) :
    exec (.pageRequestResponse x code) s = .next (pageFailed s x c r code.toNat) := by
  have h0 : code ≠ 0 := by rcases hcode with rfl | rfl <;> decide
  show execPageRequestResponse x code s = _
  simp only [execPageRequestResponse, hd, hc, hr, hs, if_neg h0, if_pos hcode]
  rfl

theorem execPageRequestTimeout_late (hlate : r.since.toNat + 2 ^ 20 ≤ s.stage.toNat) :
    exec (.pageRequestTimeout x) s = .next (pageFailed s x c r 0xFF) := by
  show execPageRequestTimeout x s = _
  simp only [execPageRequestTimeout, hd, hc, hr, hs, decide_eq_false (Nat.not_lt.mpr hlate)]
  rfl

end

/-- Settles O34: the packet's configuration replaces that of the idle ring, and a tally found after both were set to zero has the
value zero; a page request's answer is `runChan` or `pageFailed`. -/
theorem ringsAndPageRequests : Obligations.RingsAndPageRequests := by
  refine ⟨fun q e p r left s h hd hr hp hw he => ?config, fun x c r s h hd hc hr hs hctx => ?request⟩
  case config =>
    intro n hi
    have htallies := wf_tallies h
    obtain ⟨-, hrw⟩ := wf_channels_rings h
    have hn : n < 16 := Nat.mod_lt _ (by decide)
    obtain ⟨hring, hrings⟩ := getRing_ringApplied (q := q) (e := e) (left := left) hrw (ringOf s q p) hn
    obtain ⟨hrun, hqueues⟩ := getQ_ringApplied (e := e) (left := left) (wf_queues h) hr n (ringOf s q p)
    obtain ⟨⟨m, hframe⟩, hkept⟩ := ringTalliesZero_frame (ringApplied s q e n (ringOf s q p) left) (ringOf s q p)
    refine ⟨_, execRingConfigApply_idle hd hr hp hw he hi, ?_, ?_, ?_, ?_, fun vid y hsw hvid hy => ?_, fun hsw => ?_, ?_⟩
    · rw [hframe]; exact hring
    · rw [hframe]; exact hrings
    · rw [hframe]; exact hrun
    · rw [hframe]; exact hqueues
    · rw [← ringOf_ctx hsw] at hy
      exact ringTalliesZero_found (s := ringApplied s q e n (ringOf s q p) left) htallies hsw hvid hy
    · rw [hkept hsw]; rfl
    · rw [hframe]; rfl
  case request =>
    intro stopped
    obtain ⟨hcw, -⟩ := wf_channels_rings h
    have hstop : ∀ response, stopped (pageFailed s x c r response) := pageFailed_stopped hcw hc hctx r
    refine ⟨⟨_, execPageRequestResponse_success hd hc hr hs, ?_⟩,
      ⟨_, execPageRequestResponse_failure hd hc hr hs (.inl rfl), hstop _⟩,
      ⟨_, execPageRequestResponse_failure hd hc hr hs (.inr rfl), hstop _⟩,
      fun hlate => ⟨_, execPageRequestTimeout_late hd hc hr hs hlate, hstop _⟩⟩
    obtain ⟨rings, hrun⟩ := runChan_eq (s := pageCached s (c.ctx, r.port, r.iova / 4096)) hc
    rw [hrun]
    exact ⟨getChan_modChan_same (s := pageCached s _) _ hcw hc, List.mem_append_right _ (List.mem_singleton.mpr rfl),
      fun k hk => getChan_modChan_ne (s := pageCached s _) _ hk, rfl, rfl, rfl⟩

end Sys2Proof.Proofs
end
